-- ==== Sys2Proof/Word.lean ====
section
/-! DEFINITION. The word types of the block: registers are 32 bits wide (R10). -/

namespace Sys2Proof

/-- A register word (R10). -/
abbrev Word := BitVec 32

/-- One byte of DRAM, of a frame or of a superframe. -/
abbrev Byte := BitVec 8

end Sys2Proof
end

