-- ==== Sys2Proof/Syntax.lean ====
section
/-! DEFINITION. The commands of the block: one constructor per row of spec/opcode_table.json. The table gives no
operands; the operands here are what the row's rule needs from outside the block: the written word, the link or tile
concerned, received symbols and bytes, measured quantities. A row that is a register write takes the written word. -/

namespace Sys2Proof

/-- The two register interfaces (R2, R11). -/
inductive Iface where
  | host | svc
  deriving DecidableEq, Repr, Inhabited

/-- The five control codes of Twill (R109, R135). -/
inductive KCode where
  | k28_5 | k28_3 | k28_6 | k28_0 | k28_1
  deriving DecidableEq, Repr, Inhabited

/-- One 10-bit group as decoded (R109): a data byte, a control code, a group outside both, or a byte or control code with a
running-disparity violation. -/
inductive Sym where
  | data (b : Byte) | k (c : KCode) | bad | disp (b : Byte) | dispK (c : KCode)
  deriving DecidableEq, Repr, Inhabited

/-- Twill links TL0 to TL35, then WZ0 = 36 and WZ1 = 37, in the order of LINK_MASK (R120). -/
abbrev LinkNo := Fin 38
/-- Twill links only. -/
abbrev TwillNo := Fin 36
/-- Clock groups CG0 to CG7. -/
abbrev GroupNo := Fin 8
/-- Tiles (R47). -/
abbrev TileNo := Fin 20
/-- Matrix units (R185). -/
abbrev UnitNo := Fin 16
/-- Local pairs (R160). -/
abbrev PairNo := Fin 12
/-- Slots of the operation queue (R349). -/
abbrev SlotNo := Fin 16
/-- Window comparators (R254). -/
abbrev CmpNo := Fin 24
/-- Converters (R238). -/
abbrev ConvNo := Fin 16

/-- One upset found by a scrub sweep (R78). -/
structure Upset where
  tile : TileNo
  shadow : Bool
  uncorrectable : Bool
  deriving DecidableEq, Repr, Inhabited

/-- What holds outside the register file at an EN rising edge (R218, R223): pins below threshold with both sides off
for the last 1 µs, clocks within ±2 % for 100 µs, no debug halt, configuration CRC of each channel. -/
structure EnLive where
  dsatClear : BitVec 12
  clkGood : Bool
  haltEnded : Bool
  crcA : Bool
  crcB : Bool
  deriving DecidableEq, Repr, Inhabited

/-- New factors of one converter (R247, R249): offset Q16.8, gain × 2^-22, four stage factors. -/
structure CalFactors where
  conv : ConvNo
  ofs : Int
  gain : Nat
  stage : Word
  deriving DecidableEq, Repr, Inhabited

/-- How a comparator input crosses (R255). -/
inductive Crossing where
  | aboveHigh | belowHighHyst | belowLow | aboveLowHyst
  deriving DecidableEq, Repr, Inhabited

/-- One sample of the filtered stream that METER takes (R240, R304): the effective values of the 16 converters, Q16.8, and
the same shifted by 90° (R306). -/
structure MeterSample where
  eff : List Int
  quad : List Int
  deriving DecidableEq, Repr, Inhabited

/-- DRAM ECC outcome of a read (R336). -/
inductive Ecc where
  | clean | corrected | uncorrectable
  deriving DecidableEq, Repr, Inhabited

/-- Input of a remote thermal channel at its conversion (R367): voltages between TSn_P and TSn_N in nV. A diode has
V(I), V(4I) and V(16I); a thermistor has V in the first alone. -/
structure TsInput where
  v1 : Nat
  v4 : Nat
  v16 : Nat
  deriving DecidableEq, Repr, Inhabited

/-- The path delay part of a PTP measurement, times in 2^-16 ns with the sum of the correction fields (R269, R273): the times of
Delay_Req and Delay_Resp, or of Pdelay_Req and Pdelay_Resp. -/
inductive PathExchange where
  | e2e (t3 t4 : Nat) (corr : Int)
  | p2p (t1 t2 t3 t4 : Nat) (corr : Int)
  deriving DecidableEq, Repr, Inhabited

/-- A PTP measurement (R273): port identity of the sender with byte i at bits [8i+7:8i], domain, logSyncInterval, transmit time
and receive stamp of the Sync in 2^-16 ns, its correction, and the path part. -/
structure PtpExchange where
  sender : BitVec 80
  domain : BitVec 8
  logSync : Int
  t1 : Nat
  t2 : Nat
  corr : Int
  path : PathExchange
  deriving DecidableEq, Repr, Inhabited

/-- Strap and pin levels sampled at reset release (R60, R222, R381). -/
structure Straps where
  bootMode : BitVec 2
  en : Bool
  /-- Bit b: bank IOb is at 3.3 V. -/
  io3v3 : BitVec 3
  deriving DecidableEq, Repr, Inhabited

/-- The commands: one constructor per row of the opcode table, in its order. -/
inductive Instr where
  | commitReq (v : Word)
  | cutoff (g : GroupNo)
  | periodBoundary (g : GroupNo)
  | mirrorCopyEnd (g : GroupNo)
  | coefCopyDone (u : UnitNo)
  | muComputeStart (u : UnitNo)
  | muComputeDone (u : UnitNo)
  | midCutoff (g : GroupNo)
  | midPeriodTransfer (g : GroupNo)
  | gateEdge (p : PairNo) (high : Bool)
  | clockGroupStart
  | imageActivation
  | selfCal (slot : SlotNo) (p0 : Word)
  | tileLoad (slot : SlotNo) (p0 p1 p2 : Word)
  | tileSwap (slot : SlotNo) (p0 p1 p2 p3 : Word)
  | linkTrain (slot : SlotNo) (p0 p1 : Word)
  | offstateDiag (slot : SlotNo) (p0 p1 p2 : Word)
  | cmpSelftest (slot : SlotNo) (p0 : Word)
  | histCapture (slot : SlotNo) (p0 p1 p2 p3 p4 : Word)
  | waveDump (slot : SlotNo) (p0 p1 : Word)
  | twLocate (slot : SlotNo) (p0 p1 : Word)
  | mramScrub (slot : SlotNo) (p0 : Word)
  | badOpcode (slot : SlotNo) (op : Byte)
  | opStart (slot : SlotNo)
  | sectionProgramDone (tile : TileNo) (readbackOk : Bool)
  | suspend (handle : BitVec 16)
  | resume (handle : BitVec 16)
  | cancel (handle : BitVec 16)
  | svcOpCancel (v : Word)
  | opSuspensionPoint (slot : SlotNo)
  | tileDiscard (v : Word)
  | scrubSweep (found : List Upset)
  | keyProg (v : Word)
  | keyProgDone (ok : Bool)
  | qspiReadDone (supported : Bool) (image : List Byte)
  | bar2Write (off : BitVec 27) (data : List Byte)
  | bar2Read (off : BitVec 27) (len : Nat) (ecc : Ecc)
  | refclkDetect (hz : Nat)
  | rootLock
  | mLock
  | dividerRelease
  | refLoss
  | wzRefLoss
  | rootLol
  | mLol
  | fineCalFail (gen : Nat)
  | lockReacquired (mBranch : Bool)
  | sscApply (v : Word)
  | profileOrigin
  | refSelWrite (v : Word)
  | clkMon (edgeClk : Bool)
  | phaseAcquired (l : LinkNo) (eye : BitVec 64)
  | upLock (l : LinkNo)
  | alignTimeout (l : LinkNo)
  | markerErr (l : LinkNo)
  | phaseLimit (l : LinkNo)
  | ebufErr (l : LinkNo)
  | trainingBlockRx (l : LinkNo) (groups : List (BitVec 10))
  | capTimeout (l : LinkNo)
  | checkWindowDone (l : LinkNo)
  | ackTimeout (l : LinkNo)
  | countdownEnd (l : LinkNo)
  | dckRestart (l : LinkNo)
  | fallbackConfirm (l : LinkNo)
  | linkTrainDone
  | bitslipUp (l : LinkNo)
  | bitslipDown (l : LinkNo)
  | alignModeChange (l : LinkNo)
  | loopWrite (l : LinkNo) (loop : BitVec 2)
  | loopFail (l : LinkNo)
  | ddtSkewApply (l : LinkNo)
  | downstreamSuperframeStart (l : LinkNo)
  | upstreamSuperframeRx (l : LinkNo) (groups : List (BitVec 10)) (t8 : Nat)
  | echoLoss (l : LinkNo)
  | latencyUpdate (l : LinkNo)
  | asymTrimWrite (l : LinkNo) (v : Word)
  | k28_3Rx (l : TwillNo)
  | dckStop (l : LinkNo)
  | edge (l : TwillNo) (ptag : Byte) (sw : Fin 16) (start half : Bool) (coarse : List Nat) (fine : List Nat)
  | boundary (l : TwillNo) (ptag : Byte) (swMask : BitVec 12) (offset ofine mid mfine : Nat)
  | sample (l : TwillNo) (ptag : Byte) (offset : BitVec 24)
  | supply (l : TwillNo) (ptag : Byte) (bootstrap : Bool)
  | diag (l : TwillNo) (op tag : Byte) (result : BitVec 24) (causeGone : Bool)
  | grid (port : Fin 2) (cg : GroupNo) (bcount : Word) (offset : BitVec 24) (ofine : Fin 16) (period : BitVec 24)
  | wzTrip (port : Fin 2)
  | wzLink (port : Fin 2)
  | cellBlock (l : TwillNo) (dckLoss : Bool)
  | cellFaultLatch (l : TwillNo) (faults : Byte) (dsat : BitVec 12)
  | incompletePeriod (l : TwillNo)
  | dsatCrossing (p : PairNo)
  | blankingEnd (p : PairNo) (beyond : Bool)
  | cSourceFiltered (src : Fin 256) (chA chB : Bool)
  | xchkReplayDone (aFails bFails : Bool)
  | gorseSelftest (chB : Bool) (pass : Bool) (delayPs : Nat)
  | singleChLimit
  | hostTrip (v : Word)
  | hostSafeStop (v : Word)
  | safeStop (v : Word)
  | ssStep
  | ssWaitEnd
  | safeStopTimeout
  | debugHalt
  | enFall
  | enRise (live : EnLive)
  | brkTurnOn
  | brkTurnOff
  | brkOvertime
  | offstateDiagDone (pairRes : BitVec 24)
  | cmpSelftestDone (res : BitVec 48)
  | tripRecRead (i : Iface) (r : Fin 32)
  | spotTrig (v : Word)
  | spotPeriodicCapture (n : ConvNo)
  | adcDataRead (n : ConvNo) (landing : Option (BitVec 22))
  | refEnWrite (v : Word)
  | refSettled
  | selfCalCommit (found : List CalFactors)
  | ucalSave (v : Word)
  | ucalSaveDone
  | wcCrossing (c : CmpNo) (x : Crossing)
  | wcSettled (c : CmpNo) (uV : Int)
  | capRead (i : Iface) (k : Fin 8)
  | rbCtrl (v : Word)
  | readbackDone (levels : List Int)
  | reg64LowRead (i : Iface) (addr : BitVec 24)
  | timeNsRead (i : Iface)
  | timeAdj (v : Word)
  | timeSet (v : Word)
  | addendWrite (fine : Bool) (v : Word)
  | ethFrameRx (port : Fin 2) (frame : List Byte) (fcsOk : Bool)
  | servoMeasurement (x : PtpExchange)
  | holdoverEntry
  | holdoverCorrection
  | ppsOutRise
  | ppsOutFall
  | ppsInEdge
  | ppsInMissing
  | lqTailWrite (q : Fin 8) (v : Word)
  | frameLaunch (q : Fin 8) (portFree : Bool)
  | pmuReport (body : List Byte) (trig : BitVec 5)
  | pmuCfgChange
  | dataOn
  | dataOff
  | sendCfg2
  | sendHdr
  | pmuNotice (v : Word)
  | twFront (comp : Fin 3) (ch : ConvNo) (rise : BitVec 16)
  | twEventEnd
  | twLocateDone
  | recForce (v : Word)
  | recFreeze
  | recRelease (v : Word)
  | waveDumpDone
  | lineCycleEnd (samples : List MeterSample) (durPs freqMhz : Nat)
  | pulseEnd (k : Fin 8)
  | periodicRecord
  | noLine (present : Bool)
  | pfwNFall
  | finalRepeat
  | energyClear (v : Word)
  | brackenSecond (codes0 codes1 codes2 : List (BitVec 24))
  | alignmentRecord
  | brClear (v : Word)
  | vbatRestart
  | registerWrite (i : Iface) (addr : BitVec 24) (len : Nat) (be : BitVec 4) (v : Word)
  | rcRead (i : Iface) (addr : BitVec 24) (len : Nat)
  | macHiWrite (port : Fin 2) (v : Word)
  | spiWrite (out : List Byte)
  | spiRead (out : List Byte)
  | spiBadCommand (cmd : Byte) (len : Nat)
  | spiAbort (out : List Byte)
  | vecAck (hi : Bool) (v : Word)
  | msixEnable
  | watchdogExpire (svc : Bool)
  | wdogWarn (svc : Bool)
  | hostWdogKick (v : Word)
  | svcWdogKick (v : Word)
  | histCaptureEnd
  | tsConversion (n : Fin 8) (x : TsInput)
  | dieSensorConversion (d : Fin 4) (reading : BitVec 16)
  | dieShutdown (d : Fin 4)
  | dieShutdownRelease (x : Straps)
  | quadRailMeasure (mv : List Nat)
  | powerOnReset
  | resetN
  | perstN
  | resetRelease (x : Straps)
  | standbyEnter (v : Word)
  | standbyWake (v : Word)
  | standbyExitDone
  | referenceReturn
  | timeCtrlWrite (v : Word)
  | pfwNRise
  | vbatLoss
  | brackenCrystalStop
  | mramScrubDone (corrected uncorrectable badCrc : Nat)
  | ethLinkChange (port : Fin 2) (up : Bool)
  | ethCfgWrite (port : Fin 2) (v : Word)
  | converterSample (codes : List Int)
  deriving DecidableEq, Repr, Inhabited

end Sys2Proof
end

