-- ==== Sys2Proof/Decode.lean ====
section
/-! DEFINITION. The command that a word spells by the opcode table's bits. The table gives no row any bits (every row's list of fields is empty):
commands are told apart by what happens at an interface, not by an encoding. -/

namespace Sys2Proof

/-- No word of any length spells a command. -/
def decodeTableWord (_nbits _w : Nat) : Option Instr := none

end Sys2Proof
end

