-- ==== Sys2Proof/Machine/Bits.lean ====
section
/-! DEFINITION. Bit fields, signed views and byte orders of words (R6, R10). -/

namespace Sys2Proof.Machine

open Sys2Proof

/-- The word of a natural number, modulo 2^32. -/
def wd (n : Nat) : Word := BitVec.ofNat 32 n

/-- The word of an integer in two's complement. -/
def wdI (i : Int) : Word := BitVec.ofInt 32 i

/-- The byte of a natural number, modulo 256. -/
def byt (n : Nat) : Byte := BitVec.ofNat 8 n

/-- Bit field [lo + len - 1 : lo] of a natural number (R6). -/
def natFld (n lo len : Nat) : Nat := (n >>> lo) % 2 ^ len

/-- Bit field [lo + len - 1 : lo] of a word, as a number (R6). -/
def fld (w : Word) (lo len : Nat) : Nat := natFld w.toNat lo len

/-- Bit n of a word (R6). -/
def bit (w : Word) (n : Nat) : Bool := w.getLsbD n

/-- The word with the field [lo + len - 1 : lo] replaced by v. -/
def putFld (w : Word) (lo len v : Nat) : Word :=
  (w &&& ~~~(wd ((2 ^ len - 1) <<< lo))) ||| wd ((v % 2 ^ len) <<< lo)

/-- The word whose only set bit is n, or zero. -/
def bitIf (n : Nat) (b : Bool) : Word := if b then wd (2 ^ n) else 0

/-- 1 for true and 0 for false. -/
def b2n (b : Bool) : Nat := if b then 1 else 0

/-- The signed value of a field of len bits. -/
def sgn (len v : Nat) : Int := if v < 2 ^ (len - 1) then (v : Int) else (v : Int) - (2 : Int) ^ len

/-- The field of len bits that holds an integer in two's complement. -/
def unsgn (len : Nat) (i : Int) : Nat := (i % (2 : Int) ^ len).toNat

/-- The signed value of a 32-bit word. -/
def sWord (w : Word) : Int := w.toInt

/-- Clamp of an integer between two bounds; the upper bound wins if they cross (R192). -/
def clampI (lo hi v : Int) : Int := min (max v lo) hi

/-- Clamp of a number between two bounds (R347). -/
def clampN (lo hi v : Nat) : Nat := min (max v lo) hi

/-- Saturation to 32 signed bits (R193). -/
def sat32 (v : Int) : Int := clampI (-2147483648) 2147483647 v

/-- A saturating counter of 32 bits stops at 0xFFFF_FFFF (R130). -/
def satInc (w : Word) (n : Nat) : Word := wd (min (w.toNat + n) 0xFFFFFFFF)

/-- Little-endian number of a list of bytes (R10). -/
def leNat : List Byte → Nat
  | [] => 0
  | b :: bs => b.toNat + 256 * leNat bs

/-- Big-endian number of a list of bytes (R10, network order). -/
def beNat (l : List Byte) : Nat := leNat l.reverse

/-- The n low bytes of a number, least significant first (R10). -/
def leBytes : Nat → Nat → List Byte
  | 0, _ => []
  | n + 1, v => byt v :: leBytes n (v / 256)

/-- The n low bytes of a number, most significant first (network order). -/
def beBytes (n v : Nat) : List Byte := (leBytes n v).reverse

/-- Byte i of a list, zero beyond its end. -/
def byteAt (l : List Byte) (i : Nat) : Byte := l.getD i 0

/-- Bytes [o, o + n) of a list, little-endian. -/
def leAt (l : List Byte) (o n : Nat) : Nat := leNat ((l.drop o).take n)

/-- Bytes [o, o + n) of a list, big-endian. -/
def beAt (l : List Byte) (o n : Nat) : Nat := beNat ((l.drop o).take n)

/-- The list of the set bits of a number below n, ascending. -/
def bitsOf (n v : Nat) : List Nat := (List.range n).filter (fun i => v.testBit i)

/-- The number whose set bits are those below n for which the predicate holds. -/
def maskOf (n : Nat) (p : Nat → Bool) : Nat :=
  (List.range n).foldl (fun a i => if p i then a + 2 ^ i else a) 0

/-- Fold of a state over a list of numbers. -/
def forEach {σ : Type} (l : List Nat) (f : Nat → σ → σ) (s : σ) : σ := l.foldl (fun a i => f i a) s

/-- Division of integers rounded to nearest, halves upwards; d is positive. -/
def divRound (n : Int) (d : Nat) : Int := (2 * n + d) / (2 * d)

/-- Division of numbers rounded upwards. -/
def ceilDiv (n d : Nat) : Nat := (n + d - 1) / d

end Sys2Proof.Machine
end

