-- ==== Sys2Proof/Machine/Operands.lean ====
section
/-! DEFINITION. The byte and symbol forms of the commands' operands: the three CRCs (R51, R116, R339), the operating
superframe (R131 to R135), the training block (R115), the service transactions (R338), the launch descriptor (R280)
and the travelling-wave report (R293). -/

namespace Sys2Proof.Machine

open Sys2Proof

/-! CRCs. -/

/-- n steps of a CRC register of width w, most significant bit first. -/
def crcShift (w poly : Nat) : Nat → Nat → Nat
  | 0, c => c
  | n + 1, c =>
    crcShift w poly n
      (if c.testBit (w - 1) then ((c <<< 1) % 2 ^ w) ^^^ poly else (c <<< 1) % 2 ^ w)

/-- CRC of width w over bytes, most significant bit first, no reflection, no final XOR. -/
def crcMsb (w poly init : Nat) (l : List Byte) : Nat :=
  l.foldl (fun c b => crcShift w poly 8 (c ^^^ (b.toNat <<< (w - 8)))) init

/-- CRC-16 of R116. -/
def crc16 (l : List Byte) : Nat := crcMsb 16 0x1021 0xFFFF l
/-- CRC-8 of R339. -/
def crc8 (l : List Byte) : Nat := crcMsb 8 0x07 0 l

/-- n steps of the reflected CRC-32. -/
def crc32Shift : Nat → Nat → Nat
  | 0, c => c
  | n + 1, c => crc32Shift n (if c.testBit 0 then (c >>> 1) ^^^ 0xEDB88320 else c >>> 1)

/-- CRC-32 of R51. -/
def crc32 (l : List Byte) : Nat :=
  (l.foldl (fun c b => crc32Shift 8 (c ^^^ b.toNat)) 0xFFFFFFFF) ^^^ 0xFFFFFFFF

/-! Superframes. -/

/-- The byte of a data symbol; a disparity violation still carries its byte (R109). -/
def symByte : Sym → Option Byte
  | .data b => some b
  | .disp b => some b
  | .k _ => none
  | .dispK _ => none
  | .bad => none

/-- The control code of a symbol; a disparity violation still carries it (R109). -/
def symK : Sym → Option KCode
  | .k c => some c
  | .dispK c => some c
  | _ => none

/-- The symbol at position i is this control code. -/
def kAt (l : List Sym) (i : Nat) (c : KCode) : Bool := (l[i]?).bind symK == some c

/-- The bytes of n symbols from position i, if every one is a data symbol. -/
def symBytes (l : List Sym) (i n : Nat) : Option (List Byte) :=
  let part := (l.drop i).take n
  if part.length = n then part.mapM symByte else none

/-- A stretch of symbols contains K28.3 or K28.6 (R134). -/
def preempted (l : List Sym) (i n : Nat) : Bool :=
  ((l.drop i).take n).any (fun x => symK x == some .k28_3 || symK x == some .k28_6)

/-- A group or header of bytes whose last two are its CRC-16, low byte first (R132, R134). -/
def crcGood (l : List Byte) : Bool :=
  let n := l.length - 2
  crc16 (l.take n) == leAt l n 2

/-- How a stretch with a CRC was received. -/
inductive Stretch where
  | good (l : List Byte) | crcBad | preempt
  deriving DecidableEq, Repr

def readStretch (l : List Sym) (i n : Nat) : Stretch :=
  if preempted l i n then .preempt
  else match symBytes l i n with
    | some b => if crcGood b then .good (b.take (n - 2)) else .crcBad
    | none => .crcBad

/-- The control code at position i is one of those allowed there (R110, R135): K28.3 upstream anywhere but at 0 in a fault
run, K28.6 on Wozin ports. -/
def kAllowed (wz : Bool) (i : Nat) (c : KCode) : Bool :=
  match c with
  | .k28_5 => i == 0
  | .k28_0 => i == 1
  | .k28_1 => i == 2
  | .k28_3 => !wz && i != 0
  | .k28_6 => wz && i != 0

/-- Symbol y at position i is a code error (R109, R135): a group outside the code, or a control code used elsewhere than R135 gives. -/
def isCodeErr (wz : Bool) (i : Nat) (y : Sym) : Bool :=
  y == .bad || (match symK y with | some c => !kAllowed wz i c | none => false)

/-- A running-disparity violation (R109). -/
def isDispErr : Sym → Bool
  | .disp _ => true
  | .dispK _ => true
  | _ => false

/-- Code errors of a superframe. -/
def codeErrs (wz : Bool) (l : List Sym) : Nat := (l.zipIdx.filter (fun p => isCodeErr wz p.2 p.1)).length

/-- Running-disparity violations of a superframe. -/
def dispErrs (l : List Sym) : Nat := (l.filter isDispErr).length

/-- Symbols 2 to 17 of a training superframe with a code or disparity error (R117). -/
def blockErrs (wz : Bool) (l : List Sym) : Nat :=
  ((l.zipIdx.take 18).drop 2 |>.filter (fun p => isCodeErr wz p.2 p.1 || isDispErr p.1)).length

/-- Upstream messages (R143, R144, R156). -/
inductive UpMsg where
  | cellReport (b : List Byte) | diagResult (b : List Byte) | grid (b : List Byte)
  deriving DecidableEq, Repr

/-- The messages of a payload group's 28 bytes, up to the padding or the first unknown TYPE (R134). -/
def groupMsgs (wz : Bool) : Nat → List Byte → List UpMsg
  | 0, _ => []
  | n + 1, l =>
    match l with
    | [] => []
    | t :: _ =>
      if t = 0x81 ∧ wz = false ∧ 12 ≤ l.length then .cellReport (l.take 12) :: groupMsgs wz n (l.drop 12)
      else if t = 0x82 ∧ wz = false ∧ 8 ≤ l.length then .diagResult (l.take 8) :: groupMsgs wz n (l.drop 8)
      else if t = 0x10 ∧ wz = true ∧ 13 ≤ l.length then .grid (l.take 13) :: groupMsgs wz n (l.drop 13)
      else []

/-! Training blocks (R115). -/

/-- A training block of 16 bytes whose CRC is right (R116). -/
def trainGood (l : List Byte) : Bool := l.length == 16 && crc16 (l.take 14) == leAt l 14 2

/-! Service transactions (R338): parts of a write's ten and a read's thirteen bytes. -/

/-- ADDR of a service transaction. -/
def svcAddr (out : List Byte) : Nat := beAt out 1 3
/-- DATA of a service write. -/
def svcData (out : List Byte) : Word := BitVec.ofNat 32 (beAt out 4 4)
def svcWriteCrcGood (out : List Byte) : Bool := crc8 (out.take 8) == (byteAt out 8).toNat
def svcReadCrcGood (out : List Byte) : Bool := crc8 (out.take 4) == (byteAt out 4).toNat

/-! Launch descriptors (R280). -/

structure LaunchDesc where
  buf : Nat := 0
  length : Nat := 0
  port : Nat := 0
  flags : Nat := 0
  sec : Nat := 0
  ns : Nat := 0
  deriving DecidableEq, Repr, Inhabited

def readDesc (l : List Byte) : LaunchDesc :=
  { buf := leAt l 0 4, length := leAt l 4 2, port := leAt l 6 1, flags := leAt l 7 1,
    sec := leAt l 8 6, ns := leAt l 0x10 4 }

/-- The twelve bytes written back at 0x14: STATUS, TX_S_HI, TX_NS, TX_S_LO. -/
def descBack (status sec ns : Nat) : List Byte :=
  leBytes 2 status ++ leBytes 2 (sec / 2 ^ 32) ++ leBytes 4 ns ++ leBytes 4 sec

/-! UDP/IPv4 datagrams in Ethernet frames, as far as ports and payload go (R289, R294). -/

/-- The UDP destination port and payload of an untagged IPv4 frame. -/
def udpOf (f : List Byte) : Option (Nat × List Byte) :=
  if beAt f 12 2 = 0x0800 ∧ (byteAt f 14).toNat / 16 = 4 ∧ byteAt f 23 = 17 then
    let ihl := 4 * ((byteAt f 14).toNat % 16)
    let u := 14 + ihl
    let n := beAt f (u + 4) 2
    some (beAt f (u + 2) 2, (f.drop (u + 8)).take (n - 8))
  else none

/-- A PTP event message's frame: Ethertype 0x88F7, or UDP port 319 or 320 (R269, R271). -/
def isPtp (f : List Byte) : Bool :=
  beAt f 12 2 == 0x88F7 ||
    (match udpOf f with | some (p, _) => p == 319 || p == 320 | none => false)

/-! Travelling-wave reports (R293). -/

structure TwReport where
  station : Nat := 0
  line : Nat := 0
  event : Nat := 0
  sec : Nat := 0
  ns : Nat := 0
  frac : Nat := 0
  uncert : Nat := 0
  front : Nat := 0
  tq : Nat := 0
  peak : Int := 0
  rise : Nat := 0
  deriving DecidableEq, Repr, Inhabited

/-- The 40 bytes of a report, in network byte order. -/
def twBytes (r : TwReport) : List Byte :=
  let body := beBytes 2 0x5457 ++ [0x01, 0x01] ++ beBytes 4 r.station ++ beBytes 2 r.line ++ beBytes 2 r.event
    ++ beBytes 6 r.sec ++ beBytes 4 r.ns ++ beBytes 2 r.frac ++ beBytes 2 r.uncert
    ++ beBytes 1 r.front ++ beBytes 1 r.tq ++ beBytes 2 (unsgn 16 r.peak) ++ beBytes 2 r.rise ++ beBytes 4 0
  body ++ beBytes 4 (crc32 body)

/-- A received payload as a report: SYNC, CRC and VERSION are right (R294). -/
def twRead (l : List Byte) : Option TwReport :=
  if l.length = 40 ∧ beAt l 0 2 = 0x5457 ∧ byteAt l 2 = 1 ∧ crc32 (l.take 36) = beAt l 36 4 then
    some { station := beAt l 4 4 % 2 ^ 18, line := beAt l 8 2, event := beAt l 10 2, sec := beAt l 12 6,
           ns := beAt l 18 4 % 2 ^ 30, frac := beAt l 22 2, uncert := beAt l 24 2, front := beAt l 26 1,
           tq := beAt l 27 1, peak := sgn 16 (beAt l 28 2), rise := beAt l 30 2 }
  else none

end Sys2Proof.Machine
end

