-- ==== Sys2Proof/Machine/Tbl.lean ====
section
/-! DEFINITION. Sparse tables with number keys: the one form in which State holds memories, register files and
arrays of units. A table lists (key, value) pairs with keys strictly rising and no pair whose value is what an
unlisted key reads as, so equal tables are equal lists. -/

namespace Sys2Proof.Machine

/-- A sparse table. What an unlisted key reads as is given at each access by the default d. -/
abbrev Tbl (α : Type) := List (Nat × α)

/-- The value at key k; d k where the table lists none. -/
def tget {α : Type} (d : Nat → α) (t : Tbl α) (k : Nat) : α :=
  match t with
  | [] => d k
  | (j, v) :: r => if j = k then v else tget d r k

/-- The listed value at key k. -/
def tlook {α : Type} (t : Tbl α) (k : Nat) : Option α :=
  match t with
  | [] => none
  | (j, v) :: r => if j = k then some v else tlook r k

/-- The table without key k. -/
def tdel {α : Type} (t : Tbl α) (k : Nat) : Tbl α :=
  match t with
  | [] => []
  | (j, v) :: r => if j = k then tdel r k else (j, v) :: tdel r k

/-- The table with the pair (k, v) put before the first larger key. -/
def tins {α : Type} (t : Tbl α) (k : Nat) (v : α) : Tbl α :=
  match t with
  | [] => [(k, v)]
  | (j, u) :: r => if k < j then (k, v) :: (j, u) :: r else (j, u) :: tins r k v

/-- The table with key k set to v: writing what an unlisted key reads as removes the entry. -/
def tset {α : Type} [DecidableEq α] (d : Nat → α) (t : Tbl α) (k : Nat) (v : α) : Tbl α :=
  if v = d k then tdel t k else tins (tdel t k) k v

/-- The table with key k changed by f. -/
def tmod {α : Type} [DecidableEq α] (d : Nat → α) (t : Tbl α) (k : Nat) (f : α → α) : Tbl α :=
  tset d t k (f (tget d t k))

/-- The table without the keys of [lo, hi). -/
def tclr {α : Type} (t : Tbl α) (lo hi : Nat) : Tbl α := t.filter (fun p => p.1 < lo || hi ≤ p.1)

/-- The canonical form: keys strictly rising and no entry at its default. -/
def twf {α : Type} [DecidableEq α] (d : Nat → α) (t : Tbl α) : Bool :=
  match t with
  | [] => true
  | [(j, v)] => decide (v ≠ d j)
  | (j, v) :: (i, u) :: r => decide (v ≠ d j) && decide (j < i) && twf d ((i, u) :: r)

/-- Write of a run of consecutive keys. -/
def tsetRun {α : Type} [DecidableEq α] (d : Nat → α) (t : Tbl α) (k : Nat) : List α → Tbl α
  | [] => t
  | v :: vs => tsetRun d (tset d t k v) (k + 1) vs

/-- Read of n consecutive keys. -/
def tgetRun {α : Type} (d : Nat → α) (t : Tbl α) (k : Nat) : Nat → List α
  | 0 => []
  | n + 1 => tget d t k :: tgetRun d t (k + 1) n

end Sys2Proof.Machine
end

