-- ==== Sys2Proof/Machine/Content.lean ====
section
/-! DEFINITION. What the sections of a Damask image define (R47, R56): the values of the fields whose reset is a
dash, tile by tile. The byte form of a section's configuration stream is Birvin's (R56) and not in the spec; how bytes
become this content is Config.sectionBody. -/

namespace Sys2Proof.Machine

open Sys2Proof

/-- A LINK section: which of the tile's nine links the image defines. -/
structure LinkContent where
  /-- Bit j: link 9t + j of tile t is defined ("LINK_TRAIN names a link the image does not define"). -/
  defined : Nat := 0
  deriving DecidableEq, Repr, Inhabited

/-- A carrier of a MOD section (R161, R162, CARRIER_CFGi of R184). -/
structure Carrier where
  sawtooth : Bool := false
  cg : Nat := 0
  defined : Bool := false
  autoIndex : Nat := 0
  autoDiv : Nat := 1
  phase : Nat := 0
  phMode : Bool := false
  deriving DecidableEq, Repr, Inhabited

/-- A local pair of a MOD section (LP_* of R184). -/
structure PairCfg where
  indep : Bool := false
  bootstrap : Bool := false
  muSrc : Bool := false
  cpPresent : Bool := false
  bsPresent : Bool := false
  chg : Nat := 0
  carrier : Nat := 0
  dt : Nat := 0
  dtMin : Nat := 0
  refreshMin : Nat := 250
  refreshInt : Nat := 10
  bootHold : Nat := 10
  /-- The matrix unit and output that feed A and B of a pair whose SRC is 1 (R164). -/
  muA : Nat × Nat := (0, 0)
  muB : Nat × Nat := (0, 0)
  deriving DecidableEq, Repr, Inhabited

/-- A cell's virtual channels in a MOD section (VC_* of R184). -/
structure CellCfg where
  indep : Nat := 0
  bootstrap : Bool := false
  legs : Nat := 0
  muMask : Nat := 0
  chg : Nat := 0
  dt : Nat := 0
  dtMin : Nat := 0
  refreshMin : Nat := 250
  refreshInt : Nat := 10
  bootHold : Nat := 10
  /-- Carrier of each switch, 0 to 11. -/
  carriers : List Nat := []
  /-- Matrix unit and output of each switch whose muMask bit is set (R164). -/
  mu : List (Nat × Nat) := []
  deriving DecidableEq, Repr, Inhabited

/-- A MOD section: carriers, pairs and cells by their device-wide numbers (R160), and the fields of the clock groups
and channel groups it defines (CG_PERIODg, CHG_MAPc, CHG_UPD). -/
structure ModContent where
  periods : Tbl Nat := []
  chgCg : Tbl Nat := []
  chgUpd : Nat := 0
  carriers : Tbl Carrier := []
  pairs : Tbl PairCfg := []
  cells : Tbl CellCfg := []
  deriving DecidableEq, Repr, Inhabited

/-- The source of an input slot (R189, SLOT_MAPs of R205). -/
inductive SlotKind where
  | unused | conv | cellVdc | cellTemp | ownPrev | host | chain
  deriving DecidableEq, Repr, Inhabited

/-- SLOT_MAPs (R205). -/
structure SlotMap where
  kind : SlotKind := .unused
  index : Nat := 0
  srcUnit : Nat := 0
  /-- AGE, 1 to 4. -/
  age : Nat := 1
  shift : Nat := 0
  deriving DecidableEq, Repr, Inhabited

/-- One matrix unit of a CTRL section (R185, R187, R199, R202, R372). -/
structure UnitCfg where
  n : Nat := 0
  m : Nat := 0
  p : Nat := 0
  q : Nat := 0
  defined : Bool := false
  slots : Tbl SlotMap := []
  refs : Tbl Word := []
  umin : Tbl Word := []
  umax : Tbl Word := []
  coef : Tbl Word := []
  /-- SHIFT words, four five-bit shifts each (R199). -/
  shift : Tbl Word := []
  /-- Initial state and output vectors (R202). -/
  initX : Tbl Word := []
  initU : Tbl Word := []
  /-- THR_MAPu: HOST slots that the throttle factor scales (R372). -/
  thrMap : Nat := 0
  deriving DecidableEq, Repr, Inhabited

/-- A CTRL section: its two units. -/
structure CtrlContent where
  even : UnitCfg := {}
  odd : UnitCfg := {}
  deriving DecidableEq, Repr, Inhabited

/-- CLASS of an action (R213). -/
inductive ActClass where
  | none | trip | safeStop | block | notify
  deriving DecidableEq, Repr, Inhabited

/-- An action descriptor (R213, ACT_Xa of R237). -/
structure ActDesc where
  cls : ActClass := .none
  links : Nat := 0
  pairs : Nat := 0
  deriving DecidableEq, Repr, Inhabited

/-- FILT_Xs (R208, R237): filter, the source's pair (15 none), and for LINK_FAULT the flag selection. -/
structure FiltDesc where
  filter : Nat := 0
  pair : Nat := 15
  sel : Nat := 0
  deriving DecidableEq, Repr, Inhabited

/-- A step of the safe-stop sequence (R220). -/
inductive SsStep where
  /-- Scale the HOST slots of `slots` (unit, slot mask) to zero over timeUs. -/
  | ramp (cg : Nat) (slots : List (Nat × Nat)) (timeUs : Nat)
  /-- Disable the channel groups of the mask. -/
  | disable (cg : Nat) (chg : Nat)
  /-- Wait for timeUs. -/
  | wait (cg : Nat) (timeUs : Nat)
  deriving DecidableEq, Repr, Inhabited

/-- A Gorse section: trip matrix, descriptors, filters and the safe-stop sequence (R212, R220). -/
structure GorseContent where
  tm : Tbl Word := []
  act : Tbl ActDesc := []
  filt : Tbl FiltDesc := []
  steps : List SsStep := []
  /-- SS_MAX in ms, 1 to 10,000 (R220). -/
  ssMaxMs : Nat := 1000
  deriving DecidableEq, Repr, Inhabited

/-- A MEAS section: comparator settings (R259), converter routing for the recorder, PMU and travelling waves. -/
structure MeasContent where
  wcThr : Tbl Word := []
  wcCfg : Tbl Word := []
  /-- Number of phasors of the PMU frame (R284). -/
  phasors : Nat := 0
  /-- Converter assigned to the brake chopper, 16 for none (R229). -/
  brkConv : Nat := 16
  /-- The three MV channels of travelling-wave detection (R291). -/
  twCh : List Nat := []
  /-- The converter channels that the phasors use (R284). -/
  pmuCh : List Nat := []
  deriving DecidableEq, Repr, Inhabited

/-- What the spec leaves open in the headers of a UDP/IPv4 datagram that the device sends (R284, R293). -/
structure UdpOpen where
  destMac : BitVec 48
  service : BitVec 8
  ident : BitVec 16
  fragment : BitVec 16
  ttl : BitVec 8
  ipSum : BitVec 16
  udpSum : BitVec 16
  deriving DecidableEq, Repr, Inhabited

/-- Port types of METER (R302). -/
inductive PortType where
  | absent | three | two | dc
  deriving DecidableEq, Repr, Inhabited

/-- A METER section (R302 to R304, R311, "—" fields of R332). -/
structure MeterContent where
  latchN : Nat := 1
  appMode : Bool := false
  ports : List PortType := []
  dirs : Nat := 0
  f60 : Bool := false
  dec : Nat := 7
  inputMap : Tbl Word := []
  vratio : Tbl Word := []
  sensCfg : Tbl Word := []
  /-- SENS_S0, Z0, C1, C2, T0, VNOM of sensor c at 8c to 8c + 5. -/
  sens : Tbl Word := []
  deriving DecidableEq, Repr, Inhabited

/-- What a section defines, by the kind of its tile (R47). -/
inductive SectionBody where
  | link (c : LinkContent)
  | mod (c : ModContent)
  | ctrl (c : CtrlContent)
  | gorse (c : GorseContent)
  | meas (c : MeasContent)
  | meter (c : MeterContent)
  deriving DecidableEq, Repr, Inhabited

/-- A slot map within the ranges of R205: AGE 1 to 4, SHIFT 0 to 15. -/
def SlotMap.legal (m : SlotMap) : SlotMap := { m with age := clampN 1 4 m.age, shift := min m.shift 15 }

/-- A unit within the sizes of R187: n to 32, m to 16, p + q to 32. -/
def UnitCfg.legal (c : UnitCfg) : UnitCfg :=
  { c with n := min c.n 32, m := min c.m 16, p := min c.p 32, q := min c.q (32 - min c.p 32)
           slots := c.slots.map (fun e => (e.1, e.2.legal)) }

/-- A section's content within the ranges that the spec gives its fields; Birvin emits no other (R56, R187). -/
def SectionBody.legal (b : SectionBody) : SectionBody :=
  match b with
  | .ctrl c => .ctrl { even := c.even.legal, odd := c.odd.legal }
  | other => other

/-- A configuration plane of a tile: one section of an image as programmed (R48, R54, R56, R81). -/
structure Plane where
  buildId : Word := 0
  idle : Bool := true
  cg : Nat := 0
  coldDefault : Bool := false
  ifaceTag : Word := 0
  auxTag : Word := 0
  body : SectionBody := .link {}
  deriving DecidableEq, Repr, Inhabited

/-- The kinds of tile (R47). -/
inductive TileKind where
  | link | mod | ctrl | gorse | meas | meter
  deriving DecidableEq, Repr, Inhabited

/-- The kind of a tile number (R47). -/
def tileKind (t : Nat) : TileKind :=
  if t < 4 then .link else if t < 8 then .mod else if t < 16 then .ctrl
  else if t < 18 then .gorse else if t = 18 then .meas else .meter

def Plane.link (p : Plane) : LinkContent := match p.body with | .link c => c | _ => {}
def Plane.mod (p : Plane) : ModContent := match p.body with | .mod c => c | _ => {}
def Plane.ctrl (p : Plane) : CtrlContent := match p.body with | .ctrl c => c | _ => {}
def Plane.gorse (p : Plane) : GorseContent := match p.body with | .gorse c => c | _ => {}
def Plane.meas (p : Plane) : MeasContent := match p.body with | .meas c => c | _ => {}
def Plane.meter (p : Plane) : MeterContent := match p.body with | .meter c => c | _ => {}

end Sys2Proof.Machine
end

