-- ==== Sys2Proof/Machine/State.lean ====
section
/-! DEFINITION. The state of the block: plain data, every piece of state the spec names. Register words whose only
home is the register map stand in `regs` (stored or staged value, sticky flags, counters) and `force` (value in force
of an RWS register), by BAR0 address (service block from 0x40_0000). Where a register shows a mode, a phase or an
engine's state, that state is a field of its own below and the register is a view of it (Machine/RegRead.lean). -/

namespace Sys2Proof.Machine

open Sys2Proof

/-- Faults. No rule of the spec makes the block stop: trips, refused accesses and failed operations are effects on
State. No meaning raises the one constructor; it is kept so that the type says so. -/
inductive Fault where
  /-- Raised by nobody (safe: it is unreachable). -/
  | none
  deriving DecidableEq, Repr

/-- Refusals. -/
inductive Refusal where
  /-- A command whose meaning is not written yet, by its mnemonic (safe: nothing is claimed of it). -/
  | notModelled (mnemonic : String)
  deriving DecidableEq, Repr

/-- Device states (R34). -/
inductive DevState where
  | configWait | run | safeStop | tripped
  deriving DecidableEq, Repr, Inhabited

/-- Tile states (R66, R81). -/
inductive TileState where
  | activeOnly | loading | shadowRun | swapping | tileFault
  deriving DecidableEq, Repr, Inhabited

/-- Bring-up states of a link, in the order of their LT_STATE codes (R120). -/
inductive LtState where
  | disabled | clockStart | align | capExchange | check | rateSwitch | linked | failed | loopback
  deriving DecidableEq, Repr, Inhabited

/-- FAIL_CODE of a link (R130). -/
inductive FailCode where
  | none | noUpstream | eyeNarrow | capInvalid | ber | noAck | notDefined | inService | cancelled | clock
  deriving DecidableEq, Repr, Inhabited

/-- States of an operation slot (R351). -/
inductive OpState where
  | empty | queued | running | suspended | completed | cancelled | failed
  deriving DecidableEq, Repr, Inhabited

/-- Servo states (R272, R299). -/
inductive ServoState where
  | freeRun | acquiring | locked | holdover | refLost
  deriving DecidableEq, Repr, Inhabited

/-- Stage of a rate switch (R121). -/
inductive SwitchStage where
  | idle | request | countdown | stopped | restarted
  deriving DecidableEq, Repr, Inhabited

/-- What a register access returned to its interface (R335, R336). -/
inductive BusResult where
  | none
  | data (w : Word)
  | unsupported
  | bytes (l : List Byte)
  | poisoned
  deriving DecidableEq, Repr, Inhabited

/-- A message of the downstream protocol (R138 to R141). -/
inductive Msg where
  | edge (ptag sw : Nat) (start half : Bool) (coarse fine : List Nat)
  | boundary (ptag swMask offset ofine mid mfine : Nat)
  | sample (ptag offset : Nat)
  | supply (ptag : Nat) (bootstrap : Bool)
  | diag (op tag : Nat)
  deriving DecidableEq, Repr, Inhabited

/-- A GRID message of the cascade (R156). -/
structure GridMsg where
  cg : Nat := 0
  bcount : Nat := 0
  offset : Nat := 0
  ofine : Nat := 0
  period : Nat := 0
  deriving DecidableEq, Repr, Inhabited

/-- A clock group (R24 to R32, R37, R38, R46, R151, R156). -/
structure Group where
  /-- R46: boundary 0 has been taken. Reset: false. -/
  started : Bool := false
  /-- CG_BOUNDARYn (R46), 64 bits. Reset: 0. -/
  boundary : Nat := 0
  /-- CG_COMMITn (R32). Reset: 0. -/
  commitAt : Nat := 0
  /-- A commit request waits for a cutoff (R27). Reset: false. -/
  req : Bool := false
  /-- A commit has been taken in at the last cutoff and takes effect at the coming boundary (R25, R27). -/
  taken : Bool := false
  /-- The staged writes taken in: register keys and values (R27, R28). -/
  takenRegs : List (Nat × Word) := []
  /-- Channel-group enable and update bits taken in: mask and values (R163, R171). -/
  takenEn : Nat × Nat := (0, 0)
  takenUpd : Nat × Nat := (0, 0)
  /-- The cutoff of the coming boundary has passed (R29). Reset: false. -/
  cut : Bool := false
  /-- Compares taken in at the mid cutoff, for the mid-period instant (R174). -/
  midRegs : List (Nat × Word) := []
  /-- The mid cutoff of this period has passed (R26). -/
  midCut : Bool := false
  /-- The mid cutoff has passed and its mid-period instant has not come (R26, R29). -/
  midWait : Bool := false
  /-- The mid-period instant of the period that runs and of the coming one, in taps after the boundary; 0 for none (R174, R176). -/
  midAt : Nat := 0
  midNext : Nat := 0
  /-- PL_HOLDING (R172). -/
  plHold : Bool := false
  /-- MIRROR_SEQn (R38). Reset: 0. -/
  mirrorSeq : Nat := 0
  /-- L_g held in the mirror copy, in units of 1/64,000,000,000 ps (R151). Reset: 0. -/
  lgU : Int := 0
  /-- CELL_RPT0 to CELL_RPT2 of the group's links in the mirror copy (R145), by link. -/
  mirRpt : Tbl (Word × Word × Word) := []
  /-- Tick at which the group's logic acted on the latest boundary, and that boundary's true time in taps of 25 ps (R24). -/
  bAt : Nat := 0
  bTap : Nat := 0
  /-- Period of the period running, 400 ps units (R161). -/
  period : Nat := 0
  /-- A follower's GRID period for the next boundary (R156). -/
  gridPeriod : Option Nat := none
  /-- Where GRID places a follower's next boundary, true time in taps (R156). -/
  gridAt : Option Nat := none
  /-- The group can never start: WZ_GRID_ERR (R156). -/
  gridBad : Bool := false
  /-- Addresses of compares written since the cutoff of the last boundary commit (R172). -/
  written : List Nat := []
  /-- A bank switch of some unit of the group is held (R201): COMMIT_PENDING stays set. -/
  coefHeld : Bool := false
  deriving DecidableEq, Repr, Inhabited

/-- A tile (R47, R66, R67, R72). -/
structure Tile where
  /-- TILE_STATE (R66). Reset: ACTIVE-ONLY. -/
  st : TileState := .activeOnly
  active : Option Plane := none
  shadow : Option Plane := none
  /-- SHADOW_PREV (R66, R81). -/
  prev : Bool := false
  /-- State to return to if the load is abandoned (R66). -/
  before : TileState := .activeOnly
  /-- Programming and readback passed; SHADOW-RUN from the next boundary (R66). -/
  programmed : Bool := false
  /-- Cold handover of the shadow (R64, R72). -/
  cold : Bool := false
  /-- The shadow plane came from a SWAP_SET image: the mask of its tiles (R74). -/
  swapSet : Nat := 0
  /-- TILE-FAULT was entered from SWAPPING (R66). -/
  faultInSwap : Bool := false
  /-- The shadow plane was cleared by an upset that the next TILE_SWAP must report (hard cases of ch. 2). -/
  shadowUpset : Bool := false
  /-- SR_COUNTn: run of matches and periods compared, SR_MISMATCHn (R67). -/
  srRun : Nat := 0
  srCount : Nat := 0
  srMis : Nat := 0
  /-- Matrix-unit state of the shadow plane, for its units v = 0, 1: x̂ at 64v + i, u at 1024 + 64v + j, latched slots
  at 2048 + 64v + s, the next x̂ at 4096 + 64v + i and u at 5120 + 64v + j, 1 at 8192 + v once inputs are latched
  (R67, R72, R204). -/
  shVals : Tbl Int := []
  deriving DecidableEq, Repr, Inhabited

/-- A TILE_LOAD or boot load under way (R59, R62, R65, R66). -/
structure Load where
  /-- Slot of the operation; none for a boot. -/
  slot : Option Nat := none
  /-- DRAM offset of the image. -/
  offset : Nat := 0
  full : Bool := false
  signed : Bool := false
  verified : Bool := false
  buildId : Word := 0
  cold : Bool := false
  /-- Tiles still to program, ascending (hard cases of ch. 2). -/
  todo : List Nat := []
  /-- Tiles already programmed by this load. -/
  done : List Nat := []
  /-- Section table entries by tile: offset, length, CRC, clock group, flags. -/
  entries : Tbl (List Nat) := []
  /-- The load activates the image in CONFIG-WAIT when it ends (R62). -/
  activates : Bool := false
  /-- Identity block, allotment and watchdog block of the image, as bytes (R52, R53, R401). -/
  blocks : List Byte := []
  swapSet : Nat := 0
  deriving DecidableEq, Repr, Inhabited

/-- A TILE_SWAP under way (R67, R68, R70). -/
structure Swap where
  slot : Nat := 0
  mask : Nat := 0
  accept : Bool := false
  n : Nat := 1
  maxPeriods : Nat := 1
  tol : Nat := 0
  /-- Counting has started (R67). -/
  started : Bool := false
  /-- Periods counted, and those of them in which a named tile mismatched (R356). -/
  count : Nat := 0
  bad : Nat := 0
  /-- The handover condition is met: the tiles enter SWAPPING at the next cutoff (R68). -/
  met : Bool := false
  /-- The tiles have entered SWAPPING (R70). -/
  swapping : Bool := false
  deriving DecidableEq, Repr, Inhabited

/-- DAMASK state (R47 to R81). -/
structure Damask where
  tiles : Tbl Tile := []
  load : Option Load := none
  swap : Option Swap := none
  /-- IMAGE_VALID (R81). -/
  imageValid : Bool := false
  /-- BOOT_STATUS fields (R81). -/
  bootCode : Nat := 0
  bootMode : Nat := 0
  bootSlot : Nat := 0
  fallback : Bool := false
  sigUnchecked : Bool := false
  signedActive : Bool := false
  /-- A QSPI read is awaited (R61). -/
  qspiBusy : Bool := false
  /-- OTP key hash, once programmed (R58, R80): the eight words. -/
  otpKey : Option (List Word) := none
  keyWr : Tbl Word := []
  keyBusy : Bool := false
  keyFail : Bool := false
  /-- Allotment in force, MiB (R53). -/
  stagingMib : Nat := 24
  recorderMib : Nat := 96
  queueMib : Nat := 8
  /-- Identity fields with no register of their own (R52): cascade position and role. -/
  wzPosition : Nat := 0
  wzRole : Nat := 0
  deriving DecidableEq, Repr, Inhabited

/-- A run of one spread setting: the tick at which it began, and dev there in taps (R88, R90, R94). -/
structure SscSeg where
  start : Nat := 0
  cfg : Word := 0
  base : Rat := 0
  deriving DecidableEq, Repr, Inhabited

/-- Clock root (R82 to R100). -/
structure Clock where
  /-- Frequency at which REFCLK was detected, Hz (R83). -/
  refHz : Nat := 0
  /-- The spread setting that waits for a profile origin (R88). -/
  sscPending : Option Word := none
  /-- Tick of the latest write to SSC_APPLY (R88). -/
  sscAt : Nat := 0
  /-- A lock of the root or M-branch PLL has been acquired since reset (R100 LOCK_EVENT_CNT). -/
  rootOnce : Bool := false
  mOnce : Bool := false
  /-- The dividers have been released since the reset, or since the latest switch of the root reference (R94 to R96). -/
  released : Bool := false
  /-- The latest runs of spread settings since the divider release, newest first, and the profile origins of the newest (R86, R88,
  R90). -/
  segs : List SscSeg := []
  origins : Nat := 0
  /-- Edge generators whose fine part is forced to 0 (R99). -/
  fineOff : List Nat := []
  /-- REFCLK is absent (R99). -/
  refGone : Bool := false
  /-- Divider release instant, in ticks (R94). -/
  releaseAt : Nat := 0
  deriving DecidableEq, Repr, Inhabited

/-- The cell end of a Twill link (R123, R137 to R146, R153). -/
structure CellEnd where
  /-- Switch levels driven (bit s). -/
  levels : Nat := 0
  /-- Every switch held off (R153). -/
  blocked : Bool := true
  /-- Superframes since a block with K28.0, valid header and BLK = 0 (R153). -/
  cleanRun : Nat := 0
  haveBoundary : Bool := false
  /-- Message sets held (R153): the messages received, latest first. -/
  held : List Msg := []
  /-- Edges in use per switch: ptag, start, coarse, fine (R140). -/
  prevEdges : List Msg := []
  /-- FAULT byte and DSAT bits latched (R143, R145). -/
  faults : Nat := 0
  dsat : Nat := 0
  /-- CMD_MISS and LATE_HALF for the next report (R143). -/
  cmdMiss : Bool := false
  lateHalf : Bool := false
  /-- The previous period was incomplete (R153, hard cases). -/
  missed : Bool := false
  /-- Supply mode in force: bootstrap (R143). -/
  bootstrap : Bool := false
  /-- DCK was lost and has not returned: CLOCK_LOSS sets on its return (R153). -/
  clockLost : Bool := false
  /-- Tag of the running period, once its mid-period instant has passed (R140, hard cases). -/
  midTag : Option Nat := none
  /-- SAMPLE instant for the period, 400 ps units (R141). -/
  sampleAt : Option Nat := none
  /-- K28.3 symbols still to send of a fault run (R137). -/
  k3Run : Nat := 0
  /-- DIAG answers waiting to go upstream (R144): OP, TAG, STATUS, RESULT. -/
  diagOut : List (Nat × Nat × Nat × Nat) := []
  /-- HALF messages in use this period, its mid-period instant in taps, and its tag (R140, R153). -/
  halfEdges : List Msg := []
  midAt : Option Nat := none
  curTag : Option Nat := none
  /-- Commands act: a boundary has come since the block ended (R153). -/
  started : Bool := false
  /-- A far-end loop is returned (R125). -/
  farLoop : Bool := false
  /-- SUPPLY_OK of the next report (R143). -/
  supplyOk : Bool := true
  /-- TAG of the last DIAG answered: a second copy of it is not used (R142). -/
  diagSeen : Option Nat := none
  deriving DecidableEq, Repr, Inhabited

/-- A message on its way to a cell end; for BOUNDARY, the true time in taps of the boundary that it places (R139, R142). -/
structure TxMsg where
  msg : Msg
  atTap : Nat := 0
  deriving DecidableEq, Repr, Inhabited

/-- A Twill link or Wozin port (R101 to R159). -/
structure Link where
  st : LtState := .disabled
  rate : Nat := 0
  upLock : Bool := false
  rateLimited : Bool := false
  fail : FailCode := .none
  slipPos : Nat := 0
  markerSeen : Bool := false
  eyeWidth : Nat := 0
  pick : Nat := 0
  ebufFill : Nat := 0
  /-- The feed-forward dev(t) − dev(t − T), in taps, when the phase was acquired and when the buffer was centred (R107, R108). -/
  pickFf : Rat := 0
  lockFf : Rat := 0
  partnerCap : Word := 0
  partnerErr : Nat := 0
  /-- DCK runs (R105). -/
  dck : Bool := false
  /-- DDT delay in force, 25 ps steps (R104). -/
  skew : Nat := 0
  /-- Downstream bit slips pending and in force (R112). -/
  downSlip : Nat := 0
  downSlipPend : Nat := 0
  /-- ALIGN_MODE in force (R113). -/
  manual : Bool := false
  /-- Downstream training SEQ or superframe sequence (R115, R133). -/
  txSeq : Nat := 0
  /-- Running disparity of the transmitter before the next symbol, and of the receiver, none until a superframe has come since marker
  lock (R109). -/
  txRd : Bool := false
  rxRd : Option Bool := none
  /-- The superframe that is sent, the running disparity before it, the tick at which it began, and the position of its symbol 0
  in taps on the clock that carries it (R103, R114, R131, R150). -/
  frame : List Sym := []
  frameRd : Bool := false
  frameAt : Nat := 0
  launchM : Int := 0
  /-- Registers of the PRBS-15 generator and checker, and the bytes that the checker holds, up to 2 (R117). -/
  prbsTx : Nat := 32767
  prbsRx : Nat := 0
  prbsSeen : Nat := 0
  /-- Training superframes sent since the state, or the stage of a rate switch, was entered (R120 to R122, R125). -/
  frames : Nat := 0
  /-- COUNTDOWN of the latest superframe of a countdown (R121). -/
  countdown : Option Nat := none
  /-- A superframe with CHECK_ON has been sent in this CHECK (R120). -/
  ownCheck : Bool := false
  /-- Superframes in a row without an error since marker lock in a fallback (R122). -/
  fbClean : Nat := 0
  /-- A superframe without a PRBS error has come since the loop was entered (R125). -/
  loopSync : Bool := false
  /-- An inbound port returns a far-end loop, and the superframe that it received last (R125, R129). -/
  farLoop : Bool := false
  lastRx : List Sym := []
  /-- LINKED was reached outside RUN, and RUN has not been entered since (R128). -/
  outside : Bool := false
  /-- Superframes begun since the block run began (R136). -/
  runFrames : Nat := 0
  /-- Run of identical acceptable capability blocks, and the word (R120). -/
  capRun : Nat := 0
  capLast : Word := 0
  /-- Errors of the current check at this end; the partner's as reported (R120). -/
  checkErr : Nat := 0
  /-- CHECK_ON seen in both directions, and the bits checked since in this window (R120). -/
  checkOn : Bool := false
  checkBits : Nat := 0
  /-- Blocks still to wait for after the window (R120). -/
  checkTail : Option Nat := none
  tries : Nat := 0
  /-- Last rate that passed CHECK (R122). -/
  goodRate : Option Nat := none
  finalRate : Nat := 0
  target : Nat := 0
  stage : SwitchStage := .idle
  /-- Switching back after exhausted retries (R122); then confirming. -/
  fallback : Bool := false
  /-- Consecutive marker errors (R111). -/
  markerRun : Nat := 0
  /-- Lock has been held before: the next lock is a regain (R111). -/
  everLocked : Bool := false
  /-- A rate was trained (R124). -/
  trained : Bool := false
  /-- Loop held (R124). -/
  loop : Nat := 0
  /-- A LINK_TRAIN names the link and waits for it (R120, R356). -/
  named : Bool := false
  /-- The clockless latch or a trip stops or stopped DCK while LINKED (R127, R136). -/
  txBlock : Bool := false
  stopDue : Bool := false
  /-- BLK = 1 in downstream headers (R132, R164). -/
  blk : Bool := true
  /-- BLOCK or string block latched on this link (R211, R214). -/
  gorseBlock : Bool := false
  /-- LAT_STATUS (R159). -/
  latValid : Bool := false
  unstableNow : Bool := false
  rangeNow : Bool := false
  cellBlocked : Bool := false
  cellFault : Bool := false
  /-- Symbol 1 of the last upstream superframe was K28.0, and its header was valid (R223). -/
  lastIdle : Bool := false
  lastFaultFlag : Bool := false
  /-- Applied one-way latency d_n in units of 1/64,000,000,000 ps (R148). -/
  dU : Int := 0
  /-- ASYM_TRIM in force and its pending difference (R159). -/
  trim : Int := 0
  trimPend : Option Int := none
  /-- Running sum of T_n samples in eighths of a ps, of the true times of TURNAROUND beside them in taps, and their count (R91,
  R147). -/
  tSum : Nat := 0
  tauSum : Rat := 0
  tCnt : Nat := 0
  rttPs : Nat := 0
  turnPs : Nat := 0
  launchOfs : Nat := 0
  /-- Last estimates, newest first, units of dU (R148). -/
  ests : List Int := []
  unstableRun : Nat := 0
  /-- Tick of the last latency update (R148). -/
  latAt : Nat := 0
  echoMiss : Nat := 0
  /-- Upstream sequence reference (R133). -/
  rxSeq : Option Nat := none
  /-- PEER_SEQ: SEQ of the last header received with a valid CRC (R132). -/
  peerSeq : Nat := 0
  /-- CELL_RPT words (R145). -/
  rpt0 : Word := 0
  rpt1 : Word := 0
  rpt2 : Word := 0
  /-- Reports received, newest first: PTAG, VDC, TEMP (R190). -/
  reports : List (Nat × Nat × Int) := []
  diagRpt : Word := 0
  /-- A DIAG answer is awaited by OFFSTATE_DIAG (R231). -/
  diagWait : Bool := false
  /-- Wozin neighbour: POSITION, STATE, EN_LOW, TRIP_LATCHED and the whole POSITION byte (R155), and the tick of the last such
  header with EN_LOW = 1 (R158). -/
  wzPeer : Word := 0
  wzPos : Nat := 0
  wzEnLowAt : Option Nat := none
  /-- K28.6 was received on this port and latched (R157). -/
  wzTripSeen : Bool := false
  /-- End of a Wozin block run, in symbols from the beginning of the superframe that is sent (R157). -/
  wzRun : Nat := 0
  /-- Messages dispatched and not yet delivered (R142). -/
  txq : List TxMsg := []
  /-- GRID messages to relay, with the true time in taps of the boundary that each places (R156). -/
  gridq : List (GridMsg × Nat) := []
  /-- Groups whose GRID is still to send in this rotation (R156). -/
  gridTodo : List Nat := []
  /-- The GRID of the superframe that started last (R156). -/
  gridOut : Option GridMsg := none
  /-- The cell end behind the link. -/
  cell : CellEnd := {}
  deriving DecidableEq, Repr, Inhabited

/-- One scheduled edge of a gate output: true time after the boundary in 25 ps units, side (true: GH), level, and the count of
EDGE_CLK cycles with the taps of fine delay at which its generator places it (R90). -/
structure Edge where
  time : Nat
  high : Bool
  level : Bool
  coarse : Nat := 0
  fine : Nat := 0
  deriving DecidableEq, Repr, Inhabited

/-- On-intervals of one side within a period, in taps of 25 ps after its boundary: start and end, ascending. -/
abbrev Ivs := List (Nat × Nat)

/-- What a pair or leg carries across a boundary (R169, R178, R180, R181). Times are taps relative to it. -/
structure Carry where
  /-- Levels of the high and low side at the end of the period. -/
  hi : Bool := false
  lo : Bool := false
  /-- Latest turn-off of each side. -/
  offH : Option Int := none
  offL : Option Int := none
  /-- Both sides are commanded on (R178). -/
  both : Bool := false
  /-- A side that is commanded on and waits for its turn-on: the instant of it (R169, R178). -/
  waitH : Option Int := none
  waitL : Option Int := none
  /-- Time since the last low-side on-interval of REFRESH_MIN (R180). -/
  tSince : Nat := 0
  /-- Length so far of the high-side run and of the low-side interval that cross the boundary (R180, R181). -/
  hiRun : Nat := 0
  loRun : Nat := 0
  /-- Rest of an inserted refresh: low side on from, low side off at, high side released at. -/
  tail : Option (Int × Int × Int) := none
  /-- The channel group was enabled, and the supply mode was bootstrap (R180). -/
  on : Bool := false
  boot : Bool := false
  deriving DecidableEq, Repr, Inhabited

/-- The computed waveform of a pair, leg or single switch over one period (R161 to R181). -/
structure Wave where
  /-- Length of the period in taps. -/
  n : Nat := 0
  /-- Commanded on-intervals, before dead time and the interlock. -/
  comH : Ivs := []
  comL : Ivs := []
  /-- Issued on-intervals. -/
  aH : Ivs := []
  aL : Ivs := []
  /-- Overlaps (R178), inserted refreshes (true: at a BOOT_HOLD cut; R180, R181) and dropped on-intervals (true: high
  side) by their starts. -/
  ov : Ivs := []
  ins : List (Nat × Bool) := []
  drops : List (Bool × Nat) := []
  opening : Carry := {}
  closing : Carry := {}
  deriving DecidableEq, Repr, Inhabited

/-- A local pair at run time (R164 to R182, R209, R221). -/
structure Pair where
  /-- Commanded levels, which the safe state overrides. -/
  cmdH : Bool := false
  cmdL : Bool := false
  /-- Edges still to come of the period that runs, and those of the one computed (R167). -/
  sched : List Edge := []
  next : List Edge := []
  nextReady : Bool := false
  /-- Coarse count and fine taps of the latest edge that the generators of GHp and GLp placed (R90, R99). -/
  outH : Nat × Nat := (0, 0)
  outL : Nat × Nat := (0, 0)
  /-- Waveforms of the period that runs and of the one computed. -/
  wave : Wave := {}
  nextWave : Wave := {}
  /-- The last turn-off of the running or coming period: side (true: GH) and time after the boundary in 25 ps units,
  kept while both sides are off (R227). -/
  off : Option (Bool × Int) := none
  /-- Blanking runs (R221). -/
  blanking : Bool := false
  /-- A crossing pending, with its stamp: seconds, nanoseconds (R221). -/
  pendingX : Option (Nat × Nat) := none
  /-- The pin is beyond its threshold (R209). -/
  dsatPin : Bool := false
  /-- Held low by a latched BLOCK (R214). -/
  gorseBlock : Bool := false
  deriving DecidableEq, Repr, Inhabited

/-- A cell's virtual channels at run time (R166, R178 to R181). -/
structure VCell where
  /-- Waveforms of the period that runs and of the one computed: leg j at j, single switch s at 16 + s. -/
  waves : Tbl Wave := []
  nextWaves : Tbl Wave := []
  /-- Levels of the switches at the end of the last computed period (R140). -/
  levels : Nat := 0
  /-- Supply mode used in the last computed period: bootstrap (R179). -/
  boot : Bool := false
  deriving DecidableEq, Repr, Inhabited

/-- Modulation state (R160 to R184). -/
structure Mod where
  /-- CHG_EN staged and in force (R163). -/
  enStaged : Nat := 0
  en : Nat := 0
  enDirty : Nat := 0
  /-- CHG_UPD staged and in force. -/
  updStaged : Nat := 0
  upd : Nat := 0
  updDirty : Nat := 0
  pairs : Tbl Pair := []
  cells : Tbl VCell := []
  /-- The clockless safe-state latch holds, and the sources that set it (R183, R224). -/
  asyncSafe : Bool := false
  asyncBy : List Nat := []
  /-- The latch was set with EDGE_CLK gone: it forces DCK and DDT low (R182, R183). -/
  edgeLow : Bool := false
  /-- MOD tiles whose outputs a tile fault holds low (R47, R182). -/
  tileSafe : Nat := 0
  deriving DecidableEq, Repr, Inhabited

/-- A matrix unit (R185 to R205). -/
structure MUnit where
  /-- x̂[k], u[k] applied, latched slots (R186, R189, R191). -/
  x : Tbl Int := []
  u : Tbl Int := []
  uPrev : Tbl Int := []
  ins : Tbl Int := []
  /-- Computing since boundary k + 100 ns (R195). -/
  busy : Bool := false
  /-- The completed x̂[k+1], u[k+1] and how many elements saturated and outputs met a limit (R194, R192). -/
  ready : Option (Tbl Int × Tbl Int × Nat × Nat) := none
  /-- Inputs have been latched since the activation. -/
  latched : Bool := false
  /-- What the coming boundary applies, as settled at its cutoff: x̂, u and the flags late, saturated, limited, preset
  (R191, R195, R196, R202). -/
  nx : Tbl Int := []
  nu : Tbl Int := []
  nFlags : Nat := 0
  lateRun : Nat := 0
  bank : Bool := false
  copying : Bool := false
  /-- The held bank switch of R201. -/
  deferred : Bool := false
  coefSeq : Nat := 0
  budget : Int := 0
  slack : Int := 0
  lateTotal : Nat := 0
  satTotal : Nat := 0
  staleTotal : Nat := 0
  limitTotal : Nat := 0
  /-- Flags of M_STATUS for the period (R205). -/
  lateNow : Bool := false
  satNow : Bool := false
  limitNow : Bool := false
  staleNow : Bool := false
  presetNow : Bool := false
  /-- Late, saturation, stale and limit totals, COEF_SEQ, LATE_RUN, BANK and HOLD of the mirror copy (R37, R205). -/
  mir : List Nat := []
  deriving DecidableEq, Repr, Inhabited

/-- A ramp of a safe-stop step (R403): slots, first boundary tick, length in ticks, and slots that latched zero. -/
structure Ramp where
  slots : List (Nat × Nat) := []
  b0 : Nat := 0
  len : Nat := 0
  zeroed : List (Nat × Nat) := []
  /-- It is the step of the sequence that acts now. -/
  live : Bool := true
  deriving DecidableEq, Repr, Inhabited

/-- Gorse (R206 to R237). -/
structure Gorse where
  /-- FAULT_LATCH and SRC_LIVE as 256-bit numbers (R237). -/
  latch : Nat := 0
  live : Nat := 0
  /-- Voting channels (R212, R216). -/
  voteA : Bool := false
  voteB : Bool := false
  /-- Latest background self-test of each channel passed (R218). -/
  testA : Bool := true
  testB : Bool := true
  /-- The channel waits for its self-test after a reload to vote (R218). -/
  joinA : Bool := false
  joinB : Bool := false
  /-- The last mismatch: action vectors of A and B (R215, R216). -/
  mismatch : Option (Nat × Nat) := none
  /-- C sources that each channel has taken as asserted after its filter (R208). -/
  inA : Nat := 0
  inB : Nat := 0
  /-- Single-channel timer: ticks counted before, and the tick since which it runs (R217). -/
  scAcc : Nat := 0
  scFrom : Option Nat := none
  /-- Trip records: TRIP_ID of the latest event, event open, SEQ of the next record, head, read mask, used mask. -/
  tripId : Nat := 0
  eventOpen : Bool := false
  eventTick : Nat := 0
  /-- What held before the latest trip, for records of the same tick (R226, R227, R236): tick, state, pairs in dead
  time, GH on, GL on. -/
  snapTick : Option Nat := none
  snapState : DevState := .configWait
  snapDt : Nat := 0
  snapH : Nat := 0
  snapL : Nat := 0
  /-- Pairs whose blanking ran, with the stamp of a crossing pending. -/
  snapBlank : Tbl (Option (Nat × Nat)) := []
  recSeq : Nat := 0
  recHead : Nat := 0
  recRead : Nat := 0
  recUsed : Nat := 0
  /-- Record words at 8r + w (R236). -/
  recs : Tbl Word := []
  /-- Tick and event of each record, for SIMULTANEOUS. -/
  recTick : Tbl Nat := []
  /-- EN after its filter, and the tick of its latest fall (R222). -/
  en : Bool := false
  enFallAt : Nat := 0
  enRiseAt : Option Nat := none
  /-- Safe-stop sequence: running, steps left, step number, tick it began, SS_MAX in ms (R220, R402). -/
  ssRunning : Bool := false
  ssSteps : List SsStep := []
  ssStep : Nat := 0
  ssAt : Nat := 0
  ssMaxMs : Nat := 0
  /-- A WAIT step runs until its end (R402). -/
  ssWaiting : Bool := false
  /-- The cutoff of the boundary at which the first of the remaining steps acts has passed; that boundary has come. -/
  ssArmed : Bool := false
  ssReady : Bool := false
  /-- Ramps in force, until the next entry to RUN (R403). -/
  ramps : List Ramp := []
  /-- BLOCK actions latched: string blocks and masks (R211, R214). -/
  blockActive : Bool := false
  /-- BRK level (R229); settings waiting for BRK to go low. -/
  brk : Bool := false
  brkCfgPend : Option Word := none
  brkThrPend : Option Word := none
  /-- The lock of RWL registers at the first entry to RUN (R16, R237). -/
  everRun : Bool := false
  deriving DecidableEq, Repr, Inhabited

/-- A comparator (R254 to R260). -/
structure Cmp where
  above : Bool := false
  below : Bool := false
  /-- Enabled and settled: evaluated under R255. -/
  settled : Bool := false
  /-- Last crossing was of the high (true) or low threshold, for DETAIL (R236). -/
  lastHigh : Bool := false
  deriving DecidableEq, Repr, Inhabited

/-- Converters (R238 to R264). -/
structure Conv where
  /-- Raw code and flags of the latest sample, effective value Q16.8 (R240, R247). -/
  raw : Tbl Int := []
  eff : Tbl Int := []
  fac : Tbl Int := []
  clip : Nat := 0
  /-- Flags of each converter's latest sample, in the order of M_CONV_FLAGS (R240); REF_UNSETTLED and UNCAL before the first. -/
  flags : Tbl Nat := []
  /-- Sum, count and OR of flags over the running period, per group and converter: key 16g + n (R239). -/
  accSum : Tbl Int := []
  accCnt : Tbl Nat := []
  accFlags : Tbl Nat := []
  /-- Averages latched at the last boundary, rounded to 16 bits, and Q16.8 sums with counts: key 16g + n. -/
  avgSum : Tbl Int := []
  avgCnt : Tbl Nat := []
  /-- HOST-mode captures awaited (R242). -/
  spotWait : Nat := 0
  refSettled : Bool := false
  calValid : Nat := 0
  ucalDefault : Bool := false
  ucalBusy : Bool := false
  /-- Converters that a SELF_CAL has disconnected, and those it refused (R248). -/
  calBusy : Nat := 0
  calRefused : Nat := 0
  /-- A SELF_CAL waits for REF_SETTLED (R250). -/
  calWait : Bool := false
  calMask : Nat := 0
  /-- Threshold readback under way: converter (R263). -/
  rbConv : Option Nat := none
  /-- The comparator whose threshold is read back. -/
  rbCmp : Nat := 0
  cmps : Tbl Cmp := []
  /-- A CMP_SELFTEST under way: comparators tested and refused (R232). -/
  stTested : Nat := 0
  stRefused : Nat := 0
  /-- The bytes of the two user calibration slots in MRAM (R253). -/
  ucalSlots : List (List Byte) := []
  deriving DecidableEq, Repr, Inhabited

/-- The time engine (R265 to R279). -/
structure TimeEng where
  sec : Nat := 0
  ns : Nat := 0
  frac : Nat := 0
  ext : Nat := 0
  servo : ServoState := .freeRun
  /-- Consecutive measurements within LOCK_NS; beyond 1 µs in LOCKED (R272). -/
  lockRun : Nat := 0
  badRun : Nat := 0
  /-- Integrator of the PI law in 2^-16 ppb (R273). -/
  acc : Int := 0
  /-- ADDEND (with 16 extension bits) and temperature at the last 64 measurements in LOCKED, newest first (R275, R374). -/
  hist : List (Nat × Int) := []
  /-- Frozen ADDEND and e_entry in HOLDOVER (R374). -/
  frozen : Nat := 0
  eEntry : Int := 0
  holdoverS : Nat := 0
  /-- Seconds unlocked, for STAT (R288). -/
  unlockedAt : Nat := 0
  ppsOut : Bool := false
  /-- The counter's last advance passed the rollover, moved by PPS_OUT_TRIM; tick at which PPS_OUT rose (R278). -/
  ppsPass : Bool := false
  ppsAt : Nat := 0
  /-- Tick of the latest PPS_IN edge and of the latest valid measurement; logSyncInterval of the latter (R272, R279). -/
  ppsInAt : Nat := 0
  measAt : Nat := 0
  syncLog : Int := 0
  /-- Counter time in ns up to which reporting instants carry STAT[13] because of a step (hard cases of chapter 10). -/
  stepUntil : Nat := 0
  /-- Vectors whose stamp is held, that is not rearmed (R277, R343, R344). -/
  stampHeld : Nat := 0
  deriving DecidableEq, Repr, Inhabited

/-- A frame sent, for the outside (R281, R289, R293). -/
structure SentFrame where
  port : Nat
  queue : Nat
  bytes : List Byte
  deriving DecidableEq, Repr, Inhabited

/-- Ethernet and launch queues (R280 to R283, R300). -/
structure Eth where
  /-- Link up per port (R300). -/
  up0 : Bool := false
  up1 : Bool := false
  /-- Receive queue contents per port, newest last: frame and receive stamp (R271). -/
  rx0 : List (List Byte × Nat × Nat) := []
  rx1 : List (List Byte × Nat × Nat) := []
  /-- The MAC address in force per port (R300). -/
  mac0 : Nat := 0
  mac1 : Nat := 0
  /-- Counter time in ns at which the present head of a queue came there (R281). -/
  headAt : Tbl Nat := []
  /-- Frames that the device itself has queued on LQ6 and LQ7: port, launch time or none (IMMEDIATE), bytes. -/
  lq6 : List (Nat × Option (Nat × Nat) × List Byte) := []
  lq7 : List (Nat × Option (Nat × Nat) × List Byte) := []
  /-- The frame sent last (output of the block). -/
  sent : Option SentFrame := none
  deriving DecidableEq, Repr, Inhabited

/-- A travelling-wave front recorded in an event (R291, R293). -/
structure Front where
  event : Nat := 0
  comp : Nat := 0
  negative : Bool := false
  index : Nat := 0
  sec : Nat := 0
  ns : Nat := 0
  frac : Nat := 0
  uncert : Nat := 0
  peak : Int := 0
  rise : Nat := 0
  servo : Nat := 0
  untrusted : Bool := false
  /-- Station and line of a remote report (R294); station 0 for a local front. -/
  station : Nat := 0
  line : Nat := 0
  deriving DecidableEq, Repr, Inhabited

/-- One sample of the three travelling-wave channels, Q16.8, with its tick and counter time in 2^-16 ns (R291). -/
structure TwSample where
  tick : Nat := 0
  fine : Nat := 0
  a : Int := 0
  b : Int := 0
  c : Int := 0
  deriving DecidableEq, Repr, Inhabited

/-- Grid measurement: PMU, travelling waves, recorder (R284 to R298, R301). -/
structure Meas where
  dataRunning : Bool := false
  cfgNotice : Bool := false
  cfgCnt : Nat := 0
  /-- A change of CFG-2 waits for the next UTC second (R290). -/
  cfgPending : Bool := false
  /-- PMU_CFG and the build of the MEAS tile that stay in effect until then. -/
  cfgOld : Word := 0
  buildOld : Word := 0
  twOpen : Bool := false
  twSeq : Nat := 0
  twFronts : Nat := 0
  /-- Tick of the first front of the open event; ticks up to which each component is held off (R291). -/
  twStart : Nat := 0
  twHold : Tbl Nat := []
  /-- The latest 256 samples of the travelling-wave channels, newest first (R291). -/
  twBuf : List TwSample := []
  /-- Local and remote fronts, oldest first, 256 at most (R294). -/
  fronts : List Front := []
  /-- Recorder: frozen segments, segment written, trigger seen and post-trigger filling (R297). -/
  recFrozen : Nat := 0
  recSeg : Nat := 0
  recFilling : Bool := false
  /-- Instants stored in the running segment. -/
  recCount : Nat := 0
  /-- Decimation: samples averaged so far and their sums per channel. -/
  decCnt : Nat := 0
  decSum : Tbl Int := []
  /-- Segment information: trigger time, source mask, trigger instant (R297), per segment. -/
  trigSec : Tbl Nat := []
  trigNs : Tbl Nat := []
  trigSrc : Tbl Nat := []
  trigIdx : Tbl Nat := []
  /-- OR of sample flags and time of the first instant of the index block being filled (R296). -/
  idxFlags : Nat := 0
  /-- Index entries by segment, oldest first: seconds, nanoseconds, flags (R296). -/
  idx : Tbl (List (Nat × Nat × Nat)) := []
  /-- Instants stored since the trigger of the running segment (R297). -/
  recPost : Nat := 0
  /-- Of each frozen segment: ring position of its oldest instant, instants stored in it, and its REC_CFG (R298). -/
  segPos : Tbl Nat := []
  segCount : Tbl Nat := []
  segCfg : Tbl Nat := []
  /-- Tick of the latest sample with a flag on a channel of the PMU (R240, R288). -/
  flagAt : Option Nat := none
  deriving DecidableEq, Repr, Inhabited

/-- A meter record (R318). -/
structure MeterRec where
  kind : Nat := 0
  seq : Nat := 0
  latchSeq : Nat := 0
  flags : Nat := 0
  sec : Nat := 0
  ns : Nat := 0
  clearCnt : Nat := 0
  buildId : Word := 0
  /-- The 96-bit accumulators and the wrap counters by quantity number. -/
  acc : Tbl Nat := []
  wrap : Tbl Nat := []
  /-- The CRC, which the device writes last; none where it has not been written. -/
  crc : Option Nat := none
  deriving DecidableEq, Repr, Inhabited

/-- METER (R302 to R322). -/
structure Meter where
  /-- 96-bit accumulators (integer 64, fraction 32) and wrap counters by quantity (R312). -/
  acc : Tbl Nat := []
  wrap : Tbl Nat := []
  /-- The register values of the latest latch (R313). -/
  energy : Tbl Nat := []
  energyWrap : Tbl Nat := []
  metering : Bool := false
  noLine : Bool := false
  pfwLow : Bool := false
  restored : Bool := false
  latchSeq : Nat := 0
  latchSec : Nat := 0
  latchNs : Nat := 0
  latchQual : Nat := 0
  /-- Quality and line cycles of the running interval (R304, R313). -/
  runQual : Nat := 0
  cycles : Nat := 0
  lineFreq : Nat := 0
  clearCnt : Nat := 0
  /-- Records in MRAM: slot = REC_SEQ mod 32; REC_SEQ of the newest; one may be in progress (R318). -/
  recs : Tbl MeterRec := []
  recSeq : Nat := 0
  /-- REC_SEQ_LO and REC_SEQ_HI: REC_SEQ of the newest record since reset (R332). Reset: 0. -/
  recShown : Nat := 0
  /-- The next record is marked RESTORED_NO_FINAL (R321). -/
  noFinal : Bool := false
  /-- A PERIODIC record of the last latch is due (R319). -/
  periodicDue : Bool := false
  /-- Metering starts or resumes at the next line-cycle end (R321). -/
  startDue : Bool := false
  /-- Pulse outputs: level, accumulator (units of 2^-32 LSB), backlog, tick of the last fall (R317). -/
  pulse : Nat := 0
  pulseAcc : Tbl Nat := []
  backlog : Tbl Nat := []
  pulseFallAt : Tbl Nat := []
  pulseRiseAt : Tbl Nat := []
  /-- PULSE_CFG and PULSE_CONST in effect since the last line-cycle end (R317). -/
  pulseCfg : Tbl Word := []
  pulseConst : Tbl Word := []
  /-- An ADC condition of the sample stream: last valid sensor temperatures held (R311). -/
  sensStale : Bool := false
  deriving DecidableEq, Repr, Inhabited

/-- A Bracken MRAM record (R329): its eight words without the CRC. -/
structure BrRec where
  words : List Word := []
  deriving DecidableEq, Repr, Inhabited

/-- Bracken (R323 to R331). It survives every reset of the main domain. -/
structure Bracken where
  running : Bool := false
  vbatOk : Bool := false
  oscOk : Bool := false
  open_ : Bool := false
  aligned : Bool := false
  sec : Nat := 0
  /-- BR_AHn with 32 fraction bits; BR_EST in mWh with 32 fraction bits (R325). -/
  ah : Tbl Nat := []
  est : Nat := 0
  clearCnt : Nat := 0
  /-- Totals slots: SEQ, BR_SEC, AH0..2, EST, CLEAR_CNT, valid (R329). -/
  slots : List (List Nat) := []
  slotSeq : Nat := 0
  ring : Tbl BrRec := []
  head : Nat := 0
  /-- Ring entries written and not yet read by the host, one bit each (R329). -/
  unread : Nat := 0
  alignBr : Nat := 0
  alignS : Nat := 0
  /-- Running interval: start, quiet seconds, mAh at start with fraction, est at start, tamper (R326, R327). -/
  ivStart : Nat := 0
  ivQuiet : Nat := 0
  ivAh : Tbl Nat := []
  ivEst : Nat := 0
  ivTamper : Bool := false
  ivMainOff : Bool := false
  vbatLost : Bool := false
  oscFailed : Bool := false
  /-- Registers of the Bracken domain kept across resets, by BAR0 address (R323). -/
  regs : Tbl Word := []
  deriving DecidableEq, Repr, Inhabited

/-- A slot of the operation queue (R349 to R356). -/
structure Slot where
  st : OpState := .empty
  gen : Nat := 0
  op : Nat := 0
  /-- PARAM words as clamped at submission. -/
  ps : List Word := []
  res : List Word := []
  cancelLate : Bool := false
  cancelSvc : Bool := false
  suspReq : Bool := false
  /-- Tick of the cancel that counted (R354). -/
  cancelAt : Option Nat := none
  /-- Submission order, and whether the operation has started (R352). -/
  order : Nat := 0
  started : Bool := false
  deriving DecidableEq, Repr, Inhabited

/-- Host interfaces, interrupts, watchdogs (R333 to R361). -/
structure HostIf where
  slots : Tbl Slot := []
  nextOrder : Nat := 0
  /-- Vectors pending and PBA bits (R343, R344). -/
  vecPend : Nat := 0
  pba : Nat := 0
  /-- MSI-X enabled, and vectors masked (R344). -/
  msixOn : Bool := false
  /-- MSI-X messages sent per vector (R343). -/
  msgs : Tbl Nat := []
  /-- Captures of 64-bit registers and of the time counter, private to an interface: key address, plus 2^24 for the
  service port (R11, R267). -/
  caps : Tbl (Option Word) := []
  /-- The last completion of a BAR0 or BAR2 read, and the last service transaction's SVC_SDO bytes (R335, R338). -/
  result : BusResult := .none
  sdo : List Byte := []
  svcSeq : Nat := 0
  /-- Watchdogs: EXPIRED bits and ticks of the last restart (R346, R358). -/
  hostExpired : Bool := false
  svcExpired : Bool := false
  hostKickAt : Nat := 0
  svcKickAt : Nat := 0
  /-- The event log in MRAM: CODE, ARG, seconds, nanoseconds; next entry (R357). -/
  evlog : Tbl (Nat × Word × Nat × Nat) := []
  evHead : Nat := 0
  deriving DecidableEq, Repr, Inhabited

/-- A histogram engine's statistics (R362). -/
structure Hist where
  accepting : Bool := false
  final : Bool := false
  binFull : Bool := false
  sumFull : Bool := false
  min : Int := 2147483647
  max : Int := -2147483648
  count : Nat := 0
  sum : Int := 0
  bins : Tbl Nat := []
  /-- Values accepted in the running capture (R365). -/
  got : Bool := false
  deriving DecidableEq, Repr, Inhabited

/-- A remote thermal channel (R367 to R371). -/
structure TsChan where
  temp : Int := 0
  valid : Bool := false
  isOpen : Bool := false
  short : Bool := false
  range : Bool := false
  raw : Word := 0
  overLim : Bool := false
  /-- What the channel contributes to the throttle factor, none while THR_EN = 0 at its last conversion (R371, R372). -/
  contrib : Option Nat := none
  deriving DecidableEq, Repr, Inhabited

/-- Monitors and thermal management (R362 to R380). -/
structure Therm where
  hists : Tbl Hist := []
  /-- Running time of the HIST_CAPTURE in ticks up to its last start or resumption, and the tick of that (R365, R366). -/
  histTicks : Nat := 0
  histAt : Nat := 0
  chans : Tbl TsChan := []
  /-- On-die readings in 0.0625 °C, and whether each is valid and over its trip level. -/
  die : Tbl Int := []
  dieValid : Nat := 0
  dieOver : Nat := 0
  /-- Throttle factor f in UQ1.15 and the limiting channel (R371). -/
  f : Nat := 32768
  limiting : Nat := 0
  hoCorr : Int := 0
  /-- Shutdown record (R377): seconds, nanoseconds, sensor, reading, count, VALID. -/
  shSec : Nat := 0
  shNs : Nat := 0
  shSensor : Nat := 0
  shReading : Nat := 0
  shCount : Nat := 0
  shValid : Bool := false
  deriving DecidableEq, Repr, Inhabited

/-- Power and resets (R381 to R398). -/
structure Power where
  /-- Internal reset is in force (R385, R386). -/
  inReset : Bool := true
  /-- The supplies of the main domain are not valid (R387). -/
  mainOff : Bool := true
  /-- The internal reset is that of a die shutdown (R376). -/
  dieHold : Bool := false
  /-- Links whose DCK standby has stopped (R389, R390). -/
  stbyDck : Nat := 0
  standby : Bool := false
  /-- A wake event has been taken and the exit is under way (R390). -/
  waking : Bool := false
  wakeCause : Nat := 0
  wakeWc : Nat := 0
  /-- Tick, cause and comparator of the latest tick's first wake event (R390). -/
  wakeEv : Option (Nat × Nat × Nat) := none
  /-- RESET_CAUSE (R397). Reset: 1 after power-on reset. -/
  cause : Nat := 1
  io3v3 : Nat := 0
  vSpread : Bool := false
  tSpread : Bool := false
  deriving DecidableEq, Repr, Inhabited

/-- What hardware events did to one register in one tick, for a read or write that coincides with them (R9, R15). -/
structure HwEvent where
  tick : Nat := 0
  /-- The register's word before the first of these events. -/
  before : Word := 0
  /-- The bits that they set, or by how much they counted. -/
  set : Word := 0
  /-- Number of these events. -/
  count : Nat := 0
  deriving DecidableEq, Repr, Inhabited

/-- The state of the block. -/
structure State where
  /-- Commands waiting, first in, first out. Reset: empty. -/
  pending : List Instr := []
  /-- True time in CORE_CLK cycles of 2.5 ns since reset (R9, R85). Reset: 0. -/
  tick : Nat := 0
  /-- Stored and staged register words, sticky flags and counters, by BAR0 address (R13, R337). -/
  regs : Tbl Word := []
  /-- Hardware events of the present tick on W1C and RC registers, by address (R15). Reset: none. -/
  events : Tbl HwEvent := []
  /-- RWS registers: the value in force (R14). -/
  force : Tbl Word := []
  /-- RWS registers written since they were last taken in (R14, R27, R28). -/
  dirty : List Nat := []
  /-- DRAM, byte by byte (R336). -/
  dram : Tbl Byte := []
  dev : DevState := .configWait
  groups : Tbl Group := []
  /-- Clock groups that the active image defines (CG_PRESENT). -/
  present : Nat := 0
  damask : Damask := {}
  clock : Clock := {}
  links : Tbl Link := []
  mod : Mod := {}
  units : Tbl MUnit := []
  gorse : Gorse := {}
  conv : Conv := {}
  time : TimeEng := {}
  eth : Eth := {}
  meas : Meas := {}
  meter : Meter := {}
  bracken : Bracken := {}
  host : HostIf := {}
  therm : Therm := {}
  power : Power := {}
  deriving DecidableEq, Repr, Inhabited

/-- The block right after power-on reset: every field at the value its declaration gives, no command waiting. -/
def State.reset : State := {}

end Sys2Proof.Machine
end

