-- ==== Sys2Proof/Machine/Line.lean ====
section
/-! DEFINITION. The line code and the frames of Twill in both directions: 8b/10b with running disparity (R109), the PRBS-15
of training superframes (R117), training blocks (R115), headers, messages and payload groups in their byte forms (R132 to R144,
R156) and whole superframes as symbols (R114, R131). R109 takes the code from IEEE 802.3 Clause 36; its tables stand outside
the spec (PRESUMED, log entry 137). -/

namespace Sys2Proof.Machine

open Sys2Proof

/-! 8b/10b. A group is ten bits abcdei fghj with bit a, sent first, the most significant. rd = true: the running disparity is
positive. -/

/-- The six-bit sub-block of D.x at negative disparity. -/
def sixNeg : List Nat :=
  [0b100111, 0b011101, 0b101101, 0b110001, 0b110101, 0b101001, 0b011001, 0b111000,
   0b111001, 0b100101, 0b010101, 0b110100, 0b001101, 0b101100, 0b011100, 0b010111,
   0b011011, 0b100011, 0b010011, 0b110010, 0b001011, 0b101010, 0b011010, 0b111010,
   0b110011, 0b100110, 0b010110, 0b110110, 0b001110, 0b101110, 0b011110, 0b101011]

/-- The four-bit sub-block of y at negative disparity, in its primary form. -/
def fourNeg : List Nat := [0b1011, 0b1001, 0b0101, 0b1100, 0b1101, 0b1010, 0b0110, 0b1110]

/-- Ones of an n-bit number. -/
def ones (n v : Nat) : Nat := (bitsOf n v).length

/-- Running disparity after a sub-block of 2h bits: its ones decide, and a balanced one that begins with h equal bits does too. -/
def rdAfter (h v : Nat) (rd : Bool) : Bool :=
  let k := ones (2 * h) v
  if h < k then true else if k < h then false
  else if v = 2 ^ h - 1 then true else if v = (2 ^ h - 1) * 2 ^ h then false else rd

/-- A sub-block of 2h bits that exists in two forms is complemented at positive disparity: one that is not balanced, or that
begins with h equal bits. -/
def subBlock (h v : Nat) (rd : Bool) : Nat :=
  if rd && (ones (2 * h) v != h || v == (2 ^ h - 1) * 2 ^ h) then 2 ^ (2 * h) - 1 - v else v

def sixOf (x : Nat) (rd : Bool) : Nat := subBlock 3 (sixNeg.getD x 0) rd

/-- The four-bit sub-block of D.x.y; x.7 takes its alternate form where a run of five equal bits would arise. -/
def fourOf (x y : Nat) (rd : Bool) : Nat :=
  if y = 7 ∧ (if rd then [11, 13, 14] else [17, 18, 20]).contains x = true then (if rd then 0b1000 else 0b0111)
  else subBlock 2 (fourNeg.getD y 0) rd

/-- The two sub-blocks of a control code at negative disparity. -/
def kGroup : KCode → Nat
  | .k28_0 => 0b0011110100 | .k28_1 => 0b0011111001 | .k28_3 => 0b0011110011
  | .k28_5 => 0b0011111010 | .k28_6 => 0b0011110110

def groupOfByte (b : Byte) (rd : Bool) : Nat :=
  let x := b.toNat % 32
  let six := sixOf x rd
  16 * six + fourOf x (b.toNat / 32) (rdAfter 3 six rd)

def groupOfK (c : KCode) (rd : Bool) : Nat := if rd then 1023 - kGroup c else kGroup c

/-- Running disparity after a group. -/
def rdGroup (g : Nat) (rd : Bool) : Bool := rdAfter 2 (g % 16) (rdAfter 3 (g / 16) rd)

/-- The group that is sent for a symbol at a running disparity. A disparity violation is the symbol in the other column. -/
def groupOf (y : Sym) (rd : Bool) : Nat :=
  match y with
  | .data b => groupOfByte b rd
  | .k c => groupOfK c rd
  | .disp b => groupOfByte b (!rd)
  | .dispK c => groupOfK c (!rd)
  | .bad => 0

/-- The groups of a run of symbols (R109), and the running disparity after it. -/
def lineOf (rd : Bool) : List Sym → List (BitVec 10) × Bool
  | [] => ([], rd)
  | y :: r =>
    let g := groupOf y rd
    let t := lineOf (rdGroup g rd) r
    (BitVec.ofNat 10 g :: t.1, t.2)

def allK : List KCode := [.k28_5, .k28_3, .k28_6, .k28_0, .k28_1]

/-- The symbol that has this group in the column of a running disparity. -/
def columnOf (g : Nat) (rd : Bool) : Option Sym :=
  match allK.find? (fun c => groupOfK c rd == g) with
  | some c => some (.k c)
  | none =>
    let mid := rdAfter 3 (g / 16) rd
    match (List.range 32).find? (fun x => sixOf x rd == g / 16) with
    | none => none
    | some x => ((List.range 8).find? (fun y => fourOf x y mid == g % 16)).map (fun y => .data (byt (32 * y + x)))

/-- A received group (R109): a symbol of the present column, one of the other column (a running-disparity violation), or
neither. -/
def symOf (g : Nat) (rd : Bool) : Sym :=
  match columnOf g rd with
  | some y => y
  | none =>
    match columnOf g (!rd) with
    | some (.data b) => .disp b
    | some (.k c) => .dispK c
    | _ => .bad

/-- The symbols of a run of received groups, and the running disparity after it. -/
def symsOf (rd : Bool) : List (BitVec 10) → List Sym × Bool
  | [] => ([], rd)
  | g :: r =>
    let t := symsOf (rdGroup g.toNat rd) r
    (symOf g.toNat rd :: t.1, t.2)

/-- A receiver whose running disparity is not known takes it from the first group, the K28.5 of symbol 0. -/
def startRd (l : List (BitVec 10)) : Bool :=
  match l with
  | g :: _ => (columnOf g.toNat false).isNone
  | [] => false

/-! PRBS-15 (R117): x^15 + x^14 + 1. The register holds the last fifteen bits, the latest in bit 0. -/

/-- The next n bits of the generator, first bit in bit 0, and its register. -/
def prbsBitsOf : Nat → Nat → Nat × Nat
  | 0, h => (0, h)
  | n + 1, h =>
    let b := b2n (h.testBit 14 != h.testBit 13)
    let t := prbsBitsOf n ((2 * h + b) % 32768)
    (b + 2 * t.1, t.2)

/-- n bytes of the generator, and its register after them. -/
def prbsRun : Nat → Nat → List Byte × Nat
  | 0, h => ([], h)
  | n + 1, h =>
    let b := prbsBitsOf 8 h
    let t := prbsRun n b.2
    (byt b.1 :: t.1, t.2)

/-- A received byte enters the register of the checker. -/
def prbsTake (h : Nat) (b : Byte) : Nat := (List.range 8).foldl (fun a i => (2 * a + b2n (b.getLsbD i)) % 32768) h

/-- The checker over received symbols: seen, how many bytes its register holds, up to 2 (it synchronises within 2 symbols); a
byte that differs from the prediction, or a code or disparity error, is one error. Where no byte was received the prediction
stands in. -/
def prbsCheck : Nat → Nat → List Sym → Nat × Nat × Nat
  | seen, h, [] => (0, seen, h)
  | seen, h, y :: r =>
    let want := prbsBitsOf 8 h
    match y with
    | .data b =>
      let t := prbsCheck (min 2 (seen + 1)) (prbsTake h b) r
      (t.1 + b2n (decide (2 ≤ seen) && b.toNat != want.1), t.2)
    | .disp b => let t := prbsCheck (min 2 (seen + 1)) (prbsTake h b) r; (t.1 + 1, t.2)
    | _ => let t := prbsCheck seen want.2 r; (t.1 + 1, t.2)

/-! Byte forms. -/

/-- Bytes followed by their CRC-16, least significant byte first (R115, R132, R134). -/
def withCrc (l : List Byte) : List Byte := l ++ leBytes 2 (crc16 l)

/-- A training block (R115). -/
structure TrainBlock where
  state : Nat := 0
  rate : Nat := 0
  target : Nat := 0
  flags : Nat := 0
  cap : Word := 0
  errs : Nat := 0
  seq : Nat := 0
  deriving DecidableEq, Repr, Inhabited

def blockBytes (b : TrainBlock) : List Byte :=
  withCrc (leBytes 1 b.state ++ leBytes 1 b.rate ++ leBytes 1 b.target ++ leBytes 1 b.flags ++ leBytes 4 b.cap.toNat
    ++ leBytes 4 (min b.errs 0xFFFFFFFF) ++ leBytes 2 b.seq)

/-- A block whose CRC is right (R116). -/
def blockOfBytes (l : List Byte) : Option TrainBlock :=
  if trainGood l then
    some { state := leAt l 0 1, rate := leAt l 1 1, target := leAt l 2 1, flags := leAt l 3 1, cap := wd (leAt l 4 4)
           errs := leAt l 8 4, seq := leAt l 12 2 }
  else none

/-- FINE of an EDGE message: edge i in the low half of byte i / 2 for even i, in the high half for odd i (R140). -/
def nibbles : List Nat → List Byte
  | [] => []
  | [a] => [byt (a % 16)]
  | a :: b :: r => byt (a % 16 + 16 * (b % 16)) :: nibbles r

/-- The bytes of a downstream message; fine, the cell end declares FINE = 1 (R138 to R141). -/
def msgBytes (fine : Bool) : Msg → List Byte
  | .edge t sw start half co fi =>
    leBytes 1 1 ++ leBytes 1 t ++ leBytes 1 (sw % 16 + 16 * (co.length - 1) + 64 * b2n start + 128 * b2n half)
      ++ co.flatMap (leBytes 3) ++ (if fine then nibbles fi else [])
  | .boundary t m o f d n =>
    leBytes 1 2 ++ leBytes 1 t ++ leBytes 2 (m % 4096) ++ leBytes 3 o ++ leBytes 1 (f % 16) ++ leBytes 3 d ++ leBytes 1 (n % 16)
  | .sample t o => leBytes 1 3 ++ leBytes 1 t ++ leBytes 3 o
  | .supply t b => leBytes 1 4 ++ leBytes 1 t ++ leBytes 1 (b2n b)
  | .diag op t => leBytes 1 5 ++ leBytes 1 op ++ leBytes 1 t ++ leBytes 1 0

/-- The bytes of a GRID message (R156). -/
def gridBytes (m : GridMsg) : List Byte :=
  leBytes 1 0x10 ++ leBytes 1 m.cg ++ leBytes 4 m.bcount ++ leBytes 3 m.offset ++ leBytes 1 m.ofine ++ leBytes 3 m.period

/-- A payload group: a message, padding to 28 bytes and the CRC (R134). -/
def groupBytes (l : List Byte) : List Byte := withCrc (l ++ List.replicate (28 - l.length) 0)

/-- A header: eleven bytes and the CRC (R132, R155). wz: bytes 5 to 7 of a Wozin port. -/
def headerBytes (seq peer flags : Nat) (wz : List Byte) : List Byte :=
  withCrc (leBytes 2 seq ++ leBytes 2 peer ++ leBytes 1 flags ++ (wz ++ List.replicate (6 - wz.length) 0))

/-! Superframes as symbols. -/

/-- A training superframe (R114): the status or control code, the block and 238 PRBS bytes. -/
def trainFrame (c : KCode) (block prbs : List Byte) : List Sym :=
  .k .k28_5 :: .k c :: (block ++ prbs).map Sym.data

/-- An operating superframe (R131): eight payload groups, those without a message all padding. -/
def opFrame (c : KCode) (header : List Byte) (groups : List (List Byte)) : List Sym :=
  .k .k28_5 :: .k c :: .k .k28_1
    :: (header ++ (groups ++ List.replicate (8 - groups.length) []).flatMap groupBytes).map Sym.data

/-- A superframe of a block run: K28.6 in every position but 0 (R136). -/
def blockFrame : List Sym := .k .k28_5 :: List.replicate 255 (.k .k28_6)

/-- A superframe whose symbols from position p on are those of a block run. -/
def blockFrom (p : Nat) (l : List Sym) : List Sym := l.take p ++ (blockFrame.drop p)

/-! Phase picks. -/

/-- Length of the open span of an eye that begins at step i, at most n: bit i of the operand is set where no transition fell on
step i, and steps run round the unit interval (R106). -/
def spanAt (eye : BitVec 64) (i : Nat) : Nat → Nat
  | 0 => 0
  | n + 1 => if eye.getLsbD (i % 64) then 1 + spanAt eye (i + 1) n else 0

/-- The widest open span: its first step and its width; the first of equally wide ones. -/
def widestSpan (eye : BitVec 64) : Nat × Nat :=
  (List.range 64).foldl (fun a i => let w := spanAt eye i 64; if a.2 < w then (i, w) else a) (0, 0)

/-- EYE_WIDTH and PICK of a sweep: the pick lies at the centre of the widest open span (R106). Of the two middle steps of an
even span the later is taken, of equal spans the first (DESIGN CHOICE, log entry 139). -/
def eyeOf (eye : BitVec 64) : Nat × Nat := let a := widestSpan eye; (a.2, (a.1 + a.2 / 2) % 64)

end Sys2Proof.Machine
end

