-- ==== Sys2Proof/Config.lean ====
section
/-! DEFINITION. What the spec leaves open: constants with no body, so that no proof can see a value of them.
Each is named in a row of notes/assumptions. -/

namespace Sys2Proof.Config

open Sys2Proof Sys2Proof.Machine

/-- OFFSET with OFINE of an instant that lies before the arrival from which they count, by its distance in taps (R139, R156). -/
opaque offsetBefore (i : Int) : Nat

/-- Whether a quotient whose rounding the spec does not state is rounded up; the first argument names the place. -/
opaque roundUp (site : Nat) (n : Int) (d : Nat) : Bool

/-- What a section's bytes define for its tile (R56: "The contents of the tile sections themselves are Birvin's
output"). -/
opaque sectionBody (tile : Nat) (body : List Byte) : SectionBody

/-- pipe(raw, stage) of R247, Q16.8: the pipeline correction by the four inter-stage factors. -/
opaque pipe (raw : Int) (stage : Word) : Int

/-- The β-model reading of R368 in 0.0625 °C before TS_OFS where the reciprocal temperature is zero, for a resistance of v / i
ohm. -/
opaque betaPole (v i r0 beta t0 : Nat) : Int

/-- The message time quality code in HOLDOVER for an error estimate in ns (R285, R288). -/
opaque qualityCode (estNs : Nat) : Nat

/-- Scale that MEAS sets for a CONV slot (R189): the latched value of a mean num/den in code units of 2^-8. -/
opaque measScale (conv : Nat) (num : Int) (den : Nat) : Word

/-- The time quality code of STAT for a holdover estimate in ns (R288). -/
opaque statQuality (estNs : Nat) : Nat

/-- The time quality code of STAT in ACQUIRING, which R288 does not state. -/
opaque statAcquiring : Nat

/-- The message time quality code in ACQUIRING, which R285 does not state. -/
opaque acquiringQuality : Nat

/-- Byte i of the 64-byte dump header of R298 past its MAGIC: the spec names its contents (channel mask, decimation,
instants, trigger index, trigger time, offset of the index entries) and not their places. -/
opaque dumpByte (i : Nat) (contents : List Nat) : Byte

/-- Half the class M filter length plus 1/f0 terms of R286, in ns. -/
opaque pmuReadyM (f60 : Bool) (rate : Nat) : Nat

/-- What an RC counter with no stated saturation holds past 0xFFFF_FFFF: the argument is its address and the exact
count. -/
opaque cntOver (addr : Nat) (n : Nat) : Word

/-- STATUS of the answer to a DIAG OP 0x02 that a blocked cell end does not accept because the cause has not gone. -/
opaque diagCauseStays : Nat

/-- Which channel counts as the one that did not assert the differing actions, where each of two mismatching vectors holds
an action that the other lacks (R216): true for channel A. -/
opaque xchkOther (va vb : Nat) : Bool

/-- The key hash that OTP holds after a reset that interrupts its programming. -/
opaque keyAfterReset (ws : List Word) : Option (List Word)

/-- CODE of a single-ended TW_LOCATE whose event holds no second front of the first one's polarity in the window. -/
opaque twNoSecond : Nat

/-- A CFG-2 frame's body between FRACSEC and CHK: station, channel names, units and formats that the MEAS section of a build
gives (R289); arguments are the BUILD_ID, PMU_CFG and CFG_CNT. -/
opaque cfg2Body (build cfg cnt : Nat) : List Byte

/-- The correction that one-step mode inserts into a Delay_Resp or Pdelay_Resp (R269, R270): argument bytes are the frame,
numbers the transmit stamp. -/
opaque oneStepCorrection (frame : List Byte) (sec ns : Nat) : List Byte

/-- Whether the outputs of a LINK, MOD or METER tile's two planes are equal in a period, where the planes hold different
contents. -/
opaque shadowMatches (tile k : Nat) : Bool

/-- Whether the outputs of the MEAS tile's two planes match within TOL in a period, where the planes hold different contents. -/
opaque measMatches (k tol : Nat) : Bool

/-- Whether the shadow plane of a Gorse channel has taken a C source as asserted, where its filter differs from the active
plane's. -/
opaque shadowFiltered (ch src k : Nat) : Bool

/-- Weights of the single-bin transform of R306 over a cycle of n samples at a tracked frequency in mHz, scaled by 2^30: real
and imaginary part for sample j. -/
opaque binRe (n freqMhz j : Nat) : Int
opaque binIm (n freqMhz j : Nat) : Int

/-- A current sample in units of 2^-31 A where the sensor model of R311 divides by zero; the pin voltage is a fraction of 2^23. -/
opaque deadSensor (c : Nat) (e : Int) : Int

/-- The open header fields of a datagram to an IPv4 address. -/
opaque udpOpen (dest : Nat) (payload : List Byte) : UdpOpen

/-- BUF_OFFSET of the frame that the device puts at an index of its queue (R280). -/
opaque ownBuffer (queue index : Nat) : BitVec 32

/-- Distance of receive-ring entries in DRAM, what stands in an entry before the frame of n bytes, and the form of an appended
receive stamp (R271, R300). -/
opaque rxStride : Nat
opaque rxHeader (n : Nat) : List Byte
opaque rxStamp (sec ns : Nat) : List Byte

/-- A word of configuration space that the spec leaves to the PCIe Base Specification, by its offset (R333). -/
opaque cfgOther (offset : Nat) : Word

/-- A temperature in 0.0625 °C that does not fit 16 bits (R367). -/
opaque tempOver (v : Int) : BitVec 16

end Sys2Proof.Config
end

