-- ==== Sys2Proof/Machine/RegMap.lean ====
section
/-! DEFINITION. The register map: for every address its access code, its writable bits and its reset value (R13, R17,
R337 and the map of each chapter), the clamp of each field (R347) and which registers the service map mirrors (R341).
Addresses are BAR0 offsets; the service block lies from 0x40_0000 (R361). -/

namespace Sys2Proof.Machine

open Sys2Proof

/-- Access codes (R13). -/
inductive Acc where
  | rw | ro | wo | w1c | rc | rws | rwl
  deriving DecidableEq, Repr, Inhabited

/-- What the map says of an address: access code, writable (or clearable) bits, reset value. -/
structure RegInfo where
  acc : Acc := .ro
  mask : Nat := 0
  reset : Nat := 0
  deriving DecidableEq, Repr, Inhabited

/-- PART_KIND of the first silicon revision (R45). -/
def partKind : Nat := 0x54361610

/-- o is base + stride × i for some i below n. -/
def hit (o base stride n : Nat) : Bool :=
  decide (base ≤ o) && decide (o < base + stride * n) && (o - base) % stride == 0

def iRO (r : Nat := 0) : RegInfo := ⟨.ro, 0, r⟩
def iWO (m : Nat := 0xFFFFFFFF) : RegInfo := ⟨.wo, m, 0⟩
def iRC : RegInfo := ⟨.rc, 0, 0⟩
def iRW (m : Nat) (r : Nat := 0) : RegInfo := ⟨.rw, m, r⟩
def iW1C (m : Nat) (r : Nat := 0) : RegInfo := ⟨.w1c, m, r⟩
def iRWS (m : Nat) (r : Nat := 0) : RegInfo := ⟨.rws, m, r⟩
def iRWL (m : Nat) (r : Nat := 0) : RegInfo := ⟨.rwl, m, r⟩

/-- GLOBAL (chapter 1, R358, R397). -/
def infoGlobal (o : Nat) : RegInfo :=
  if o = 0x0000 then iRO partKind
  else if o = 0x0010 then iRWL 0xFFFF
  else if o = 0x0014 then iWO
  else if o = 0x0020 then iW1C 0xF
  else if o = 0x0024 then iRC
  else if o = 0x0028 then iRC
  else if o = 0x0100 then iWO 0xFF
  else if o = 0x0108 then iRC
  else if o = 0x010C then iRC
  else if o = 0x0110 then iW1C 1
  else if o = 0x0300 then iW1C 0xF
  else if o = 0x0308 then iW1C 0xF
  else if o = 0x030C then iWO
  else iRO

/-- CLOCK (R100). -/
def infoClock (o : Nat) : RegInfo :=
  if o = 0x04 then iW1C 0x3F
  else if o = 0x08 then iRWL 3
  else if o = 0x0C then iRW 0xFFFF0073 0x0C4E0010
  else if o = 0x10 then iWO 1
  else if o = 0x14 then iRO 0x0C4E0010
  else if o = 0x18 then iRC
  else iRO

/-- DAMASK (R81). -/
def infoDamask (o : Nat) : RegInfo :=
  if o = 0x1C then iWO 0xFFFFF
  else if o = 0x20 then iRC
  else if o = 0x24 then iW1C 0xFFFFF
  else if o = 0x28 then iW1C 7
  else if hit o 0x220 4 8 then iWO
  else if o = 0x240 then iWO
  else iRO

/-- OPQ (R360). -/
def infoOpq (o : Nat) : RegInfo :=
  if o = 0 then iWO 0x3FFFF
  else if o = 4 then iW1C 0xFFFF
  else if o = 8 then iW1C 7
  else if 0x100 ≤ o ∧ o < 0x500 then
    let w := (o - 0x100) % 0x40
    if w < 0x20 then iRW 0xFFFFFFFF else if w = 0x20 then iWO 0xFF else iRO
  else iRO

/-- INTC (R359). The MSI-X table follows the PCIe Base Specification: vector control resets masked. -/
def infoIntc (o : Nat) : RegInfo :=
  if o < 0x10 then iW1C 0xFFFFFFFF
  else if o < 0x20 then iRW 0xFFFFFFFF
  else if hit o 0x100 4 128 then iRW 0x3F
  else if o = 0x408 ∨ o = 0x40C then iWO
  else if 0x8000 ≤ o ∧ o < 0x8400 then
    (if o % 16 = 0 then iRW 0xFFFFFFFC
     else if o % 16 = 12 then iRW 1 1 else iRW 0xFFFFFFFF)
  else iRO

/-- TIME (R299). -/
def infoTime (o : Nat) : RegInfo :=
  if o = 0x00 then iRW 7 6
  else if o = 0x08 then iW1C 0x1F
  else if o = 0x20 then iRW 0xFFFFFFFF 0x00028000
  else if o = 0x24 then iRW 0xFFFF
  else if o = 0x28 then iWO
  else if o = 0x2C then iRW 0x3FFFFFFF
  else if o = 0x30 then iRW 0xFFFFFFFF
  else if o = 0x34 then iRW 0xFFFF
  else if o = 0x40 then iRW 0xFFFFFFFF 0x4CCDB333
  else if o = 0x44 then iRW 0xFFFFFFFF 0x000186A0
  else if o = 0x48 then iRW 0xFFFFFFFF 0x32
  else if o = 0x58 then iRW 0xFFFFFFFF 0x32
  else if o = 0x5C then iRW 0x3FFFF 0x25
  else if o = 0x60 then iRW 0x1FF01 0x6400
  else if o = 0x64 then iRW 0xFFFFFFFF
  else if o = 0x70 then iW1C 0x20000
  else if o = 0x78 then iRW 0xFFFF 0x3A98
  else if o = 0x80 ∨ o = 0x84 then iRW 0xFFFFFFFF
  else if o = 0x88 then iRW 0xFF
  else if o = 0x90 ∨ o = 0x94 then iRW 0xFFFFFFFF
  else if o = 0x98 then iRW 0xFFFF
  else if 0x100 ≤ o ∧ o < 0x200 then
    let w := o % 0x20
    if w = 0 then iRW 0xFFFFFFFF
    else if w = 4 then iRW 0xFFFFFFFF 0x40
    else if w = 8 then iRW 0xFFFFFFFF
    else if w = 0x10 then iRW 3
    else if w = 0x14 ∨ w = 0x18 then iRC
    else iRO
  else if o = 0xC00 ∨ o = 0xC04 then iW1C 0xFFFFFFFF
  else iRO

/-- ETH, one port (R300). -/
def infoEth (o : Nat) : RegInfo :=
  if o = 0x00 then iRW 0xFF
  else if o = 0x08 then iRWL 0xFFFFFFFF
  else if o = 0x0C then iRWL 0xFFFF
  else if o = 0x10 ∨ o = 0x14 ∨ o = 0x18 ∨ o = 0x1C ∨ o = 0x20 then iRW 0xFFFFFFFF
  else if o = 0x24 then iRW 0xFFFFFFFF 0x40
  else if o = 0x28 then iRW 0xFFFFFFFF
  else if o = 0x30 ∨ o = 0x34 ∨ o = 0x38 then iRC
  else iRO

/-- A link or Wozin port (R130, R159). -/
def infoLink (wz : Bool) (o : Nat) : RegInfo :=
  if o = 0x00 then (if wz then iRW 0xFFF 0x867 else iRW 0x7FF 0x67)
  else if o = 0x04 then iRW 0xFF
  else if o = 0x08 then iWO 3
  else if o = 0x10 then iW1C 0x7F
  else if hit o 0x24 4 5 then iRC
  else if o = 0x100 then iRW 0xF1 0x81
  else if o = 0x104 then iRW 0xFFFF
  else if o = 0x10C then iW1C 0x7F
  else if hit o 0x120 4 4 then iRC
  else iRO

/-- MOD (R184). -/
def infoMod (o : Nat) : RegInfo :=
  if hit o 0x0000 4 8 then iRWS 0xFFFFFF
  else if o = 0x20 then iRW 0xFF
  else if o = 0x24 then iRWS 0xFFFF
  else if o = 0x28 then iRWS 0xFFFF
  else if o = 0x30 then iW1C 0xFF
  else if hit o 0x34 4 5 then iRC
  else if hit o 0x1004 8 64 then iRWS 0x1FFFF
  else if 0x2000 ≤ o ∧ o < 0x2000 + 0x20 * 12 then
    let w := o % 0x20
    if w = 0 ∨ w = 4 then iRWS 0xFFFFFF
    else if w = 8 then iRWS 0xF
    else if w = 0xC then iRWS 0x7FFF
    else if w = 0x14 then iRWS 0xFFFFFFFF
    else if w = 0x18 then iRWS 0xFFFF
    else iRO
  else if 0x4000 ≤ o ∧ o < 0x4000 + 0x100 * 36 then
    let w := o % 0x100
    if w < 0x30 then iRWS 0xFFFFFF
    else if w = 0x40 then iRWS 0x3F1FFF
    else if w = 0x44 then iRWS 0x7FFF
    else if w = 0x4C then iRWS 0xFFFFFFFF
    else if w = 0x50 then iRWS 0xFFFF
    else iRO
  else iRO

/-- GORSE (R237). -/
def infoGorse (o : Nat) : RegInfo :=
  if o = 0x04 then iW1C 0x7F
  else if o = 0x08 ∨ o = 0x0C then iWO
  else if o = 0x10 then iRWL 1
  else if o = 0x14 then iRWL 0x1FFFF 0x3C
  else if o = 0x1C then iRC
  else if o = 0x28 then iRWL 1
  else if o = 0x2C then iRWL 0x03FF03FF 0x03FE03FF
  else if o = 0x30 then iRWL 0x3FFF 0x3E8
  else if o = 0x34 then iRWL 0xFFF 0xFFF
  else if o = 0x38 ∨ o = 0x3C then iRC
  else if hit o 0x40 4 12 then iRWL 0x7FF 0x320
  else if hit o 0x70 4 4 then iRWL 0xFFFFFFFF
  else if o = 0x80 then iRWL 0xFFFF
  else iRO

/-- CONV (R264). -/
def infoConv (o : Nat) : RegInfo :=
  if o = 0x04 then iRW 1
  else if o = 0x08 then iW1C 0xF
  else if o = 0x0C then iWO
  else if o = 0x10 then iWO 0xFFFF
  else if o = 0x14 then iWO 0xF3F
  else if hit o 0x100 4 16 then iW1C 0x20000
  else if hit o 0x140 4 16 then iRW 0x71FF 0x80
  else if 0x200 ≤ o ∧ o < 0x300 then (if o % 16 = 4 then iRO 0x400000 else iRO)
  else if 0x400 ≤ o ∧ o < 0x480 then (if o % 8 = 0 then iRWS 0xFFFFFFFF else iRWS 0xFFFFFF)
  else if hit o 0x500 4 16 then iRC
  else if 0x600 ≤ o ∧ o < 0x6C0 then (if o % 8 = 0 then iRWS 0x03FF03FF else iRWS 0xFFFF)
  else if o = 0x708 ∨ o = 0x70C then iW1C 0xFFFFFF
  else if hit o 0x808 16 8 then iW1C 0x800000
  else iRO

/-- MEAS (R301). -/
def infoMeas (o : Nat) : RegInfo :=
  if o = 0x100 then iRWS 0xFFF
  else if o = 0x104 then iRW 0xFFFF
  else if o = 0x108 then iRW 0xFFFFFFFF
  else if o = 0x10C then iRW 0xFFFFFFFF 0x12C012C0
  else if o = 0x110 then iRW 0xFFFFFFFF 0x7530
  else if o = 0x118 then iWO 0xF
  else if o = 0x120 then iWO 1
  else if o = 0x124 then iRC
  else if o = 0x200 then iRWS 0xF
  else if o = 0x204 then iRWS 0xFFFF 0x400
  else if o = 0x208 then iRWS 0x7FF 0x7D0
  else if o = 0x20C then iRW 0x3FFFF
  else if o = 0x210 then iRW 0xFFFF
  else if o = 0x214 then iRW 0xFFFFFFFF
  else if o = 0x218 then iRW 0x1FFFF 0x5457
  else if o = 0x220 then iRC
  else if hit o 0x240 4 16 then iRW 0xFFFF
  else if 0x280 ≤ o ∧ o < 0x300 then
    let w := o % 16
    if w = 0 then iRW 0x80FFFFFF
    else if w = 4 then iRW 0xFFFFF 0x47C70
    else if w = 8 then iRW 0xFFFF 0x3E8
    else iRW 0x3FFFF
  else if o = 0x300 then iRWS 0x7FFFFFF 0xFFFF
  else if o = 0x304 then iRW 0x3FF 3
  else if o = 0x308 then iWO 1
  else if o = 0x30C then iWO 0xFF
  else if o = 0x314 then iRC
  else if 0x400 ≤ o ∧ o < 0x500 then iRW 0xFFFFFFFF
  else iRO

/-- METER (R332). -/
def infoMeter (o : Nat) : RegInfo :=
  if o = 0x04 then iW1C 0x3F
  else if o = 0x08 then iRWS 0x1FFFF
  else if o = 0x2C then iWO
  else if hit o 0x100 16 8 then iRW 0x03FF01FF
  else if hit o 0x104 16 8 then iRW 0xFFFFFFFF 0x2710
  else if 0x200 ≤ o ∧ o < 0x200 + 0x20 * 9 then
    (if 4 ≤ o % 0x20 ∧ o % 0x20 ≤ 0x18 then iRWS 0xFFFFFFFF else iRO)
  else if o = 0x3004 then iW1C 0xF
  else if o = 0x3018 then iRW 0x7FF
  else if o = 0x301C then iRW 0xFFFF 0xE6
  else if o = 0x3020 then iRW 0xFFFFFFFF 0x3E8
  else if hit o 0x3024 4 3 then iRW 0xFFFFFFFF 0x100
  else if hit o 0x3030 4 3 then iRW 0xFFFFFF 0x800000
  else if o = 0x303C then iRW 1
  else if o = 0x3060 then iWO
  else iRO

/-- CTRL, one unit (R205). -/
def infoCtrl (o : Nat) : RegInfo :=
  if o = 0x04 then iRWS 7
  else if o = 0x0C then iW1C 0x7F
  else if hit o 0x100 4 32 then iRWS 0xFFFFFFFF
  else if hit o 0x200 4 32 then iRWS 0xFFFFFFFF
  else if hit o 0x280 4 16 then iRWS 0xFFFFFFFF
  else if hit o 0x300 4 32 then iRWS 0xFFFFFFFF
  else if hit o 0x4000 4 3584 then iRWS 0xFFFFFFFF
  else if hit o 0x8000 4 896 then iRWS 0x1F1F1F1F
  else iRO

/-- MON (R379). -/
def infoMon (o : Nat) : RegInfo :=
  if o = 0 then iW1C 7
  else if 0x1000 ≤ o ∧ o < 0x2000 then
    let w := o % 0x40
    if w = 0 then iRW 0x7FFF
    else if w = 4 then iRW 0xFFFFFFFF
    else iRO
  else iRO

/-- THERM (R380). -/
def infoTherm (o : Nat) : RegInfo :=
  if o = 4 then iW1C 0xF
  else if o = 0x18 then iW1C 0x40000
  else if hit o 0x50 4 4 then iRW 0xFFFF 0x8C0
  else if 0x100 ≤ o ∧ o < 0x300 then
    let w := o % 0x40
    if w = 0x00 then iRW 0x7F
    else if w = 0x08 then iRW 0xFFFF
    else if w = 0x0C then iRW 0xFFFF 0xFA0
    else if w = 0x10 then iRW 0xFFFF 0xFA0
    else if w = 0x14 then iRW 0xFFFFFFFF 0x27100000
    else if w = 0x18 then iRW 0xFFFF 0x4042
    else if w = 0x1C then iRW 0xFFFFFFFF 0x01900F6E
    else if w = 0x20 then iRW 0xFFFFFFFF 0x2710
    else iRO
  else if 0x400 ≤ o ∧ o < 0x800 then (if o % 8 = 0 then iRW 0xFFFFFFFF else iRW 0xFFFF)
  else if hit o 0x800 4 16 then iRWS 0xFFFF
  else if o = 0x840 then iRW 0x1F
  else if o = 0x844 then iRW 0xFFFF 0x190
  else if o = 0x848 ∨ o = 0x84C then iRW 0xFFFFFF
  else iRO

/-- The service block (R361). -/
def infoSvc (o : Nat) : RegInfo :=
  if o = 0x04 ∨ o = 0x08 ∨ o = 0x0C then iWO
  else if o = 0x10 then iW1C 7
  else if o = 0x14 ∨ o = 0x18 then iRC
  else if hit o 0x20 4 4 then iRW 0xFFFFFFFF
  else if hit o 0x30 4 4 then iW1C 0xFFFFFFFF
  else if hit o 0x100 4 18 then iRC
  else iRO

/-- The block that holds an address (R337): number and base; 99 where the address is reserved. -/
def blockOf (a : Nat) : Nat × Nat :=
  if a < 0x10000 then (0, 0)
  else if a < 0x20000 then (1, 0x10000)
  else if a < 0x30000 then (2, 0x20000)
  else if a < 0x40000 then (3, 0x30000)
  else if a < 0x50000 then (4, 0x40000)
  else if a < 0x60000 then (5, 0x50000)
  else if a < 0x62000 then (6, 0x60000)
  else if a < 0x80000 then (99, 0x62000)
  else if a < 0xA4000 then (7, 0x80000)
  else if a < 0xA8000 then (99, 0xA4000)
  else if a < 0xAA000 then (8, 0xA8000)
  else if a < 0x100000 then (99, 0xAA000)
  else if a < 0x180000 then (9, 0x100000)
  else if a < 0x1C0000 then (10, 0x180000)
  else if a < 0x1E0000 then (11, 0x1C0000)
  else if a < 0x1F0000 then (12, 0x1E0000)
  else if a < 0x200000 then (13, 0x1F0000)
  else if a < 0x300000 then (14, 0x200000)
  else if a < 0x380000 then (15, 0x300000)
  else if a < 0x400000 then (16, 0x380000)
  else if a < 0x401000 then (17, 0x400000)
  else (99, 0x401000)

/-- The map's entry of an address; a reserved address reads as zero and ignores writes (R12). -/
def regInfo (a : Nat) : RegInfo :=
  let b := blockOf a
  let o := a - b.2
  match b.1 with
  | 0 => infoGlobal o
  | 1 => infoClock o
  | 2 => infoDamask o
  | 3 => infoOpq o
  | 4 => infoIntc o
  | 5 => infoTime o
  | 6 => infoEth (o % 0x1000)
  | 7 => infoLink false (o % 0x1000)
  | 8 => infoLink true (o % 0x1000)
  | 9 => infoMod o
  | 10 => infoGorse o
  | 11 => infoConv o
  | 12 => infoMeas o
  | 13 => infoMeter o
  | 14 => infoCtrl (o % 0x10000)
  | 15 => infoMon o
  | 16 => infoTherm o
  | 17 => infoSvc o
  | _ => iRO

/-- The word a register reads as at reset (R17). -/
def regReset (a : Nat) : Word := wd (regInfo a).reset

/-! Addresses used by name. -/

def aHostWdogCfg : Nat := 0x10
def aSvcWdogCfg : Nat := 0x18
def aGlobalSticky : Nat := 0x20
def aAccessErrCnt : Nat := 0x24
def aDramCeCnt : Nat := 0x28
def aClampLast : Nat := 0x2C
def aCommitReq : Nat := 0x100
def aCommitLate : Nat := 0x108
def aCommitDefer : Nat := 0x10C
def aCommitFlags : Nat := 0x110
def aPwrSticky : Nat := 0x308
def aClkStatus : Nat := 0x10000
def aClkSticky : Nat := 0x10004
def aClkCfg : Nat := 0x10008
def aSscCfg : Nat := 0x1000C
def aSscState : Nat := 0x10014
def aLockEvent : Nat := 0x10018
def aProfileCnt : Nat := 0x1001C
def aActiveBuild : Nat := 0x20008
def aSeuCorr : Nat := 0x20020
def aSeuUncorr : Nat := 0x20024
def aDmkFlags : Nat := 0x20028
def aOpqEvent : Nat := 0x30004
def aOpqSticky : Nat := 0x30008
def aParam (s n : Nat) : Nat := 0x30100 + 0x40 * s + 4 * n
def aSrcStatus (r : Nat) : Nat := 0x40000 + 4 * r
def aSrcEn (r : Nat) : Nat := 0x40010 + 4 * r
def aSrcRoute (n : Nat) : Nat := 0x40100 + 4 * n
def aMsixCtl (v : Nat) : Nat := 0x4800C + 16 * v
def aTimeCtrl : Nat := 0x50000
def aTimeSticky : Nat := 0x50008
def aTimeNs : Nat := 0x50010
def aAddend : Nat := 0x50020
def aAddendFine : Nat := 0x50024
def aTimeSetNs : Nat := 0x5002C
def aTimeSetLo : Nat := 0x50030
def aTimeSetHi : Nat := 0x50034
def aServoGain : Nat := 0x50040
def aStepNs : Nat := 0x50044
def aLockNs : Nat := 0x50048
def aOffsetNs : Nat := 0x5004C
def aMeanPath : Nat := 0x50050
def aHoTePpb : Nat := 0x50058
def aUtcOffset : Nat := 0x5005C
def aPpsCfg : Nat := 0x50060
def aPpsTrim : Nat := 0x50064
def aPpsInNs : Nat := 0x50068
def aPtpDomain : Nat := 0x50088
def aParentLo : Nat := 0x50090
def aParentMid : Nat := 0x50094
def aParentHi : Nat := 0x50098
def aPpsInLo : Nat := 0x5006C
def aPpsInHi : Nat := 0x50070
def aTimeErr : Nat := 0x50078
def aPtpIdLo : Nat := 0x50080
def aPtpIdHi : Nat := 0x50084
def aLq (q o : Nat) : Nat := 0x50100 + 0x20 * q + o
def aStampOvr (r : Nat) : Nat := 0x50C00 + 4 * r
def aEth (p o : Nat) : Nat := 0x60000 + 0x1000 * p + o
/-- Register o of link or port l, in the order of LINK_MASK (R130). -/
def aLink (l o : Nat) : Nat := if l < 36 then 0x80000 + 0x1000 * l + o else 0xA8000 + 0x1000 * (l - 36) + o
def aCgPeriod (g : Nat) : Nat := 0x100000 + 4 * g
def aPairlock : Nat := 0x100020
def aChgEn : Nat := 0x100024
def aChgUpd : Nat := 0x100028
def aModSticky : Nat := 0x100030
def aPlHoldCnt : Nat := 0x100034
def aMidSkipCnt : Nat := 0x100038
def aEdgeLimitCnt : Nat := 0x10003C
def aOverlapCnt : Nat := 0x100040
def aRefreshCnt : Nat := 0x100044
def aCarrierPhase (i : Nat) : Nat := 0x101004 + 8 * i
def aLp (p o : Nat) : Nat := 0x102000 + 0x20 * p + o
def aVc (c o : Nat) : Nat := 0x104000 + 0x100 * c + o
def aGorseSticky : Nat := 0x180004
def aBsCfg : Nat := 0x180010
def aScLimit : Nat := 0x180014
def aTripCnt : Nat := 0x18001C
def aBrkCfg : Nat := 0x180028
def aBrkThr : Nat := 0x18002C
def aBrkMaxOn : Nat := 0x180030
def aDsatUsed : Nat := 0x180034
def aXchkCnt : Nat := 0x180038
def aBlankPendCnt : Nat := 0x18003C
def aDsatBlank (p : Nat) : Nat := 0x180040 + 4 * p
def aStringMap (k : Nat) : Nat := 0x180070 + 4 * k
def aDiagPairRes : Nat := 0x18008C
def aCmpSt (k : Nat) : Nat := 0x180090 + 4 * k
def aDiagPairRef : Nat := 0x180098
def aRefCtrl : Nat := 0x1C0004
def aConvSticky : Nat := 0x1C0008
def aRbResult : Nat := 0x1C0018
def aAdcData (n : Nat) : Nat := 0x1C0100 + 4 * n
def aAdcCfg (n : Nat) : Nat := 0x1C0140 + 4 * n
def aCal (n o : Nat) : Nat := 0x1C0200 + 16 * n + o
def aFactTc (n : Nat) : Nat := 0x1C0300 + 4 * n
def aUgain (n : Nat) : Nat := 0x1C0400 + 8 * n
def aUofs (n : Nat) : Nat := 0x1C0404 + 8 * n
def aClipCnt (n : Nat) : Nat := 0x1C0500 + 4 * n
def aWcThr (c : Nat) : Nat := 0x1C0600 + 8 * c
def aWcCfg (c : Nat) : Nat := 0x1C0604 + 8 * c
def aWcInitBand : Nat := 0x1C0708
def aWcEdge : Nat := 0x1C070C
def aCap (k o : Nat) : Nat := 0x1C0800 + 16 * k + o
def aMConvFlags (n : Nat) : Nat := 0x1C1000 + 4 * n
def aPmuCfg : Nat := 0x1E0100
def aIdcode : Nat := 0x1E0104
def aPmuDestIp : Nat := 0x1E0108
def aPmuPorts : Nat := 0x1E010C
def aPmuDelay : Nat := 0x1E0110
def aPmuLateCnt : Nat := 0x1E0124
def aTwCfg : Nat := 0x1E0200
def aTwStation : Nat := 0x1E020C
def aTwLineId : Nat := 0x1E0210
def aTwDestIp : Nat := 0x1E0214
def aTwPort : Nat := 0x1E0218
def aTwRxDrop : Nat := 0x1E0220
def aTwTrim (n : Nat) : Nat := 0x1E0240 + 4 * n
def aLineCfg (i o : Nat) : Nat := 0x1E0280 + 16 * i + o
def aRecCfg : Nat := 0x1E0300
def aRecTrig : Nat := 0x1E0304
def aRecMiss : Nat := 0x1E0314
def aMeterSticky : Nat := 0x1F0004
def aMeterCfg : Nat := 0x1F0008
def aPulseCfg (k : Nat) : Nat := 0x1F0100 + 16 * k
def aPulseConst (k : Nat) : Nat := 0x1F0104 + 16 * k
def aBrSticky : Nat := 0x1F3004
def aBr (o : Nat) : Nat := 0x1F3000 + o
def aMu (u o : Nat) : Nat := 0x200000 + 0x10000 * u + o
def aMonSticky : Nat := 0x300000
def aHg (e o : Nat) : Nat := 0x301000 + 0x40 * e + o
def aThermSticky : Nat := 0x380004
def aDieTrip (d : Nat) : Nat := 0x380050 + 4 * d
def aTs (n o : Nat) : Nat := 0x380100 + 0x40 * n + o
def aTsTbl (n j o : Nat) : Nat := 0x380400 + 0x80 * n + 8 * j + o
def aConvUtc (n : Nat) : Nat := 0x380800 + 4 * n
def aHo (o : Nat) : Nat := 0x380840 + o
def aSvc (o : Nat) : Nat := 0x400000 + o

/-! The clamp rule (R347): each field outside its legal range becomes the nearest legal value. -/

/-- A field of n bits at lo clamped to [a, b]. -/
def clampFld (v : Word) (lo len a b : Nat) : Word := putFld v lo len (clampN a b (fld v lo len))

/-- A signed field clamped to [a, b]. -/
def clampSFld (v : Word) (lo len : Nat) (a b : Int) : Word :=
  putFld v lo len (unsgn len (clampI a b (sgn len (fld v lo len))))

/-- A whole register clamped to [a, b]. -/
def clampW (v : Word) (a b : Nat) : Word := wd (clampN a b v.toNat)

def clampLink (o : Nat) (v : Word) : Word :=
  if o = 0 then clampFld v 2 4 9 12
  else if o = 0x100 then clampFld v 4 4 4 12
  else if o = 0x104 then clampSFld v 0 16 (-10000) 10000
  else v

/-- REFRESH register of a pair or cell (R184). -/
def clampRefresh (v : Word) : Word := clampFld (clampFld v 0 16 250 65535) 16 16 10 65535

def clampMod (o : Nat) (v : Word) : Word :=
  if hit o 0 4 8 then clampW v 5000 16777215
  else if 0x2000 ≤ o ∧ o < 0x2000 + 0x20 * 12 then
    (if o % 0x20 = 0x0C then clampW v 0 25000
     else if o % 0x20 = 0x14 then clampRefresh v
     else if o % 0x20 = 0x18 then clampW v 10 65535 else v)
  else if 0x4000 ≤ o ∧ o < 0x4000 + 0x100 * 36 then
    (if o % 0x100 = 0x44 then clampW v 0 25000
     else if o % 0x100 = 0x4C then clampRefresh v
     else if o % 0x100 = 0x50 then clampW v 10 65535 else v)
  else v

/-- WC_THRc (R256): a LOW at or above HIGH is HIGH − 1; HIGH 0 is 1 with LOW 0. -/
def clampWcThr (v : Word) : Word :=
  let h := max 1 (fld v 16 10)
  putFld (putFld v 16 10 h) 0 10 (min (fld v 0 10) (h - 1))

def clampConv (o : Nat) (v : Word) : Word :=
  if o = 0x14 then clampFld v 0 5 0 23
  else if hit o 0x140 4 16 then
    let v1 := if fld v 2 2 = 3 then putFld v 2 2 2 else v
    clampFld v1 4 5 8 24
  else if 0x400 ≤ o ∧ o < 0x480 then
    (if o % 8 = 0 then wdI (clampI (-536870912) 536870912 (sWord v)) else clampSFld v 0 24 (-1048576) 1048575)
  else if 0x600 ≤ o ∧ o < 0x6C0 then
    (if o % 8 = 0 then clampWcThr v else if fld v 8 4 > 8 then putFld v 8 4 8 else v)
  else v

/-- BRK_THR (R229): a BRK_OFF at or above BRK_ON is BRK_ON − 1; with BRK_ON 0 it is 0. -/
def clampBrkThr (v : Word) : Word :=
  let on := fld v 0 10
  if fld v 16 10 ≥ on then putFld v 16 10 (on - 1) else v

def clampGorse (o : Nat) (v : Word) : Word :=
  if o = 0x14 then clampW v 1 86400
  else if o = 0x2C then clampBrkThr v
  else if o = 0x30 then clampW v 1 10000
  else if hit o 0x40 4 12 then clampW v 80 2000
  else v

def clampTime (o : Nat) (v : Word) : Word :=
  if o = 0x20 then clampW v 0x00027F00 0x000280FF
  else if o = 0x28 then (if v = wd 0x80000000 then wd 0x80000001 else v)
  else if o = 0x2C then clampW v 0 999999999
  else if o = 0x44 then clampW v 1000 1000000000
  else if o = 0x48 then clampW v 10 100000
  else if o = 0x58 then clampW v 1 100000
  else if o = 0x60 then clampFld v 8 9 1 500
  else if o = 0x64 then wdI (clampI (-1000000) 1000000 (sWord v))
  else if o = 0x78 then clampW v 0 60535
  else if 0x100 ≤ o ∧ o < 0x200 then
    (if o % 0x20 = 0 then wd (v.toNat / 32 * 32)
     else if o % 0x20 = 4 then clampW v 16 4096 else v)
  else v

def clampEth (o : Nat) (v : Word) : Word :=
  if o = 0 then (if fld v 6 2 ≥ 2 then putFld v 6 2 1 else v)
  else if o = 0x18 ∨ o = 0x1C then wdI (clampI (-100000) 100000 (sWord v))
  else if o = 0x24 then clampW v 16 4096
  else v

/-- The number of rates in the list of R284 for 50 Hz or 60 Hz. -/
def rateCount (f60 : Bool) : Nat := if f60 then 7 else 4

def clampMeas (o : Nat) (v : Word) : Word :=
  if o = 0x100 then clampFld v 3 4 0 (rateCount (bit v 1) - 1)
  else if o = 0x110 then clampW v 0 100000000
  else if o = 0x208 then clampW v 10 2000
  else if 0x280 ≤ o ∧ o < 0x300 ∧ o % 16 = 4 then clampW v 100000 300000
  else if o = 0x300 then clampFld v 16 4 0 12
  else v

def clampMeter (o : Nat) (v : Word) : Word :=
  if o = 0x08 then clampFld v 0 16 1 65535
  else if hit o 0x100 16 8 then clampFld (clampFld v 0 8 0 191) 16 10 1 1000
  else if hit o 0x104 16 8 then clampW v 1 0xFFFFFFFF
  else if 0x200 ≤ o ∧ o < 0x200 + 0x20 * 9 then
    (if o % 0x20 = 4 then clampW v 1 0xFFFFFFFF
     else if o % 0x20 = 8 then wdI (clampI (-1000000) 1000000 (sWord v))
     else if o % 0x20 = 0x0C ∨ o % 0x20 = 0x10 then wdI (clampI (-16777216) 16777215 (sWord v))
     else if o % 0x20 = 0x18 then clampW v 1 1000000 else v)
  else if o = 0x3018 then clampFld v 1 10 0 1000
  else if o = 0x301C then clampW v 1 40000
  else if o = 0x3020 then clampW v 1 1000000
  else v

/-- The highest legal INDEX of a histogram source (R363). -/
def hgMaxIndex (src : Nat) : Nat :=
  if src = 1 then 37 else if src = 2 ∨ src = 3 then 15 else if src = 4 then 63
  else if src = 6 ∨ src = 7 then 15 else if src = 8 then 35 else if src = 9 then 1
  else if src = 10 then 11 else 63

def clampMon (o : Nat) (v : Word) : Word :=
  if 0x1000 ≤ o ∧ o < 0x2000 ∧ o % 0x40 = 0 then
    let v1 := if fld v 0 4 > 10 then putFld v 0 4 0 else v
    clampFld v1 4 6 0 (hgMaxIndex (fld v1 0 4))
  else v

def clampTherm (o : Nat) (v : Word) : Word :=
  if hit o 0x50 4 4 then clampSFld v 0 16 (-640) 2320
  else if 0x100 ≤ o ∧ o < 0x300 then
    let w := o % 0x40
    if w = 0 then (if fld v 2 2 = 3 then putFld v 2 2 2 else v)
    else if w = 0x08 then clampSFld v 0 16 (-160) 160
    else if w = 0x0C ∨ w = 0x10 then clampSFld v 0 16 (-640) 4000
    else if w = 0x14 then clampFld (clampFld v 0 16 0 10000) 16 16 0 10000
    else if w = 0x18 then clampFld v 0 16 14746 19661
    else if w = 0x1C then clampFld v 0 16 1000 10000
    else if w = 0x20 then clampW v 100 10000000
    else v
  else if o = 0x840 then (if fld v 1 4 > 11 then putFld v 1 4 11 else v)
  else v

def clampClock (o : Nat) (v : Word) : Word :=
  if o = 8 then (if fld v 0 2 = 3 then putFld v 0 2 2 else v)
  else if o = 0xC then
    let v1 := if fld v 0 2 = 3 then putFld v 0 2 2 else v
    clampFld (clampFld v1 4 3 1 5) 16 16 3000 3300
  else v

def clampGlobal (o : Nat) (v : Word) : Word :=
  if o = 0x10 then clampFld v 0 14 1 10000 else v

/-- The stored value of a write of v, reserved bits removed (R12), each field clamped (R347). Limits that depend on
other registers (dead-time minimum, supply) are applied in Machine/Ops.lean. -/
def clampReg (a : Nat) (v : Word) : Word :=
  let b := blockOf a
  let o := a - b.2
  let w := v &&& wd (regInfo a).mask
  match b.1 with
  | 0 => clampGlobal o w
  | 1 => clampClock o w
  | 5 => clampTime o w
  | 6 => clampEth (o % 0x1000) w
  | 7 => clampLink (o % 0x1000) w
  | 8 => clampLink (o % 0x1000) w
  | 9 => clampMod o w
  | 10 => clampGorse o w
  | 11 => clampConv o w
  | 12 => clampMeas o w
  | 13 => clampMeter o w
  | 15 => clampMon o w
  | 16 => clampTherm o w
  | _ => w

/-! The service map (R341): what the chapters name as mirrored. -/

/-- Whether the service map holds an address below 0x40_0000 read-only. -/
def svcMirrored (a : Nat) : Bool :=
  let b := blockOf a
  let o := a - b.2
  match b.1 with
  | 0 => o == 0x4 || o == 0x104 || hit o 0x180 4 16 || hit o 0x1C0 4 8 || hit o 0x200 4 8
      || o == 0x1C || o == 0x18 || o == 0x20 || o == 0x2C || o == 0x30 || (decide (0x4000 ≤ o) && decide (o < 0x8000))
      || o == 0x300 || o == 0x304 || o == 0x308 || o == 0x310
  | 1 => o == 0 || o == 4 || o == 0x14
  | 3 => o == 0xC || (decide (0x100 ≤ o) && decide (o < 0x500) && decide (0x24 ≤ o % 0x40) && decide (o % 0x40 < 0x38))
  | 5 => o == 4 || o == 8 || o == 0x54
  | 7 => let w := o % 0x1000; w == 0xC || w == 0x10 || w == 0x108 || w == 0x10C
  | 8 => let w := o % 0x1000; w == 0xC || w == 0x10 || w == 0x108 || w == 0x10C
  | 9 => o == 0x30 || o == 0x2C
  | 10 => o == 0 || o == 4 || o == 0x24 || o == 0x18 || hit o 0x100 4 8 || (decide (0x1000 ≤ o) && decide (o < 0x1400))
  | 11 => o == 0 || o == 8 || (decide (0x1000 ≤ o) && decide (o < 0x1200))
  | 12 => o == 0x11C || o == 0x21C || o == 0x310
  | 13 => (regInfo a).acc != .wo
  | 14 => let w := o % 0x10000; w == 0x8 || w == 0xC || (decide (0xA000 ≤ w) && decide (w < 0xF600))
  | 15 => true
  | 16 => true
  | 17 => true
  | _ => false

end Sys2Proof.Machine
end

