-- ==== Sys2Proof/Machine/Flags.lean ====
section
/-! DEFINITION. Access to the parts of State, and every kind of flag: sticky bits, counters, interrupt sources,
vectors and their stamps, the event log (R13, R15, R277, R342, R343, R345, R357). -/

namespace Sys2Proof.Machine

open Sys2Proof

/-! Parts of State. -/

/-- The stored (or staged) word of a register. -/
def rd (s : State) (a : Nat) : Word := tget regReset s.regs a
def wr (a : Nat) (v : Word) (s : State) : State := { s with regs := tset regReset s.regs a v }
/-- The value in force of an RWS register (R14). -/
def fo (s : State) (a : Nat) : Word := tget regReset s.force a
def setFo (a : Nat) (v : Word) (s : State) : State := { s with force := tset regReset s.force a v }

/-! Coinciding events (R15): those of the present tick (R9). -/

def dEvent (_ : Nat) : HwEvent := {}

/-- What the hardware events of this tick did to the register at a. -/
def eventNow (s : State) (a : Nat) : Option HwEvent :=
  match tlook s.events a with
  | some e => if e.tick = s.tick then some e else none
  | none => none

/-- The bits that hardware events of this tick set at a, or by how much they counted there. -/
def eventSet (s : State) (a : Nat) : Word := match eventNow s a with | some e => e.set | none => 0

/-- A hardware event acts on the register at a: f adds what it sets or counts. Events of earlier ticks are dropped. -/
def noteEvent (a : Nat) (f : Word → Word) (s : State) : State :=
  let e := (eventNow s a).getD { tick := s.tick, before := rd s a }
  { s with events := tset dEvent (s.events.filter (fun p => p.2.tick == s.tick)) a { e with set := f e.set, count := e.count + 1 } }

/-- A hardware event sets the bits m of the register at a, whose word becomes v. -/
def landWord (a : Nat) (m v : Word) (s : State) : State := wr a v (noteEvent a (· ||| m) s)

/-- A value lands in a register with its NEW bit at b; OVR beside it sets if the last value was not read (R243, R262, R279). -/
def landNew (a b : Nat) (v : Word) (s : State) : State :=
  landWord a (wd (2 ^ b) ||| bitIf (b + 1) (bit (rd s a) b)) v s

/-- A hardware event sets the bits m of the register at a. -/
def orWord (a : Nat) (m : Word) (s : State) : State := landWord a m (rd s a ||| m) s

/-- Bits of a register are cleared by a write or a read; those that an event of this tick set stay (R15). -/
def clearWord (a : Nat) (m : Word) (s : State) : State := wr a (rd s a &&& ~~~(m &&& ~~~(eventSet s a))) s

def dGroup (_ : Nat) : Group := {}
def dTile (_ : Nat) : Tile := {}
def dLink (_ : Nat) : Link := {}
def dPair (_ : Nat) : Pair := {}
def dVCell (_ : Nat) : VCell := {}
def dWave (_ : Nat) : Wave := {}
def dUnit (_ : Nat) : MUnit := {}
def dCmp (_ : Nat) : Cmp := {}
def dSlot (_ : Nat) : Slot := {}
def dHist (_ : Nat) : Hist := {}
def dChan (_ : Nat) : TsChan := {}
def dZero (_ : Nat) : Nat := 0
def dZeroI (_ : Nat) : Int := 0
def dZeroW (_ : Nat) : Word := 0
def dZeroB (_ : Nat) : Byte := 0

def group (s : State) (g : Nat) : Group := tget dGroup s.groups g
def modGroup (g : Nat) (f : Group → Group) (s : State) : State := { s with groups := tmod dGroup s.groups g f }
def tile (s : State) (t : Nat) : Tile := tget dTile s.damask.tiles t
def modTile (t : Nat) (f : Tile → Tile) (s : State) : State :=
  { s with damask := { s.damask with tiles := tmod dTile s.damask.tiles t f } }
def link (s : State) (l : Nat) : Link := tget dLink s.links l
def modLink (l : Nat) (f : Link → Link) (s : State) : State := { s with links := tmod dLink s.links l f }
def pair (s : State) (p : Nat) : Pair := tget dPair s.mod.pairs p
def modPair (p : Nat) (f : Pair → Pair) (s : State) : State :=
  { s with mod := { s.mod with pairs := tmod dPair s.mod.pairs p f } }
def vcell (s : State) (c : Nat) : VCell := tget dVCell s.mod.cells c
def modVCell (c : Nat) (f : VCell → VCell) (s : State) : State :=
  { s with mod := { s.mod with cells := tmod dVCell s.mod.cells c f } }
def munit (s : State) (u : Nat) : MUnit := tget dUnit s.units u
def modUnit (u : Nat) (f : MUnit → MUnit) (s : State) : State := { s with units := tmod dUnit s.units u f }
def cmp (s : State) (c : Nat) : Cmp := tget dCmp s.conv.cmps c
def modCmp (c : Nat) (f : Cmp → Cmp) (s : State) : State :=
  { s with conv := { s.conv with cmps := tmod dCmp s.conv.cmps c f } }
def slot (s : State) (i : Nat) : Slot := tget dSlot s.host.slots i
def modSlot (i : Nat) (f : Slot → Slot) (s : State) : State :=
  { s with host := { s.host with slots := tmod dSlot s.host.slots i f } }
def hist (s : State) (e : Nat) : Hist := tget dHist s.therm.hists e
def modHist (e : Nat) (f : Hist → Hist) (s : State) : State :=
  { s with therm := { s.therm with hists := tmod dHist s.therm.hists e f } }
def chan (s : State) (n : Nat) : TsChan := tget dChan s.therm.chans n
def modChan (n : Nat) (f : TsChan → TsChan) (s : State) : State :=
  { s with therm := { s.therm with chans := tmod dChan s.therm.chans n f } }

def modDamask (f : Damask → Damask) (s : State) : State := { s with damask := f s.damask }
def modClock (f : Clock → Clock) (s : State) : State := { s with clock := f s.clock }
def modMod (f : Mod → Mod) (s : State) : State := { s with mod := f s.mod }
def modGorse (f : Gorse → Gorse) (s : State) : State := { s with gorse := f s.gorse }
def modConv (f : Conv → Conv) (s : State) : State := { s with conv := f s.conv }
def modTime (f : TimeEng → TimeEng) (s : State) : State := { s with time := f s.time }
def modEth (f : Eth → Eth) (s : State) : State := { s with eth := f s.eth }
def modMeas (f : Meas → Meas) (s : State) : State := { s with meas := f s.meas }
def modMeter (f : Meter → Meter) (s : State) : State := { s with meter := f s.meter }
def modBr (f : Bracken → Bracken) (s : State) : State := { s with bracken := f s.bracken }
def modHost (f : HostIf → HostIf) (s : State) : State := { s with host := f s.host }
def modTherm (f : Therm → Therm) (s : State) : State := { s with therm := f s.therm }
def modPower (f : Power → Power) (s : State) : State := { s with power := f s.power }

/-- Apply f where b holds. -/
def onlyIf (b : Bool) (f : State → State) (s : State) : State := if b then f s else s

/-- A quotient whose rounding the spec does not state: one of the two neighbouring integers. -/
def freeDiv (site : Nat) (n : Int) (d : Nat) : Int :=
  n / d + (if n % d ≠ 0 ∧ Config.roundUp site n d = true then 1 else 0)

/-! Interrupts. -/

/-- A vector becomes pending: it takes its stamp unless one is still held, and sends its message or sets its PBA bit
(R277, R343, R344). -/
def vecRaise (v : Nat) (s : State) : State :=
  let held := s.time.stampHeld.testBit v
  let s1 := if held then s else
    wr (0x50808 + 16 * v) (wd (s.time.sec / 2 ^ 32))
      (wr (0x50804 + 16 * v) (wd s.time.sec) (wr (0x50800 + 16 * v) (wd s.time.ns) s))
  let s2 := modTime (fun t => { t with stampHeld := t.stampHeld ||| 2 ^ v }) s1
  let sends := s2.host.msixOn && !(bit (rd s2 (aMsixCtl v)) 0)
  modHost (fun h => { h with
    vecPend := h.vecPend ||| 2 ^ v
    pba := if sends then h.pba else h.pba ||| 2 ^ v
    msgs := if sends then tmod dZero h.msgs v (· + 1) else h.msgs }) s2

/-- The event of interrupt source n (R342, R343, R345). -/
def irq (n : Nat) (s : State) : State :=
  let r := n / 32
  let b := n % 32
  let old := bit (rd s (aSrcStatus r)) b
  let s1 := orWord (aSvc (0x30 + 4 * r)) (wd (2 ^ b)) (orWord (aSrcStatus r) (wd (2 ^ b)) s)
  if bit (rd s1 (aSrcEn r)) b then
    let v := fld (rd s1 (aSrcRoute n)) 0 6
    if s1.host.vecPend.testBit v then
      orWord (aStampOvr (v / 32)) (wd (2 ^ (v % 32))) s1
    else if old then s1 else vecRaise v s1
  else s1

/-- Set the sticky bits of mask m at address a; the interrupt source has its event if a bit goes from 0 to 1. -/
def stick (a m : Nat) (src : Option Nat) (s : State) : State :=
  let old := rd s a
  let new := old ||| wd m
  let s1 := orWord a (wd m) s
  match src with
  | some n => if new = old then s1 else irq n s1
  | none => s1

/-- A counter that saturates at 0xFFFF_FFFF. -/
def cntSat (a n : Nat) (s : State) : State := wr a (satInc (rd s a) n) (noteEvent a (satInc · n) s)

/-- A counter whose value past 0xFFFF_FFFF the spec does not state. -/
def cntUp (a n : Nat) (s : State) : State :=
  let v := (rd s a).toNat + n
  wr a (if v < 2 ^ 32 then wd v else Config.cntOver a v) (noteEvent a (satInc · n) s)

/-- Entry of the event log (R357): the ring's next entry takes CODE, ARG and the counter's time. -/
def logEv (code : Nat) (arg : Nat) (s : State) : State :=
  modHost (fun h => { h with
    evlog := tset (fun _ => (0, 0, 0, 0)) h.evlog h.evHead (code, wd arg, s.time.sec, s.time.ns)
    evHead := (h.evHead + 1) % 1024 }) s

/-- A bit of CLK_STICKY sets (R99): flag, interrupt, log entry 0x0006. -/
def clkStick (b : Nat) (s : State) : State :=
  if bit (rd s aClkSticky) b then s
  else logEv 6 (2 ^ b) (stick aClkSticky (2 ^ b) (some 3) s)

def modStick (b : Nat) (s : State) : State := stick aModSticky (2 ^ b) (some 102) s
def convStick (b : Nat) (s : State) : State := stick aConvSticky (2 ^ b) (some 103) s
def timeStick (b : Nat) (s : State) : State := stick aTimeSticky (2 ^ b) (some 104) s
def gorseStick (b : Nat) (s : State) : State := stick aGorseSticky (2 ^ b) none s
def meterStick (b : Nat) (s : State) : State := stick aMeterSticky (2 ^ b) (some 113) s
def globalStick (b : Nat) (s : State) : State := stick aGlobalSticky (2 ^ b) (some 117) s
def dmkFlag (b : Nat) (s : State) : State := stick aDmkFlags (2 ^ b) none s
def opqFlag (b : Nat) (s : State) : State := stick aOpqSticky (2 ^ b) none s
def pwrFlag (b : Nat) (s : State) : State := stick aPwrSticky (2 ^ b) none s
def thermStick (b : Nat) (s : State) : State := stick aThermSticky (2 ^ b) (some 115) s
def monStick (b : Nat) (s : State) : State := stick aMonSticky (2 ^ b) (some 116) s
def muStick (u b : Nat) (s : State) : State := stick (aMu u 0x0C) (2 ^ b) (some (86 + u)) s
/-- BR_STICKY lies in Bracken's own domain (R323, R332): it survives the main domain's resets. -/
def brStick (b : Nat) (s : State) : State :=
  let old := tget regReset s.bracken.regs aBrSticky
  let new := old ||| wd (2 ^ b)
  let s1 := modBr (fun r => { r with regs := tset regReset r.regs aBrSticky new }) (noteEvent aBrSticky (· ||| wd (2 ^ b)) s)
  if new = old then s1 else irq 114 s1
/-- Interrupt source of a link or port (R342). -/
def linkSrc (l : Nat) : Nat := 48 + l
def ltStick (l b : Nat) (s : State) : State := stick (aLink l 0x10) (2 ^ b) (some (linkSrc l)) s
def protoStick (l b : Nat) (s : State) : State := stick (aLink l 0x10C) (2 ^ b) (some (linkSrc l)) s

/-- CLK_STATUS bits, whose home is the register (R100). -/
def setClk (b : Nat) (v : Bool) (s : State) : State := wr aClkStatus (putFld (rd s aClkStatus) b 1 (b2n v)) s

end Sys2Proof.Machine
end

