-- ==== Sys2Proof/Machine/Spread.lean ====
section
/-! DEFINITION. The accumulated phase deviation dev(t) of the M-branch and the conversions between true time and the M-branch
(R85 to R94, R147). All instants and positions are in taps of 25 ps, exact. The frequency word takes, in each step of 10 ns, the
mean of the triangle over that step, at a width that loses nothing (DESIGN CHOICE, log entry 14). -/

namespace Sys2Proof.Machine

open Sys2Proof

def clkBit (s : State) (b : Nat) : Bool := bit (rd s aClkStatus) b
/-- REF_SRC: 0 REFCLK, 1 WZ0, 2 WZ1. -/
def refSrc (s : State) : Nat := fld (rd s aClkStatus) 8 2

/-- The integer nearest to a rational number, halves upwards. -/
def roundQ (q : Rat) : Int := (2 * q.num + q.den) / (2 * q.den)

/-- Length of a profile, in taps times RATE: 1 / (10 Hz × RATE) is 4,000,000,000 / RATE taps (R87). -/
def profLen : Nat := 4000000000

/-- The integral of the triangle over the first y of a profile, with height 1, times the profile's length: down-spread falls from
nominal to its depth and returns, centre-spread begins at its rising zero crossing (R86). y in taps times RATE. -/
def triangle (down : Bool) (y : Nat) : Int :=
  let q : Int := profLen
  let x : Int := y
  if down then (if 2 * x ≤ q then x * x else q * q / 2 - (q - x) * (q - x))
  else if 4 * x ≤ q then 2 * x * x
  else if 4 * x ≤ 3 * q then q * q / 4 - 2 * (x - q / 2) * (x - q / 2)
  else 2 * (q - x) * (q - x)

/-- dev after y taps times RATE of a run of setting c: down-spread n × 0.1 %, centre-spread ±n × 0.05 % (R86, R100). -/
def devTri (c : Word) (y : Nat) : Rat :=
  let q : Int := profLen
  let n : Int := fld c 4 3
  let k : Int := y / profLen
  let down := fld c 0 2 == 1
  let t := triangle down (y % profLen) + (if down then k * (q * q / 2) else 0)
  mkRat (if down then -(2 * n * t) else n * t) (2000 * profLen * fld c 16 16)

/-- dev t taps into a run of setting c: the word is updated every 10 ns, so dev runs straight in between (R87). -/
def devRun (c : Word) (t : Rat) : Rat :=
  if fld c 0 2 = 0 then 0
  else
    let j := (t / 400).floor.toNat
    let a := devTri c (400 * j * fld c 16 16)
    let b := devTri c (400 * (j + 1) * fld c 16 16)
    a + (b - a) * (t - 400 * j) / 400

/-- dev at true time t among runs of settings, newest first (R88, R90, R94). -/
def devOf (t : Rat) : List SscSeg → Rat
  | [] => 0
  | g :: r => if (100 * g.start : Rat) ≤ t ∨ r.isEmpty = true then g.base + devRun g.cfg (max 0 (t - 100 * g.start)) else devOf t r

/-- dev(t) (R90). -/
def devAt (s : State) (t : Rat) : Rat := devOf t s.clock.segs

/-- The position on the M-branch grid of the target tt after the boundary b, both seen d later (R90, R91): to the nearest tap
(R92 gives the quantisation as ±12.5 ps). -/
def posAfter (s : State) (d b tt : Rat) : Nat := (roundQ (tt + (devAt s (b + tt - d) - devAt s (b - d)))).toNat

/-- One-way latency d_n in taps (R148). -/
def latTaps (s : State) (l : Nat) : Rat := mkRat (link s l).dU 1600000000000

/-- The position that a cell end sees for the target tt after boundary b (R91). -/
def linkPos (s : State) (l b tt : Nat) : Nat := posAfter s (latTaps s l) b tt

/-- Coarse count and fine taps of a local edge at tt after boundary b (R90). -/
def edgePos (s : State) (b : Nat) (e : Edge) : Edge :=
  let m := posAfter s 0 b e.time
  { e with coarse := m / 16, fine := m % 16 }

/-- The clock of link l is on the M-branch: every Twill link's; Wozin ports take theirs from the U-branch (R84). -/
def linkDev (s : State) (l : Nat) (t : Rat) : Rat := if l < 36 then devAt s t else 0

/-- Position on the clock that carries link l at true time t, in taps (R90, R91). -/
def linkPhase (s : State) (l : Nat) (t : Rat) : Rat := t + linkDev s l t

/-- A time x with x = n − (dev(t + x) − dev(t)), by k steps of iteration from x = n; a step shrinks the error two hundredfold at the
least. -/
def spanIter (f : Rat → Rat) (t n : Rat) : Nat → Rat
  | 0 => n
  | k + 1 => n - (f (t + spanIter f t n k) - f t)

/-- True time that n taps of a link's clock last from instant t on (R91), by eight steps (DESIGN CHOICE, log entry 22). -/
def trueSpan (s : State) (l : Nat) (t n : Rat) : Rat := spanIter (linkDev s l) t n 8

/-! Positions within superframes (R102, R103). -/

/-- Taps of a symbol, of a superframe and of a DCK cycle at a RATE code. -/
def symTaps (r : Nat) : Nat := 640 / 2 ^ r
def frameTaps (r : Nat) : Nat := 256 * symTaps r
def dckTaps (r : Nat) : Nat := 256 / 2 ^ r

/-- Symbols of the running downstream superframe that have begun before the present tick, or begin at it. -/
def symsBegun (s : State) (l : Nat) : Nat :=
  let x := linkPhase s l (100 * s.tick) - linkPhase s l (100 * (link s l).frameAt)
  (x / symTaps (link s l).rate).floor.toNat + 1

/-- The feed-forward of an upstream receiver at true time t: dev(t) − dev(t − T), T the clock path's round trip (R107). -/
def feedForward (s : State) (l : Nat) (t : Rat) : Rat :=
  let trip := mkRat ((link s l).rttPs - (link s l).turnPs : Int) 25
  linkDev s l t - linkDev s l (t - trip)

end Sys2Proof.Machine
end

