-- ==== Sys2Proof/Machine/Ops.lean ====
section
/-! DEFINITION. The named operations that several commands share: clock groups and their members, tiles, operation
slots, DRAM, blocks and trips, records, safe stop, the restart of links, the commit of staged fields. -/

namespace Sys2Proof.Machine

open Sys2Proof

/-! Tiles and what their active planes define. -/

def planeOr (o : Option Plane) : Plane := o.getD {}

/-- The tile's active plane, idle where it has none. -/
def plane (s : State) (t : Nat) : Plane := planeOr (tile s t).active

/-- The tile has an active plane that is not idle (R48). -/
def tileLive (s : State) (t : Nat) : Bool := !(plane s t).idle

/-- The clock group of a live tile (R48). -/
def tileGroup (s : State) (t : Nat) : Option Nat := if tileLive s t then some (plane s t).cg else none

/-- The measurement group and the meter group (R252, R311). -/
def measGroup (s : State) : Option Nat := tileGroup s 18
def meterGroup (s : State) : Option Nat := tileGroup s 19

/-- The image defines Twill link l (hard cases of chapter 4). -/
def linkDefined (s : State) (l : Nat) : Bool :=
  decide (l < 36) && tileLive s (l / 9) && (plane s (l / 9)).link.defined.testBit (l % 9)

def linkGroup (s : State) (l : Nat) : Option Nat := if linkDefined s l then tileGroup s (l / 9) else none
def groupLinks (s : State) (g : Nat) : List Nat := (List.range 36).filter (fun l => linkGroup s l == some g)

/-- Content of MOD tile m; empty where it is idle. -/
def modContent (s : State) (m : Nat) : ModContent := if tileLive s (4 + m) then (plane s (4 + m)).mod else {}

/-- CHG_MAPc (R184): the clock group of channel group c, if a MOD section defines it. -/
def chgCg (s : State) (c : Nat) : Option Nat :=
  (List.range 4).findSome? (fun m => tlook (modContent s m).chgCg c)
/-- The channel groups of clock group g, as a mask (R163). -/
def chgMask (s : State) (g : Nat) : Nat := maskOf 16 (fun c => chgCg s c == some g)
/-- Switching of clock group g is enabled: the group is in service (R163). -/
def inService (s : State) (g : Nat) : Bool := (s.mod.en &&& chgMask s g) != 0

def carrierCfg (s : State) (i : Nat) : Carrier := (tlook (modContent s (i / 16)).carriers i).getD {}
def pairCfg (s : State) (p : Nat) : Option PairCfg := tlook (modContent s (p / 3)).pairs p
def cellCfg (s : State) (c : Nat) : Option CellCfg := tlook (modContent s (c / 9)).cells c
def pairGroup (s : State) (p : Nat) : Option Nat := (pairCfg s p).bind (fun c => chgCg s c.chg)
def cellGroup (s : State) (c : Nat) : Option Nat := (cellCfg s c).bind (fun k => chgCg s k.chg)
def pairOn (s : State) (p : Nat) : Bool := match pairCfg s p with | some c => s.mod.en.testBit c.chg | none => false
def cellOn (s : State) (c : Nat) : Bool := match cellCfg s c with | some k => s.mod.en.testBit k.chg | none => false

/-- A link is in service while its clock group's switching is enabled (R124, R163). -/
def linkInService (s : State) (l : Nat) : Bool :=
  match linkGroup s l with | some g => inService s g | none => false
def pairInService (s : State) (p : Nat) : Bool :=
  match pairGroup s p with | some g => inService s g | none => false

/-- Units of a CTRL tile (R185). -/
def unitCfg (s : State) (u : Nat) : UnitCfg :=
  let t := 8 + u / 2
  if tileLive s t then
    let c := (plane s t).ctrl
    let k := if u % 2 = 0 then c.even else c.odd
    if k.defined then k else {}
  else {}
def unitGroup (s : State) (u : Nat) : Option Nat := if (unitCfg s u).defined then tileGroup s (8 + u / 2) else none
def groupUnits (s : State) (g : Nat) : List Nat := (List.range 16).filter (fun u => unitGroup s u == some g)

/-! Tile states (R66, R342, R357). -/

def tileCode : TileState → Nat
  | .activeOnly => 0 | .loading => 1 | .shadowRun => 2 | .swapping => 3 | .tileFault => 4

def setTile (t : Nat) (st : TileState) (s : State) : State :=
  if (tile s t).st = st then s
  else irq 4 (logEv 4 (t + 256 * tileCode st) (modTile t (fun x => { x with st := st }) s))

/-- The shadow plane is cleared (R66, R71). -/
def clearShadow (t : Nat) (s : State) : State :=
  modTile t (fun x => { x with shadow := none, prev := false, programmed := false, cold := false, swapSet := 0,
                               srRun := 0, shVals := [] }) s

/-! Operation slots (R349 to R356). -/

def opCode : OpState → Nat
  | .empty => 0 | .queued => 1 | .running => 2 | .suspended => 3 | .completed => 4 | .cancelled => 5 | .failed => 6

def isBusy (st : OpState) : Bool := st == .queued || st == .running || st == .suspended
def handle (i : Nat) (x : Slot) : Nat := x.gen * 16 + i

/-- The interrupt event of a slot that enters a terminal state or SUSPENDED (R342, R360). -/
def opEvent (i : Nat) (s : State) : State := irq 0 (stick aOpqEvent (2 ^ i) none s)

/-- A slot enters a terminal state with its results (R355, R357). -/
def endSlot (i : Nat) (st : OpState) (res : List Word) (s : State) : State :=
  let s1 := modSlot i (fun x => { x with st := st, res := res, suspReq := false }) s
  logEv 5 (handle i (slot s1 i) + 65536 * opCode st) (opEvent i s1)

def failSlot (i code detail : Nat) (s : State) : State := endSlot i .failed [wd (code + 256 * detail), 0, 0, 0] s

/-- The slot in which an operation of this code has started and not ended. -/
def runSlot (s : State) (op : Nat) : Option Nat :=
  (List.range 16).find? (fun i => (slot s i).op == op && (slot s i).started
    && ((slot s i).st == .running || (slot s i).st == .suspended))

def param (s : State) (i n : Nat) : Word := (slot s i).ps.getD n 0

/-! DRAM (R336): addresses 0 to 0x07FF_FFFF. -/

def dramSize : Nat := 0x8000000
def dramAt (s : State) (o n : Nat) : List Byte := tgetRun dZeroB s.dram o n
def dramNat (s : State) (o n : Nat) : Nat := leNat (dramAt s o n)
def dramPut (o : Nat) (l : List Byte) (s : State) : State :=
  { s with dram := tsetRun dZeroB s.dram o (l.take (dramSize - o)) }

/-! Gate outputs (R182, R209). -/

/-- The sequence of a safe stop is in progress, so the outputs follow their commands (R36). -/
def outputsLive (s : State) : Bool := s.dev == .run || (s.dev == .safeStop && s.gorse.ssRunning)

/-- The clockless latch holds pair p: every cause but a MOD tile's fault holds every pair (R182, R183). -/
def asyncHolds (s : State) (p : Nat) : Bool :=
  s.mod.asyncBy.any (fun n => if 164 ≤ n ∧ n < 168 then n == 164 + p / 3 else true)

def pairSafe (s : State) (p : Nat) : Bool :=
  !outputsLive s || (pair s p).gorseBlock || asyncHolds s p || bit (rd s aPwrSticky) 3 || s.power.inReset

/-- Levels at the balls GHp and GLp. -/
def ghLevel (s : State) (p : Nat) : Bool := (pair s p).cmdH && !pairSafe s p
def glLevel (s : State) (p : Nat) : Bool := (pair s p).cmdL && !pairSafe s p

/-- Period in force of a clock group, in 400 ps units (R161). -/
def periodOf (s : State) (g : Nat) : Nat := (group s g).period

/-- Dead time of pair p in force, in 400 ps units. -/
def pairDt (s : State) (p : Nat) : Nat := fld (fo s (aLp p 0x0C)) 0 15

/-- The edges of a pair still to come, with those of the computed next period (R167). -/
def comingEdges (s : State) (p : Nat) : List Edge :=
  let x := pair s p
  let per := match pairGroup s p with | some g => periodOf s g | none => 0
  x.sched ++ (if x.nextReady then x.next.map (fun e => { e with time := e.time + 16 * per }) else [])

/-- Pair p is in dead time: both sides are off after a turn-off, and the next turn-on is the other side's, within the
dead time (R169, R227). -/
def inDead (s : State) (p : Nat) : Bool :=
  let x := pair s p
  match x.off with
  | none => false
  | some (hi, t) =>
    !x.cmdH && !x.cmdL && !pairSafe s p &&
      (match (comingEdges s p).find? (fun e => e.level) with
       | some e => e.high != hi && decide ((e.time : Int) ≤ t + 16 * (pairDt s p : Int))
       | none => false)

def deadMask (s : State) : Nat := maskOf 12 (inDead s)
def ghMask (s : State) : Nat := maskOf 12 (ghLevel s)
def glMask (s : State) : Nat := maskOf 12 (glLevel s)

/-! Blanking (R221): when both sides of a pair go off, blanking ends and a pending crossing is dropped. -/

def blankDrop (p : Nat) (s : State) : State :=
  let s1 := onlyIf (pair s p).pendingX.isSome (cntSat aBlankPendCnt 1) s
  modPair p (fun x => { x with blanking := false, pendingX := none }) s1

/-- After any change of levels: blanking of every pair whose two sides are off ends. -/
def settleBlank (s : State) : State :=
  forEach (List.range 12) (fun p s =>
    if (pair s p).blanking && !ghLevel s p && !glLevel s p then blankDrop p s else s) s

/-- A waveform of which nothing remains: what it carries on is that both sides are off. -/
def emptyWave (w : Wave) : Wave :=
  { n := w.n, opening := w.opening,
    closing := { w.closing with hi := false, lo := false, both := false, waitH := none, waitL := none, hiRun := 0, loRun := 0, tail := none,
                                on := false } }

/-- A pair's commands are removed: no edge of its schedule remains (R227). -/
def dropPair (p : Nat) (s : State) : State :=
  modPair p (fun x => { x with cmdH := false, cmdL := false, sched := [], next := [], nextReady := false,
                               wave := emptyWave x.wave, nextWave := emptyWave x.nextWave, off := none }) s

/-! Recorder triggers (R297): bits [9:0] of REC_TRIG in order, bit 10 for REC_FORCE. -/

/-- Size of a segment in bytes, channels stored, and instants that a segment holds (R53, R296). -/
def recSegBytes (s : State) (cfg : Word) : Nat := s.damask.recorderMib * 2 ^ 20 / 2 ^ fld cfg 20 2
def recChans (cfg : Word) : List Nat := bitsOf 16 (fld cfg 0 16)
def recInstants (s : State) (cfg : Word) : Nat := recSegBytes s cfg / (2 * (recChans cfg).length)

/-- The triggers of the mask that REC_TRIG selects reach the recorder. -/
def recTrigger (mask : Nat) (s : State) : State :=
  let cfg := fo s aRecCfg
  let m := mask &&& (0x400 ||| fld (rd s aRecTrig) 0 10)
  let g := s.meas.recSeg
  if bit cfg 26 = false ∨ m = 0 then s
  else if s.meas.recFilling then
    modMeas (fun q => { q with trigSrc := tmod dZero q.trigSrc g (· ||| m) }) s
  else
    modMeas (fun q => { q with
      recFilling := true, recPost := 0
      trigSec := tset dZero q.trigSec g s.time.sec
      trigNs := tset dZero q.trigNs g s.time.ns
      trigSrc := tset dZero q.trigSrc g m
      trigIdx := tset dZero q.trigIdx g (q.recCount % max 1 (recInstants s cfg)) }) s

/-! Standby wake (R390). -/

/-- The first wake event of the present tick. -/
def wakeNow (s : State) : Option (Nat × Nat) :=
  match s.power.wakeEv with | some (t, e) => if t = s.tick then some e else none | none => none

/-- A wake event: it is kept for an entry write of the same tick, and in standby it starts the exit (R390). -/
def wake (cause wc : Nat) (s : State) : State :=
  let s0 := if (wakeNow s).isSome then s else modPower (fun p => { p with wakeEv := some (s.tick, cause, wc) }) s
  if s.power.standby && !s.power.waking then
    modPower (fun p => { p with waking := true, wakeCause := cause, wakeWc := wc }) s0
  else s0

/-! Block runs (R136) and DCK (R105, R127). -/

/-- In a bring-up state from CLOCK_START to RATE_SWITCH (R120). -/
def inBringUp (st : LtState) : Bool :=
  st == .clockStart || st == .align || st == .capExchange || st == .check || st == .rateSwitch

/-- A block run begins on link l at the next symbol position (R136); stop: it ends in a DCK stop. One that runs goes on. -/
def startRun (stop : Bool) (l : Nat) (s : State) : State :=
  let n := symsBegun s l
  modLink l (fun x => { x with
    txBlock := true, stopDue := x.stopDue || stop, frame := if x.txBlock then x.frame else blockFrom n x.frame
    runFrames := if x.txBlock then x.runFrames else 0 }) s

/-- Start a block run on link l. Links in bring-up and loopback keep their training superframes, which hold the cell blocked (R114),
and a link that reached LINKED outside RUN gets none while the device stays outside RUN (R128). -/
def blockLink (stop : Bool) (l : Nat) (s : State) : State :=
  let x := link s l
  if x.st = .linked ∧ x.dck = true ∧ x.outside = false then startRun stop l s else s

/-- A Wozin port starts a block run of 256 symbols (R157): those left of this superframe, and the rest in the next
one. -/
def blockWz (l : Nat) (s : State) : State :=
  let x := link s l
  if x.st = .linked ∧ x.dck = true then
    let n := symsBegun s l
    modLink l (fun x => { x with wzRun := 256 + n, frame := blockFrom n x.frame }) s
  else s

/-- Range condition of R149 for link l, from the d_n of the LAT_VALID Twill links. -/
def unitsPerPs : Int := 64000000000
def latLinks (s : State) : List Nat := (List.range 36).filter (fun l => (link s l).latValid)
def latSpread (s : State) : Int :=
  match (latLinks s).map (fun l => (link s l).dU) with
  | [] => 0
  | d :: ds => (ds.foldl max d) - (ds.foldl min d)
def rangeOn (s : State) (l : Nat) : Bool :=
  (link s l).latValid &&
    (decide ((link s l).dU > 5500000 * unitsPerPs) || decide (latSpread s > 5000000 * unitsPerPs))

/-- RANGE_NOW of every Twill link; LATENCY_RANGE sets where the condition becomes present (R149). -/
def rangeUpdate (s : State) : State :=
  forEach (List.range 36) (fun l s1 =>
    let on := rangeOn s l
    let was := (link s1 l).rangeNow
    let s2 := if on == was then s1 else modLink l (fun x => { x with rangeNow := on }) s1
    if on && !was then protoStick l 1 s2 else s2) s

/-- LAT_VALID clears; LAT_LOST sets if it cleared in LINKED by a loss (R149). -/
def latClear (lost : Bool) (l : Nat) (s : State) : State :=
  if (link s l).latValid then
    let s1 := modLink l (fun x => { x with latValid := false, unstableNow := false, unstableRun := 0, ests := [],
                                           echoMiss := 0 }) s
    let s2 := if lost && (link s1 l).st == .linked then protoStick l 3 s1 else s1
    rangeUpdate s2
  else s

/-- The device stops DCK on link l (R105, R127): UP_LOCK and LAT_VALID clear, and nothing is counted as lost. -/
def dckOff (l : Nat) (s : State) : State :=
  latClear false l (modLink l (fun x => { x with
    dck := false, upLock := false, markerRun := 0, txBlock := false, stopDue := false, rxSeq := none, frame := [],
    tSum := 0, tauSum := 0, tCnt := 0, echoMiss := 0 }) s)

/-- DCK restarts at the link's rate (R127): a new superframe begins, the launch offset is set again at acquisition. A Twill link
whose drivers the clockless latch forces low stays stopped (R183). -/
def dckOn (l : Nat) (s : State) : State :=
  if s.mod.edgeLow && decide (l < 36) then s
  else modLink l (fun x => { x with dck := true, txBlock := false, stopDue := false, rxSeq := none, launchOfs := 0, frame := [] }) s

/-! Single-channel timer (R217). -/

def auxTag (s : State) (ch : Nat) : Word := (plane s (16 + ch)).auxTag
/-- GORSE_TAG_SPLIT (R77). -/
def tagSplit (s : State) : Bool := tileLive s 16 && tileLive s 17 && auxTag s 0 != auxTag s 1
def bothVote (s : State) : Bool := s.gorse.voteA && s.gorse.voteB && auxTag s 0 == auxTag s 1
def scRuns (s : State) : Bool := (s.gorse.voteA != s.gorse.voteB) || tagSplit s

/-- The level of a source whose level stands in SRC_LIVE (R207). -/
def setLive (n : Nat) (b : Bool) (s : State) : State :=
  modGorse (fun g => { g with live := if g.live.testBit n == b then g.live else g.live ^^^ 2 ^ n }) s

/-- The timer follows the votes: at zero while both channels vote with one AUX_TAG, when its limit has not expired (R207,
R217). -/
def scUpdate (s : State) : State :=
  if bothVote s then setLive 192 false (modGorse (fun g => { g with scAcc := 0, scFrom := none }) s)
  else if scRuns s then
    (if s.gorse.scFrom.isSome then s else modGorse (fun g => { g with scFrom := some s.tick }) s)
  else
    match s.gorse.scFrom with
    | some t => modGorse (fun g => { g with scAcc := g.scAcc + (s.tick - t), scFrom := none }) s
    | none => s

/-- Ticks that the single-channel timer has counted. -/
def scTicks (s : State) : Nat :=
  s.gorse.scAcc + (match s.gorse.scFrom with | some t => s.tick - t | none => 0)

/-! Sources (R207). -/

/-- The flags of a link that LINK_FAULT may take, in the order of FILT's selection (R237). -/
def linkFaultFlags (s : State) (l : Nat) : Nat :=
  let lt := rd s (aLink l 0x10)
  let pr := rd s (aLink l 0x10C)
  b2n (bit lt 0) + 2 * b2n (bit lt 2) + 4 * b2n (bit lt 1) + 8 * b2n (bit lt 3)
    + 16 * b2n (bit pr 0) + 32 * b2n (bit pr 3) + 64 * b2n (bit pr 1) + 128 * b2n (bit pr 4)

def gorseContent (s : State) (ch : Nat) : GorseContent :=
  if tileLive s (16 + ch) then (plane s (16 + ch)).gorse else {}
def filtOf (s : State) (ch n : Nat) : FiltDesc := (tlook (gorseContent s ch).filt n).getD {}
def votes (s : State) (ch : Nat) : Bool := if ch = 0 then s.gorse.voteA else s.gorse.voteB

/-- The tile's active plane is faulted: it is in TILE-FAULT, or under a reload from there (R66, R79). -/
def tileFaulted (s : State) (t : Nat) : Bool :=
  let x := tile s t
  x.st == .tileFault || ((x.st == .loading || x.st == .shadowRun || x.st == .swapping) && x.before == .tileFault)

/-- Live level of a source (R207, SRC_LIVE). B sources and BRK_OVERTIME and MEAS_COND stand in `live`. -/
def srcLive (s : State) (n : Nat) : Bool :=
  if n < 12 then (pair s n).dsatPin
  else if n < 36 then (let c := cmp s (n - 12); c.above || c.below)
  else if n < 72 then s.gorse.live.testBit n
  else if n < 108 then
    (linkFaultFlags s (n - 72) &&& ((filtOf s 0 n).sel ||| (filtOf s 1 n).sel)) != 0
  else if n < 144 then (link s (n - 108)).cellFault
  else if n < 160 then (munit s (n - 144)).lateRun == 3
  else if n < 180 then (tile s (n - 160)).st == .tileFault
  else if n = 195 then bit (rd s aClkSticky) 4
  else if n = 196 then bit (rd s aClkSticky) 0
  else if 200 ≤ n ∧ n < 208 then (chan s (n - 200)).overLim
  else if 208 ≤ n ∧ n < 212 then s.therm.dieOver.testBit (n - 208)
  else s.gorse.live.testBit n

/-- B sources (R207). -/
def isB (n : Nat) : Bool :=
  decide (n < 12) || (decide (36 ≤ n) && decide (n < 72)) || (decide (168 ≤ n) && decide (n < 176)) || n == 178
    || (decide (180 ≤ n) && decide (n < 195)) || n == 197

/-- The action vector of a source in a channel (R212). -/
def tmOf (s : State) (ch n : Nat) : Nat := ((tlook (gorseContent s ch).tm n).getD 0).toNat
def actOf (s : State) (ch a : Nat) : ActDesc := (tlook (gorseContent s ch).act a).getD {}
/-- The descriptors of the actions of a vector. -/
def actsOf (s : State) (ch v : Nat) : List ActDesc := (bitsOf 32 v).map (actOf s ch)

/-- A number that R207 gives to a C source. -/
def isC (n : Nat) : Bool := !isB n && n != 199 && decide (n < 244)
def measCond (n : Nat) : Bool := decide (212 ≤ n) && decide (n < 244)
/-- A comparator's source is masked while its self-test runs (R232). -/
def srcMasked (s : State) (n : Nat) : Bool := decide (12 ≤ n) && decide (n < 36) && s.conv.stTested.testBit (n - 12)

def setBit (v n : Nat) (b : Bool) : Nat := if v.testBit n == b then v else v ^^^ 2 ^ n

/-- A channel holds source n as asserted: a C source by its filter, a B source by its level (R207, R208). -/
def chanHolds (s : State) (ch n : Nat) : Bool :=
  if isB n then srcLive s n else isC n && (if ch = 0 then s.gorse.inA else s.gorse.inB).testBit n

/-- The action vector of a channel: the OR of the vectors of all asserted sources (R212). -/
def chanVec (s : State) (ch : Nat) : Nat :=
  (List.range 256).foldl (fun v n => if chanHolds s ch n then v ||| tmOf s ch n else v) 0

/-- BS_STRING_MAP entry of a link (R211, R237). -/
def stringOf (s : State) (l : Nat) : Nat := fld (rd s (aStringMap (l / 8))) (4 * (l % 8)) 4
def stringMask (s : State) (l : Nat) : Nat := maskOf 36 (fun k => stringOf s k == stringOf s l)

/-! Device state (R34). -/

def devCode : DevState → Nat
  | .configWait => 0 | .run => 1 | .safeStop => 2 | .tripped => 3

/-- DEVICE_STATE changes: interrupt 2 and log entry 0x0002 (R342, R357). -/
def setDev (d : DevState) (s : State) : State :=
  if s.dev = d then s
  else irq 2 (logEv 2 (devCode d + 256 * devCode s.dev) { s with dev := d })

/-- Entry to RUN (R34, R127, R346, R403): ramps end, blocks end, DCK restarts on every LINKED link whose DCK is
stopped, and at the first entry the RWL registers lock and the watchdogs start. -/
def enterRun (s : State) : State :=
  let first := !s.gorse.everRun
  let s1 := modGorse (fun g => { g with everRun := true, ramps := [], blockActive := false }) s
  let s2 := if first then modHost (fun h => { h with hostKickAt := s.tick, svcKickAt := s.tick }) s1 else s1
  let s3 := forEach (List.range 36) (fun l s =>
    let x := link s l
    let keep := s.mod.tileSafe.testBit (l / 9)
    let s' := if x.st = .linked ∧ x.dck = false then dckOn l s else s
    modLink l (fun y => { y with
      gorseBlock := false, txBlock := keep && y.st == .linked, stopDue := false, outside := false
      blk := y.blk || y.txBlock }) s') s2
  let s4 := forEach (List.range 12) (fun p s =>
    if (pair s p).gorseBlock then modPair p (fun x => { x with gorseBlock := false }) s else s) s3
  setDev .run s4

/-! Trip records (R236). -/

/-- LAYER of a record. -/
def layerOf (bs a b : Bool) : Nat :=
  match bs, a, b with
  | true, false, false => 0 | true, true, false => 4 | true, false, true => 5 | true, true, true => 6
  | false, true, false => 1 | false, false, true => 2 | false, true, true => 3
  | false, false, false => 7

/-- The pairs whose blanking runs, and the stamps of their pending crossings (R221). -/
def blankings (s : State) : Tbl (Option (Nat × Nat)) :=
  ((List.range 12).filter (fun p => (pair s p).blanking)).map (fun p => (p, (pair s p).pendingX))

/-- What held at the start of this tick, for records (R226, R227). -/
def snap (s : State) : State :=
  if s.gorse.snapTick = some s.tick then s
  else modGorse (fun g => { g with snapTick := some s.tick, snapState := s.dev, snapDt := deadMask s,
                                   snapH := ghMask s, snapL := glMask s, snapBlank := blankings s }) s

/-- The pair of a source, 12 or above for none (R227). -/
def srcPair (s : State) (n : Nat) : Nat :=
  if n < 12 then n
  else if n < 36 then (if s.gorse.voteA then (filtOf s 0 n).pair else (filtOf s 1 n).pair)
  else 15

/-- DETAIL (R236). -/
def srcDetail (s : State) (n : Nat) : Nat :=
  if n < 12 then b2n (s.gorse.snapH.testBit n) + 2 * b2n (s.gorse.snapL.testBit n)
  else if n < 36 then (if (cmp s (n - 12)).lastHigh then 1 else 2)
  else if n < 72 then fld (link s (n - 36)).rpt2 0 8
  else if 108 ≤ n ∧ n < 144 then fld (link s (n - 108)).rpt2 0 8
  else 0

def recWord (s : State) (r w : Nat) : Word := tget dZeroW s.gorse.recs (8 * r + w)

/-- Records of the running trip event that bear this tick (R226). -/
def sameTick (s : State) : List Nat :=
  (List.range 32).filter (fun r => s.gorse.recUsed.testBit r && (tlook s.gorse.recTick r == some s.tick)
    && s.gorse.eventOpen && fld (recWord s r 7) 0 16 == s.gorse.tripId % 65536)

/-- Write a trip record: source, layer, action, links and pairs held by its response, stamp of a pending crossing. -/
def record (n layer action links pairs : Nat) (blank : Option (Nat × Nat)) (s0 : State) : State :=
  let s := snap s0
  let fresh := !s.gorse.eventOpen
  let s1 := if fresh then
      cntSat aTripCnt 1 (modGorse (fun g => { g with eventOpen := true, eventTick := s.tick,
                                                     tripId := (g.tripId + 1) % 65536 }) s)
    else s
  let r := s1.gorse.recHead
  let same := (sameTick s1).filter (· != r)
  let sec := match blank with | some (a, _) => a | none => s.time.sec
  let ns := match blank with | some (_, b) => b | none => s.time.ns
  let w0 := s1.gorse.recSeq % 65536 + 65536 * n + 2 ^ 24 * layer + 2 ^ 27 * action
  let w3 := (sec / 2 ^ 32) % 65536 + 65536 * devCode s.gorse.snapState + 2 ^ 19 * b2n (!same.isEmpty)
    + 2 ^ 20 * b2n (s.gorse.snapDt.testBit (srcPair s n)) + 2 ^ 21 * b2n blank.isSome
    + 2 ^ 22 * b2n (s1.gorse.eventTick == s.tick)
  let w5 := (links / 2 ^ 32) % 16 + 65536 * (pairs % 4096)
  let w6 := s.gorse.snapDt + 65536 * srcDetail s n
  let ws := [wd w0, wd (ns % 2 ^ 30), wd sec, wd w3, wd links, wd w5, wd w6, wd s1.gorse.tripId]
  let s2 := onlyIf (s1.gorse.recUsed.testBit r && !s1.gorse.recRead.testBit r) (gorseStick 6) s1
  let s3 := modGorse (fun g => { g with
    recs := tsetRun dZeroW g.recs (8 * r) ws
    recTick := tset dZero g.recTick r s.tick
    recUsed := g.recUsed ||| 2 ^ r
    recRead := if g.recRead.testBit r then g.recRead ^^^ 2 ^ r else g.recRead
    recHead := (r + 1) % 32
    recSeq := g.recSeq + 1 }) s2
  let s4 := forEach same (fun q s => modGorse (fun g => { g with
    recs := tset dZeroW g.recs (8 * q + 3) (recWord s q 3 ||| wd (2 ^ 19)) }) s) s3
  let s5 := logEv 1 (s1.gorse.recSeq % 65536 + 65536 * s1.gorse.tripId) s4
  wake 5 0 (recTrigger 2 (irq 1 s5))

/-! Responses. -/

/-- The clockless latch takes a cause and sets ASYNC_SAFE (R183). -/
def asyncSet (n : Nat) (s : State) : State :=
  modStick 6 (modMod (fun m => { m with asyncSafe := true,
                                        asyncBy := if m.asyncBy.contains n then m.asyncBy else n :: m.asyncBy }) s)

/-- Every channel-group enable clears (R163): in force, staged, and taken in for the coming boundary. -/
def clearEnables (s : State) : State :=
  forEach (List.range 8) (fun g s =>
    if (group s g).takenEn = (0, 0) then s else modGroup g (fun x => { x with takenEn := (0, 0) }) s)
    (modMod (fun m => { m with en := 0, enStaged := 0, enDirty := 0 }) s)

/-- The safe state of R36 on pairs and links: pairs low, a block run with DCK to stop on every link, BLK = 1. -/
def applySafe (s : State) : State :=
  let s1 := forEach (List.range 12) dropPair s
  forEach (List.range 36) (fun l s =>
    blockLink true l (if (link s l).blk then s else modLink l (fun x => { x with blk := true }) s)) s1

/-- The safe state of the clock monitor (180) and the debug halt (194), in every device state (R182, R183): the latch is set and the
pairs are low. Every Twill link whose DCK runs sends a block run that ends in a DCK stop; where EDGE_CLK is gone, edge, its DCK and DDT
are forced low at once. -/
def safeRow (n : Nat) (edge : Bool) (s : State) : State :=
  let s1 := modMod (fun m => { m with edgeLow := m.edgeLow || edge }) (asyncSet n (snap s))
  settleBlank (forEach (List.range 36) (fun l s =>
    if (link s l).dck = false then s else if edge then dckOff l s else startRun true l s) s1)

/-- No safe-stop sequence runs. -/
def ssClear (g : Gorse) : Gorse :=
  { g with ssRunning := false, ssSteps := [], ssWaiting := false, ssArmed := false, ssReady := false }

/-- Entry to TRIPPED from RUN or SAFE-STOP (R34, R36, R163, R210). -/
def tripEnter (n : Nat) (s : State) : State :=
  if s.dev = .run ∨ s.dev = .safeStop then
    let s1 := applySafe (asyncSet n (snap s))
    let s2 := forEach [36, 37] blockWz s1
    let s3 := modGorse ssClear (clearEnables s2)
    settleBlank (setDev .tripped s3)
  else s

/-- The sequence ends: enables clear and the outputs take the safe state (R163, R220, R402). -/
def ssEnd (s : State) : State :=
  let s1 := modGorse ssClear s
  settleBlank (applySafe (asyncSet 256 (clearEnables s1)))

/-- Channel groups of group g whose enable a cutoff has taken in and which are not in force. -/
def freshEn (s : State) (g : Nat) : Nat := (group s g).takenEn.2 &&& (0xFFFF ^^^ (s.mod.en &&& 0xFFFF))

/-- Entry to SAFE-STOP clears every enable but those in force (R163, R220): one taken in for the coming boundary goes, with the
edges computed for it. -/
def dropFresh (s : State) : State :=
  let f := (List.range 8).foldl (fun m g => m ||| freshEn s g) 0
  if f = 0 then s
  else
    let s1 := forEach (List.range 8) (fun g s => modGroup g (fun x => { x with takenEn := (x.takenEn.1, x.takenEn.2 &&& s.mod.en) }) s) s
    let s2 := forEach ((List.range 12).filter (fun p => match pairCfg s p with | some k => f.testBit k.chg | none => false))
      (modPair · (fun x => { x with next := [], nextWave := emptyWave x.nextWave })) s1
    forEach ((List.range 36).filter (fun c => match cellCfg s c with | some k => f.testBit k.chg | none => false))
      (fun c s => modVCell c (fun x => { x with nextWaves := [], levels := 0 }) (modLink c (fun x => { x with blk := true }) s)) s2

/-- Entry to SAFE-STOP from RUN (R220). -/
def enterSafeStop (s : State) : State :=
  if s.dev = .run then
    let c := if s.gorse.voteA then gorseContent s 0 else gorseContent s 1
    let s1 := setDev .safeStop s
    let s2 := dropFresh (modMod (fun m => { m with enStaged := 0, enDirty := 0 }) s1)
    let s3 := modGorse (fun g => { g with ssRunning := true, ssSteps := c.steps, ssStep := 0, ssAt := s.tick,
                                          ssMaxMs := c.ssMaxMs, ssWaiting := false, ssArmed := false, ssReady := false }) s2
    if c.steps.isEmpty then ssEnd s3 else s3
  else s

/-- BLOCK (R211, R214): block runs on the links, pairs held low; latches in every device state until a qualifying EN edge. -/
def blockAct (links pairs : Nat) (s : State) : State :=
  let s1 := forEach (bitsOf 36 links) (fun l s =>
    blockLink false l (modLink l (fun x => { x with gorseBlock := true }) s)) s
  let s2 := forEach (bitsOf 12 pairs) (fun p s => modPair p (fun x => { x with gorseBlock := true }) s) s1
  settleBlank (modGorse (fun g => { g with blockActive := true }) s2)

def isWdogOrSs (n : Nat) : Bool := n == 183 || n == 184 || n == 186 || n == 187

/-- A source asserts at the fabric (R210 to R214, R236): bs, the fixed backstop takes it; va and vb, the action
vectors of channels A and B that vote; again, its NOTIFY action was asserted before. One record, the latch, then the
responses. -/
def fabric (n : Nat) (bs : Bool) (va vb : Nat) (again : Bool) (blank : Option (Nat × Nat)) (s0 : State) : State :=
  let s := snap s0
  let acts := actsOf s 0 va ++ actsOf s 1 vb
  let has := fun c => acts.any (fun d => d.cls == c)
  let k3 := bs && decide (36 ≤ n) && decide (n < 72) && bit (rd s aBsCfg) 0
  let bsTrip := bs && !isWdogOrSs n && !k3
  let wantTrip := bsTrip || has .trip
  let wantSs := (bs && isWdogOrSs n) || has .safeStop
  let live := s.gorse.snapState == .run || s.gorse.snapState == .safeStop
  let bl := (acts.filter (fun d => d.cls == .block)).foldl (fun m d => m ||| d.links) 0
    ||| (if k3 then stringMask s (n - 36) else 0)
  let bp := (acts.filter (fun d => d.cls == .block)).foldl (fun m d => m ||| d.pairs) 0
  let latching := bs || has .trip || has .safeStop || has .block
  let latched := s.gorse.latch.testBit n
  if !latching && !has .notify then s0
  else
    let v := va ||| vb
    let action := (bitsOf 32 v).headD 0
    let links := if !live then 0 else if wantTrip then 2 ^ 36 - 1 else bl
    let pairs := if !live then 0 else if wantTrip then 0xFFF else bp
    let s1 := onlyIf ((latching && !latched) || (has .notify && !again))
      (record n (layerOf bs (va != 0) (vb != 0)) action links pairs blank) s
    let s2 := if latching then modGorse (fun g => { g with latch := g.latch ||| 2 ^ n }) s1 else s1
    let s3 := if has .block || k3 then blockAct bl bp s2 else s2
    if wantTrip then tripEnter n s3
    else if wantSs then enterSafeStop s3 else s3

/-- The channels compare their vectors while both are ACTIVE-ONLY or under a reload and their active planes carry one AUX_TAG
(R215, R77). -/
def xchkOn (s : State) : Bool :=
  tileLive s 16 && tileLive s 17 && auxTag s 0 == auxTag s 1 && !tileFaulted s 16 && !tileFaulted s 17

/-- The cross-check, where n asserts in this cycle, be it as a pulse (R215). A difference that stands counts once, at the cycle
in which it arises (DESIGN CHOICE, log entry 135). -/
def xchk (n : Nat) (s : State) : State :=
  let va := chanVec s 0 ||| (if isB n then tmOf s 0 n else 0)
  let vb := chanVec s 1 ||| (if isB n then tmOf s 1 n else 0)
  if xchkOn s && va != vb && s.gorse.mismatch != some (va, vb) then
    gorseStick 2 (cntSat aXchkCnt 1 (modGorse (fun g => { g with mismatch := some (va, vb) }) s))
  else s

/-- A B source asserts (R210). A pulse request for a safe stop in TRIPPED or SAFE-STOP is only logged (R35). -/
def bAssert (n : Nat) (blank : Option (Nat × Nat)) (s : State) : State :=
  if (n = 186 ∨ n = 187) ∧ (s.dev = .tripped ∨ s.dev = .safeStop) then logEv 3 n s
  else fabric n true (if s.gorse.voteA then tmOf s 0 n else 0) (if s.gorse.voteB then tmOf s 1 n else 0) false
    blank (xchk n s)

/-- A level B source rises. -/
def bRise (n : Nat) (s : State) : State := bAssert n none (setLive n true s)

/-! Meter records (R318). -/

/-- The bytes 0x000 to 0xC3F of a record (R318). -/
def recBody (r : MeterRec) : List Byte :=
  leBytes 4 0x52544D45 ++ leBytes 2 1 ++ leBytes 2 r.kind ++ leBytes 8 r.seq ++ leBytes 4 r.latchSeq ++ leBytes 4 r.flags
    ++ leBytes 6 r.sec ++ leBytes 2 0 ++ leBytes 4 r.ns ++ leBytes 4 r.clearCnt ++ leBytes 4 r.buildId.toNat ++ leBytes 20 0
    ++ (List.range 192).flatMap (fun q => leBytes 12 (tget dZero r.acc q) ++ leBytes 4 (tget dZero r.wrap q))

/-- A valid record: its MAGIC and VERSION are those of R318, and its CRC has been written and is right. -/
def recValid (r : MeterRec) : Bool := r.crc == some (crc32 (recBody r))

/-- A record goes into slot REC_SEQ mod 32: a PERIODIC record holds the accumulators as latched, every other kind the
running ones (R318 to R320); FLAGS holds the quality of its interval. -/
def meterRecord (kind : Nat) (s : State) : State :=
  let m := s.meter
  let q := m.recSeq + 1
  let per := decide (kind = 1)
  let stamp := if s.time.servo = .freeRun ∨ s.time.servo = .refLost then 32 else 0
  let flags := (if per then m.latchQual else m.runQual ||| stamp) % 128 + 256 * b2n m.pfwLow + 512 * b2n m.noFinal
  let r : MeterRec := { kind := kind, seq := q, latchSeq := m.latchSeq, flags := flags, sec := s.time.sec,
                        ns := s.time.ns, clearCnt := m.clearCnt, buildId := (plane s 19).buildId,
                        acc := if per then m.energy else m.acc, wrap := if per then m.energyWrap else m.wrap }
  modMeter (fun m => { m with
    recs := tset (fun _ => {}) m.recs (q % 32) { r with crc := some (crc32 (recBody r)) }
    recSeq := q, recShown := q, noFinal := false }) s

/-! Loads and swaps that end (R66, R70, R76). -/

/-- The swap ends; its results are the periods counted and the mismatching periods (R356). -/
def endSwap (st : OpState) (code detail : Nat) (s : State) : State :=
  match s.damask.swap with
  | none => s
  | some w =>
    endSlot w.slot st [wd (code + 256 * detail), wd w.count, wd w.bad, 0]
      (modDamask (fun d => { d with swap := none }) s)

def failSwap (code t : Nat) (s : State) : State := endSwap .failed code t s

/-- The running swap fails if it names tile t. -/
def failSwapOf (code t : Nat) (s : State) : State :=
  match s.damask.swap with
  | some w => if w.mask.testBit t then failSwap code t s else s
  | none => s

/-- The tiles of the load that it has touched go back to their state before it, shadow planes cleared. -/
def undoLoad (s : State) : State :=
  match s.damask.load with
  | none => s
  | some ld =>
    let s1 := forEach (ld.done ++ ld.todo.take 1) (fun t s =>
      let x := tile s t
      if x.st = .loading then setTile t x.before (clearShadow t s)
      else if x.st = .shadowRun ∧ ld.done.contains t = true then setTile t x.before (clearShadow t (failSwapOf 0x16 t s))
      else s) s
    modDamask (fun d => { d with load := none }) s1

/-- A boot attempt fails: in mode 0b10 slot 1 is tried after slot 0 (R60, R63). -/
def bootFail (code : Nat) (s : State) : State :=
  modDamask (fun d =>
    if d.bootMode = 2 ∧ d.bootSlot = 0 ∧ code ≠ 0x18 then { d with bootCode := code, bootSlot := 1, qspiBusy := true }
    else { d with bootCode := code, qspiBusy := false }) s

/-- The running load fails with a code and a tile, 0xFF for none; a load in CONFIG-WAIT reports in BOOT_STATUS too. -/
def failLoad (code t : Nat) (s : State) : State :=
  match s.damask.load with
  | none => s
  | some ld =>
    let s1 := undoLoad s
    match ld.slot with
    | some i => failSlot i code t (if s.dev = .configWait then modDamask (fun d => { d with bootCode := code }) s1 else s1)
    | none => bootFail code s1

/-- A Gorse partner is lost (R76): the reload of the other channel is abandoned. -/
def partnerLost (t : Nat) (s : State) : State :=
  let x := tile s t
  if x.st = .loading ∨ x.st = .shadowRun then
    let s1 := match s.damask.load with
      | some ld => if (ld.done ++ ld.todo.take 1).contains t then failLoad 0x14 t s else s
      | none => s
    let s2 := failSwapOf 0x14 t s1
    if (tile s2 t).st = .loading ∨ (tile s2 t).st = .shadowRun then
      setTile t (if x.st = .loading then x.before else .activeOnly) (clearShadow t s2)
    else s2
  else s

/-- A channel is withdrawn from voting (R216): never a trip, unless it was the last. -/
def withdraw (ch : Nat) (s : State) : State :=
  if votes s ch then
    let s1 := modGorse (fun g => if ch = 0 then { g with voteA := false } else { g with voteB := false }) s
    let s2 := scUpdate (partnerLost (17 - ch) (gorseStick ch s1))
    if !s2.gorse.voteA && !s2.gorse.voteB then bRise 193 s2 else s2
  else s

/-- A channel votes from now on. -/
def vote (ch : Nat) (s : State) : State :=
  scUpdate (setLive 193 false (modGorse (fun g => if ch = 0 then { g with voteA := true, joinA := false }
    else { g with voteB := true, joinB := false }) s))

/-- FAILED with a code: DCK stops (R120). -/
def linkFail (c : FailCode) (l : Nat) (s : State) : State :=
  modLink l (fun x => { x with st := .failed, fail := c, stage := .idle, upLock := false, dck := false, frame := [],
                               txBlock := false, stopDue := false, checkOn := false, fallback := false }) s

/-- A tile enters TILE-FAULT and its response acts (R47, R66, R78, R127, R312). A running TILE_SWAP that names a tile whose active
plane faults in SHADOW-RUN fails with 0x16 (R79; DESIGN CHOICE, log entry 131). -/
def tileFault (t : Nat) (s : State) : State :=
  let x := tile s t
  if x.st = .tileFault then s
  else
    let swp := x.st == .swapping
    let s1 := if swp then modTile t (fun y => { y with faultInSwap := true }) s
      else
        failSwapOf 0x16 t (clearShadow t s)
    let s2 := setTile t .tileFault s1
    match tileKind t with
    | .link => forEach ((List.range 9).map (fun j => 9 * t + j)) (fun l s =>
        let y := link s l
        if inBringUp y.st then linkFail .clock l s
        else
          let s' := if y.dck then startRun true l s else s
          if y.st = .linked then modLink l (fun z => { z with st := .disabled }) s' else s') s2
    | .mod =>
        let s3 := asyncSet (160 + t) (modMod (fun m => { m with tileSafe := m.tileSafe ||| 2 ^ (t - 4) }) s2)
        settleBlank (forEach ((List.range 9).map (fun j => 9 * (t - 4) + j)) (blockLink false) s3)
    | .ctrl => bAssert (160 + t) none s2
    | .meas => bAssert (160 + t) none s2
    | .gorse => withdraw (t - 16) s2
    | .meter =>
        let s3 := modMeter (fun m => { m with metering := false, pulse := 0, startDue := false }) s2
        meterStick 4 (meterRecord 4 s3)

/-! Commit of staged fields (R27 to R32, R171). -/

/-- The clock group to which an RWS register belongs (R171, R205, R252, R259, R301, R311, R373). -/
def rwsGroup (s : State) (a : Nat) : Option Nat :=
  let b := blockOf a
  let o := a - b.2
  match b.1 with
  | 9 =>
    if o < 0x20 then some (o / 4)
    else if 0x1000 ≤ o ∧ o < 0x1200 then
      (let c := carrierCfg s ((o - 0x1000) / 8); if c.defined then some c.cg else none)
    else if 0x2000 ≤ o ∧ o < 0x2000 + 0x20 * 12 then pairGroup s ((o - 0x2000) / 0x20)
    else if 0x4000 ≤ o ∧ o < 0x4000 + 0x100 * 36 then cellGroup s ((o - 0x4000) / 0x100)
    else none
  | 11 => measGroup s
  | 12 => measGroup s
  | 13 => meterGroup s
  | 14 => unitGroup s (o / 0x10000)
  | 16 => measGroup s
  | _ => none

/-- COEF or SHIFT window of a unit (R200). -/
def isCoef (a : Nat) : Bool :=
  let o := (a - 0x200000) % 0x10000
  decide (0x200000 ≤ a) && decide (a < 0x300000) && (hit o 0x4000 4 3584 || hit o 0x8000 4 896)
def coefUnit (a : Nat) : Nat := (a - 0x200000) / 0x10000

/-- A change of CFG-2 against the state before it waits for the next UTC second (R290). -/
def cfgMark (before s : State) : State :=
  modMeas (fun m => { m with
    cfgPending := true, cfgOld := if m.cfgPending then m.cfgOld else fo before aPmuCfg
    buildOld := if m.cfgPending then m.buildOld else (plane before 18).buildId }) s

/-- The staged writes of group g: addresses in the order written, and their values. -/
def stagedOf (s : State) (g : Nat) : List (Nat × Word) :=
  (s.dirty.filter (fun a => rwsGroup s a == some g)).map (fun a => (a, rd s a))

/-- A write of an RWS register lands in staging (R13, R28). -/
def stage (a : Nat) (v : Word) (s : State) : State :=
  let s1 := wr a v s
  { s1 with dirty := if s1.dirty.contains a then s1.dirty else s1.dirty ++ [a] }

/-- A tile of the group swaps at the group's next boundary (R30). -/
def swapDue (s : State) (g : Nat) : Bool :=
  match s.damask.swap with
  | some w => w.swapping && (bitsOf 20 w.mask).any (fun t =>
      match (tile s t).shadow with | some p => p.cg == g | none => (plane s t).cg == g)
  | none => false

/-- The PTAG of the coming boundary: bits [7:0] of its count (R138). -/
def nextTag (s : State) (g : Nat) : Nat := ((group s g).boundary + 1) % 256

/-- A write that clamped at least one field (R348): the block's count, CLAMPED with its interrupt, and CLAMP_LAST. -/
def noteClamp (svc : Bool) (a : Nat) (s : State) : State :=
  let b := blockOf a
  let s1 := wr aClampLast (wd ((a - b.2) + 2 ^ 22 * b.1 + 2 ^ 27 * b2n svc)) (cntSat (aSvc (0x100 + 4 * b.1)) 1 s)
  irq 6 (globalStick 3 s1)

/-- A restarting access of the host watchdog: it is no longer expired (R346). -/
def hostRestart (s : State) : State :=
  setLive 183 false (modHost (fun h => { h with hostKickAt := s.tick, hostExpired := false }) s)

/-- A restarting access of the service watchdog (R346). -/
def svcRestart (s : State) : State :=
  setLive 184 false (modHost (fun h => { h with svcKickAt := s.tick, svcExpired := false }) s)

/-- A registered BAR0 write restarts the host watchdog in MODE 0 (R346). -/
def hostAccess (s : State) : State := if bit (rd s aHostWdogCfg) 14 then s else hostRestart s

/-- A service transaction with a valid CRC restarts the service watchdog in MODE 0 (R346). -/
def svcAccess (s : State) : State := if bit (rd s aSvcWdogCfg) 14 then s else svcRestart s

/-- A service transaction is performed (R340). -/
def svcDone (s : State) : State := modHost (fun h => { h with svcSeq := h.svcSeq + 1 }) s

/-- A write command of the service block is a performed service transaction around its effect f (R340, R346). -/
def svcCommand (f : State → State) (s : State) : State := svcDone (f (svcAccess s))

/-! Clamps that depend on other registers (R169, R179, R347). -/

/-- Legal supply bit of a write: the declared mode where only one is declared (R179). -/
def supplyFix (bs cp want : Bool) : Bool :=
  if want then (if bs then true else if cp then false else true) else (if cp then false else if bs then true else false)

def clampState (s : State) (a : Nat) (v : Word) : Word :=
  let w := clampReg a v
  let b := blockOf a
  let o := a - b.2
  if b.1 = 9 ∧ 0x2000 ≤ o ∧ o < 0x2000 + 0x20 * 12 then
    let p := (o - 0x2000) / 0x20
    let k := (pairCfg s p).getD {}
    if o % 0x20 = 0x0C then wd (max w.toNat (min k.dtMin 25000))
    else if o % 0x20 = 0x08 then putFld w 3 1 (b2n (supplyFix k.bsPresent k.cpPresent (bit w 3)))
    else w
  else if b.1 = 9 ∧ 0x4000 ≤ o ∧ o < 0x4000 + 0x100 * 36 then
    let c := (o - 0x4000) / 0x100
    let k := (cellCfg s c).getD {}
    let cap := (link s c).partnerCap
    if o % 0x100 = 0x44 then wd (max w.toNat (min k.dtMin 25000))
    else if o % 0x100 = 0x40 then putFld w 12 1 (b2n (supplyFix (bit cap 24) (bit cap 25) (bit w 12)))
    else w
  else w

/-- A host write of v at address a counts as clamped if the clamp rule changes a field of it (R347, R348). -/
def clampSeen (a : Nat) (v : Word) (s : State) : State :=
  if clampState s a v = v &&& wd (regInfo a).mask then s else noteClamp false a s

end Sys2Proof.Machine
end

