-- ==== Sys2Proof/Machine/CellEnd.lean ====
section
/-! DEFINITION. The cell end behind a Twill link, as far as R123, R125, R137 to R146 and R153 bind it: the messages it holds,
the levels it drives, its blocked state, its faults and what it sends (rows 79 to 83, 87 to 89). -/

namespace Sys2Proof.Machine

open Sys2Proof

def modCell (l : Nat) (f : CellEnd → CellEnd) (s : State) : State := modLink l (fun x => { x with cell := f x.cell }) s

def msgTag : Msg → Nat
  | .edge t _ _ _ _ _ => t
  | .boundary t _ _ _ _ _ => t
  | .sample t _ => t
  | .supply t _ => t
  | .diag _ t => t

/-- Two copies of one message (R142), by what they govern. -/
def sameMsg : Msg → Msg → Bool
  | .edge t i _ h _ _, .edge u j _ k _ _ => t == u && i == j && h == k
  | .boundary t _ _ _ _ _, .boundary u _ _ _ _ _ => t == u
  | .sample t _, .sample u _ => t == u
  | .supply t _, .supply u _ => t == u
  | _, _ => false

/-- A message joins those held: the sets of two boundaries at once (R153), and the first copy of each message (R142). -/
def holdMsg (m : Msg) (l : List Msg) : List Msg :=
  let other := l.find? (fun x => msgTag x != msgTag m)
  if l.any (sameMsg m) then l
  else m :: l.filter (fun x => msgTag x == msgTag m || (match other with | some o => msgTag x == msgTag o | none => false))

/-- Messages reach the cell end of a LINKED link that is not under a block run (R136). -/
def cellHears (s : State) (l : Nat) : Bool := let x := link s l; x.st == .linked && x.dck && !x.txBlock

def isHalf : Msg → Bool
  | .edge _ _ _ half _ _ => half
  | _ => false

/-- A message for a boundary that has passed comes too late to act; a HALF message governs the running period (R140, R153). -/
def tooLate (c : CellEnd) (m : Msg) : Bool := !isHalf m && c.curTag == some (msgTag m)

def hear (l : Nat) (m : Msg) (s : State) : State :=
  if cellHears s l && !tooLate (link s l).cell m then modCell l (fun c => { c with held := holdMsg m c.held }) s else s

/-- A HALF message for the running period comes after its mid-period instant (hard cases of chapter 5). -/
def halfLate (c : CellEnd) (ptag : Nat) (half : Bool) : Bool := half && c.midTag == some ptag

/-- Row 79: EDGE (R140); a HALF message that comes too late is discarded, and LATE_HALF goes into the next report. -/
def doEdge (l ptag sw : Nat) (start half : Bool) (coarse fine : List Nat) (s : State) : State :=
  if sw < fld (link s l).partnerCap 8 4 then
    (if cellHears s l && halfLate (link s l).cell ptag half then modCell l (fun c => { c with lateHalf := true }) s
     else hear l (.edge ptag sw start half coarse fine) s)
  else s

def execEdge (l : TwillNo) (ptag : Byte) (sw : Fin 16) (start half : Bool) (coarse fine : List Nat) (s : State) :
    Host.Outcome State Fault Refusal := .next (doEdge l ptag.toNat sw start half coarse fine s)

/-- Row 80: BOUNDARY (R139). A valid one also ends the block of a cell that has had its clean superframes (R153). -/
def doBoundary (l ptag swMask offset ofine mid mfine : Nat) (s : State) : State :=
  let s1 := hear l (.boundary ptag swMask offset ofine mid mfine) s
  if cellHears s l then
    modCell l (fun c => { c with haveBoundary := true, blocked := c.blocked && decide (c.cleanRun < 4) }) s1
  else s1

def execBoundary (l : TwillNo) (ptag : Byte) (swMask : BitVec 12) (offset ofine mid mfine : Nat) (s : State) :
    Host.Outcome State Fault Refusal := .next (doBoundary l ptag.toNat swMask.toNat offset ofine mid mfine s)

/-- Row 81: SAMPLE (R141). -/
def doSample (l ptag offset : Nat) (s : State) : State := hear l (.sample ptag offset) s

def execSample (l : TwillNo) (ptag : Byte) (offset : BitVec 24) (s : State) : Host.Outcome State Fault Refusal :=
  .next (doSample l ptag.toNat offset.toNat s)

/-- Row 82: SUPPLY (R141). -/
def doSupply (l ptag : Nat) (boot : Bool) (s : State) : State := hear l (.supply ptag boot) s

def execSupply (l : TwillNo) (ptag : Byte) (boot : Bool) (s : State) : Host.Outcome State Fault Refusal :=
  .next (doSupply l ptag.toNat boot s)

/-- The switches stay off, which BLOCKED reports: the cell is blocked, or a fault other than CLOCK_LOSS is latched (R132, R143,
R153). -/
def cellDown (c : CellEnd) : Bool := c.blocked || c.faults % 32 != 0

/-- The cell end's answer to a DIAG: STATUS and RESULT (R144, R145). -/
def diagAnswer (cap : Word) (c : CellEnd) (op result : Nat) (causeGone : Bool) : Nat × Nat :=
  if !bit cap 26 || (op != 1 && op != 2) then (2, 0)
  else if !cellDown c then (1, 0)
  else if op = 1 then (0, result)
  else if causeGone then (0, 0) else (Config.diagCauseStays % 256, 0)

/-- Row 83: DIAG (R141, R144, R145). With REPEAT the second copy of one is not used (R142). -/
def doDiag (l op tag result : Nat) (causeGone : Bool) (s : State) : State :=
  let twice := bit (rd s (aLink l 0x100)) 0
  if !cellHears s l then s
  else if twice && (link s l).cell.diagSeen == some tag then modCell l (fun c => { c with diagSeen := none }) s
  else
    let cap := (link s l).partnerCap
    modCell l (fun c =>
      let a := diagAnswer cap c op result causeGone
      let clear := bit cap 26 && cellDown c && op == 2 && causeGone
      { c with diagOut := c.diagOut ++ [(op, tag, a.1, a.2)], diagSeen := if twice then some tag else none
               faults := if clear then 0 else c.faults, dsat := if clear then 0 else c.dsat }) s

def execDiag (l : TwillNo) (op tag : Byte) (result : BitVec 24) (causeGone : Bool) (s : State) :
    Host.Outcome State Fault Refusal := .next (doDiag l op.toNat tag.toNat result.toNat causeGone s)

/-- Every switch off; the cell end counts clean superframes afresh, and its commands act again from a boundary on (R153). -/
def cellOff (c : CellEnd) : CellEnd :=
  { c with levels := 0, blocked := true, cleanRun := 0, haveBoundary := false, started := false }

/-- Row 87: K28.6, or the loss of DCK for more than 200 ns, which discards what is held and ends a far-end loop (R125, R153). -/
def doCellBlock (l : Nat) (dckLoss : Bool) (s : State) : State :=
  modCell l (fun c =>
    if dckLoss then { cellOff c with held := [], prevEdges := [], halfEdges := [], clockLost := true, farLoop := false } else cellOff c) s

def execCellBlock (l : TwillNo) (dckLoss : Bool) (s : State) : Host.Outcome State Fault Refusal :=
  .next (doCellBlock l dckLoss s)

/-- Row 88: the cell end latches a fault of its own, and K28.3 runs for four symbols (R137). -/
def doCellFaultLatch (l faults dsat : Nat) (s : State) : State :=
  modCell l (fun c => { c with levels := 0, faults := c.faults ||| faults, dsat := c.dsat ||| dsat, k3Run := 4 }) s

def execCellFaultLatch (l : TwillNo) (faults : Byte) (dsat : BitVec 12) (s : State) :
    Host.Outcome State Fault Refusal := .next (doCellFaultLatch l faults.toNat dsat.toNat s)

/-! The levels of the switches. -/

/-- The EDGE message of switch i among some. -/
def edgeOf (i : Nat) (l : List Msg) : Option Msg := l.find? (fun m => match m with | .edge _ sw _ _ _ _ => sw == i | _ => false)

/-- Level that an EDGE message gives x taps after the boundary: START, toggled by every edge up to x; the no-edge marker toggles
nothing (R140). -/
def edgeLevel (x : Nat) : Msg → Bool
  | .edge _ _ start _ co fi =>
    let past := co.zipIdx.filter (fun p => p.1 != 0xFFFFFF && decide (16 * p.1 + fi.getD p.2 0 ≤ x))
    start != (past.length % 2 == 1)
  | _ => false

/-- Level commanded for switch i, x taps after the boundary: a HALF message governs from MID on, else the period's message, else the
switch holds the level it had (R140). -/
def commanded (c : CellEnd) (i x : Nat) : Bool :=
  let full := match edgeOf i c.prevEdges with | some m => edgeLevel x m | none => c.levels.testBit i
  match c.midAt, edgeOf i c.halfEdges with
  | some m, some h => if m ≤ x then edgeLevel x h else full
  | _, _ => full

/-- Both switches of a bridge leg are never on together (R153): where they are commanded so, both stay off (DEDUCED, log entry 83). -/
def interlocked (legs v : Nat) : Nat :=
  maskOf 12 (fun i => v.testBit i && !(legs.testBit (i / 2) && v.testBit (if i % 2 = 0 then i + 1 else i - 1)))

/-- The levels that a cell end drives x taps after the boundary of its running period (R140, R153). -/
def drivenAt (legs : Nat) (c : CellEnd) (x : Nat) : Nat :=
  if cellDown c || !c.started then 0 else interlocked legs (maskOf 12 (fun i => commanded c i x))

/-- Every edge of the period is past. -/
def periodEnd : Nat := 2 ^ 28

/-- The edges of the period that opens: those received for the switches of SW_MASK. A switch whose message is missing, and without
BOUNDARY every switch, repeats its edges of the previous period (R140, hard cases of chapter 5). -/
def periodEdges (mask : Option Nat) (es old : List Msg) : List Msg :=
  match mask with
  | some k => (bitsOf 12 k).filterMap (fun i => match edgeOf i es with | some m => some m | none => edgeOf i old)
  | none => old

/-- The boundary with this tag at the cell end: its messages act (R140, R141, R153). -/
def cellBoundary (tag : Nat) (c : CellEnd) : CellEnd :=
  let ms := c.held.filter (fun m => msgTag m == tag && !isHalf m)
  let place := ms.findSome? (fun m => match m with | .boundary _ k _ _ d f => some (k, 16 * d + f) | _ => none)
  let es := ms.filter (fun m => match m with | .edge _ _ _ _ _ _ => true | _ => false)
  let now := periodEdges (place.map (·.1)) es c.prevEdges
  let full := match place with | some p => (bitsOf 12 p.1).all (fun i => (edgeOf i es).isSome) | none => false
  let lv := maskOf 12 (fun i => match edgeOf i now with | some m => edgeLevel 0 m | none => commanded c i periodEnd)
  { c with
    levels := if cellDown c then 0 else lv
    started := !c.blocked
    prevEdges := now, halfEdges := [], curTag := some tag, midTag := none
    midAt := match place with | some p => if p.2 = 0 then none else some p.2 | none => none
    missed := if full then false else c.missed
    bootstrap := (ms.findSome? (fun m => match m with | .supply _ b => some b | _ => none)).getD c.bootstrap
    sampleAt := ms.findSome? (fun m => match m with | .sample _ o => some o | _ => none)
    held := c.held.filter (fun m => msgTag m != tag || isHalf m) }

/-- The mid-period instant at the cell end: from here HALF messages govern their switches (R140). -/
def cellMidpoint (tag : Nat) (c : CellEnd) : CellEnd :=
  { c with midTag := some tag, halfEdges := c.held.filter (fun m => msgTag m == tag), held := c.held.filter (fun m => msgTag m != tag) }

/-- Row 89: a period's commands are incomplete at its boundary: the previous edges repeat, and the second time in a row
the cell latches DOUBLE_MISS, bit 4 of FAULT (hard cases of chapter 5). -/
def doIncompletePeriod (l : Nat) (s : State) : State :=
  modCell l (fun c =>
    if c.missed then { cellOff c with cmdMiss := true, faults := c.faults ||| 16, k3Run := 4 }
    else { c with missed := true, cmdMiss := true }) s

def execIncompletePeriod (l : TwillNo) (s : State) : Host.Outcome State Fault Refusal := .next (doIncompletePeriod l s)

/-! Superframes. -/

/-- The clock has returned: CLOCK_LOSS, bit 5 of FAULT, is latched and signalled (R137, R153). -/
def clockBack (c : CellEnd) : CellEnd :=
  if c.clockLost then { c with clockLost := false, faults := c.faults ||| 32, k3Run := 4 } else c

/-- A superframe with K28.0 in symbol 1, a valid header and BLK = 0 (R153); none where its header is not valid. -/
def cleanFrame (syms : List Sym) : Option Bool :=
  match readStretch syms 3 13 with
  | .good b => some (kAt syms 1 .k28_0 && !(byteAt b 4).getLsbD 0)
  | _ => none

/-- A downstream superframe reaches the cell end (R114, R125, R153): K28.6 blocks it, and so does BLK = 1; the fourth clean one in a
row with a valid BOUNDARY releases it, and one without a valid header breaks the run. A training block starts and ends a far-end
loop. -/
def cellFrame (train : Bool) (syms : List Sym) (c0 : CellEnd) : CellEnd :=
  let c := clockBack c0
  let far := if train then (match (symBytes syms 2 16).bind blockOfBytes with | some b => b.flags.testBit 3 | none => c.farLoop) else false
  if preempted syms 0 256 then { cellOff c with farLoop := far }
  else
    match cleanFrame syms with
    | none => { c with cleanRun := 0, farLoop := far }
    | some false => { cellOff c with haveBoundary := c.haveBoundary, farLoop := far }
    | some true =>
      let n := min (c.cleanRun + 1) 4
      { c with cleanRun := n, blocked := c.blocked && !(n == 4 && c.haveBoundary), farLoop := far }

/-- Symbol 1 and FLAGS of the superframes that the cell end sends (R132, R137). -/
def cellStatus (c : CellEnd) : KCode := if c.faults = 0 then .k28_0 else .k28_3
def cellFlags (c : CellEnd) : Nat := b2n (cellDown c) + 2 * b2n (c.faults != 0)

/-- The CELL_REPORT of period tag (R143). -/
def cellReportBytes (tag vdc temp : Nat) (c : CellEnd) : List Byte :=
  leBytes 1 0x81 ++ leBytes 1 tag ++ leBytes 2 vdc ++ leBytes 2 temp
    ++ leBytes 1 (b2n c.bootstrap + 2 * b2n c.supplyOk + 4 * b2n (cellDown c) + 8 * b2n c.cmdMiss + 16 * b2n c.lateHalf)
    ++ leBytes 2 (c.dsat % 4096) ++ leBytes 1 (c.faults % 64) ++ leBytes 2 0

end Sys2Proof.Machine
end

