-- ==== Sys2Proof/Machine/Monitors.lean ====
section
/-! DEFINITION. Histogram engines: the values they take (R362, R363) and HIST_CAPTURE's end (R365, R366, row 177). -/

namespace Sys2Proof.Machine

open Sys2Proof

/-- Bin of a value (R362). -/
def histBin (origin : Int) (widthExp : Nat) (v : Int) : Nat :=
  (clampI 0 255 ((v - origin) / (2 : Int) ^ widthExp)).toNat

/-- An engine takes a value: bin, minimum, maximum, count and sum, each stopping at its limit (R362). -/
def histTake (origin : Int) (widthExp : Nat) (v : Int) (h : Hist) : Hist :=
  let b := histBin origin widthExp v
  let n := min (tget dZero h.bins b + 1) 0xFFFFFFFF
  let sum := clampI (-(2 : Int) ^ 63) (2 ^ 63 - 1) (h.sum + v)
  { h with
    bins := tset dZero h.bins b n
    min := min h.min v, max := max h.max v
    count := min (h.count + 1) (2 ^ 64 - 1)
    sum := sum, got := true
    binFull := h.binFull || decide (n = 0xFFFFFFFF)
    sumFull := h.sumFull || decide (h.sum + v ≠ sum) }

/-- The count bound of the capture that names the engines, 0 for none (R365). -/
def histBound (s : State) : Nat := match runSlot s 0x07 with | some i => (param s i 2).toNat | none => 0

/-- Engine e takes a value; it stops accepting at the count bound (R362, R365). -/
def histAccept (e : Nat) (v : Int) (s : State) : State :=
  let c := rd s (aHg e 0)
  let h0 := hist s e
  let h1 := histTake (sWord (rd s (aHg e 4))) (fld c 10 5) v h0
  let bound := histBound s
  let h2 := if bound ≠ 0 ∧ bound ≤ h1.count then { h1 with accepting := false } else h1
  let s1 := modHist e (fun _ => h2) s
  let s2 := if h1.binFull && !h0.binFull then monStick 0 s1 else s1
  if h1.sumFull && !h0.sumFull then monStick 1 s2 else s2

/-- A source produces one value (R363): every engine that selects it and accepts takes it. -/
def histFeed (src idx : Nat) (v : Int) (s : State) : State :=
  forEach ((s.therm.hists.filter (fun p => p.2.accepting)).map (·.1)) (fun e s =>
    let c := rd s (aHg e 0)
    if fld c 0 4 = src ∧ (src = 5 ∨ fld c 4 6 = idx) then histAccept e v s else s) s

/-- The engines a HIST_CAPTURE names (R365). -/
def histEngines (s : State) (i : Nat) : List Nat :=
  bitsOf 32 (param s i 0).toNat ++ (bitsOf 32 (param s i 1).toNat).map (· + 32)

end Sys2Proof.Machine
end

