-- ==== Sys2Proof/Machine/Control.lean ====
section
/-! DEFINITION. Control engine: the law and its arithmetic (R186 to R194), the latch of inputs (R189, R190, R198), the
period of a unit (R195 to R197, R202, R203), coefficient banks (R200, R201), shadow units (R72, R204), and the
dispatch lead L_g with the compute budget (R40, R151). -/

namespace Sys2Proof.Machine

open Sys2Proof

/-- A table of integers from a list, zeros left out. -/
def tblFrom (k : Nat) : List Int → Tbl Int
  | [] => []
  | v :: r => if v = 0 then tblFrom (k + 1) r else (k, v) :: tblFrom (k + 1) r
def tblOf (l : List Int) : Tbl Int := tblFrom 0 l
def iget (t : Tbl Int) (k : Nat) : Int := tget dZeroI t k

/-- A section's initial vector of n elements (R202): elements beyond the law's size are zero. -/
def initVec (n : Nat) (t : Tbl Word) : Tbl Int := tblOf ((List.range n).map (fun i => sWord (tget dZeroW t i)))

/-! Dispatch lead and budget (R40, R151). All in units of 1/64,000,000,000 ps. -/

/-- Payload groups of link l's largest per-period message set, repeats included: an EDGE message per switch and a
BOUNDARY message, each in a group of its own (R151). -/
def groupsPerPeriod (s : State) (l : Nat) : Nat :=
  (if bit (rd s (aLink l 0x100)) 0 then 2 else 1) * (fld (link s l).partnerCap 8 4 + 1)

/-- Duration of a superframe of 256 symbols at a rate code, in ps (R102, R131). -/
def frameDur (rate : Nat) : Nat := 4096000 / 2 ^ rate

def leadU (s : State) (g : Nat) : Int :=
  match (groupLinks s g).map (fun l =>
    (link s l).dU + ((ceilDiv (groupsPerPeriod s l) 8 + 1) * frameDur (link s l).rate : Nat) * unitsPerPs) with
  | [] => 0
  | d :: ds => ds.foldl max d + 64000 * unitsPerPs

/-- The period is longer than L_g plus some picoseconds (R163, R400). -/
def longerThan (s : State) (g p extraPs : Nat) : Bool :=
  decide ((p * 400 : Int) * unitsPerPs > leadU s g + extraPs * unitsPerPs)

/-- BUDGET in CORE_CLK cycles (R40, R195). -/
def budgetOf (s : State) (g p : Nat) : Int :=
  ((p * 400 - 260000 : Int) * unitsPerPs - leadU s g) / (2500 * unitsPerPs)

/-! The law (R186, R193, R194). -/

/-- One product, rounded to nearest, half upwards, by its shift (R193). -/
def term (c : Int) (sh : Nat) (v : Int) : Int :=
  if sh = 0 then c * v else (c * v + (2 : Int) ^ (sh - 1)) / (2 : Int) ^ sh

structure Law where
  n : Nat := 0
  m : Nat := 0
  p : Nat := 0
  q : Nat := 0
  coef : Nat → Int
  shift : Nat → Nat
  umin : Nat → Int
  umax : Nat → Int

def sumOf (l : List Nat) (f : Nat → Int) : Int := l.foldl (fun a j => a + f j) 0

/-- Σ of the terms of row i at word base + stride i + j. -/
def rowSum (w : Law) (base stride i : Nat) (js : List Nat) (v : Nat → Int) : Int :=
  sumOf js (fun j => term (w.coef (base + stride * i + j)) (w.shift (base + stride * i + j)) (v j))

/-- The exact sum for x̂[k+1]_i (R186, R193). -/
def stateAcc (w : Law) (x u ins : Nat → Int) (i : Nat) : Int :=
  rowSum w 0 32 i (List.range w.n) x + rowSum w 1024 16 i (List.range w.m) u + rowSum w 1536 32 i (List.range w.p) ins

/-- The exact sum for the result v_i before limits. -/
def outAcc (w : Law) (xn ins : Nat → Int) (i : Nat) : Int :=
  rowSum w 3072 32 i ((List.range w.q).map (· + w.p)) ins - rowSum w 2560 32 i (List.range w.n) xn

def countOff (l : List (Int × Int)) : Nat := (l.filter (fun p => p.1 != p.2)).length

/-- One evaluation: x̂[k+1], u[k+1], elements saturated, outputs limited (R186, R192 to R194). -/
def lawStep (w : Law) (x u ins : Tbl Int) : Tbl Int × Tbl Int × Nat × Nat :=
  let accs := (List.range w.n).map (stateAcc w (iget x) (iget u) (iget ins))
  let xn := tblOf (accs.map sat32)
  let outs := (List.range w.m).map (outAcc w (iget xn) (iget ins))
  let vs := outs.map sat32
  let us := vs.zipIdx.map (fun p => clampI (w.umin p.2) (w.umax p.2) p.1)
  (xn, tblOf us, countOff (accs.zip (accs.map sat32)) + countOff (outs.zip vs), countOff (vs.zip us))

/-- Multiply-accumulates and cycles of a law (R188). -/
def macs (n m p q : Nat) : Nat := n * (n + 2 * m + p) + m * q
def computeCyc (c : UnitCfg) : Nat := if c.defined then ceilDiv (macs c.n c.m c.p c.q) 4 + 64 else 0

/-- The law in force of a unit: sizes of its plane, coefficients, shifts and limits in force (R187, R199). -/
def lawOf (s : State) (u : Nat) : Law :=
  let c := unitCfg s u
  { n := c.n, m := c.m, p := c.p, q := c.q
    coef := fun w => sWord (fo s (aMu u (0x4000 + 4 * w)))
    shift := fun w => fld (fo s (aMu u (0x8000 + 4 * (w / 4)))) (8 * (w % 4)) 5
    umin := fun j => sWord (fo s (aMu u (0x300 + 4 * j)))
    umax := fun j => sWord (fo s (aMu u (0x340 + 4 * j))) }

/-- The law of a section, as its shadow plane runs it (R204). -/
def lawOfCfg (c : UnitCfg) : Law :=
  { n := c.n, m := c.m, p := c.p, q := c.q
    coef := fun w => sWord (tget dZeroW c.coef w)
    shift := fun w => fld (tget dZeroW c.shift (w / 4)) (8 * (w % 4)) 5
    umin := fun j => sWord (tget dZeroW c.umin j)
    umax := fun j => sWord (tget dZeroW c.umax j) }

/-! Inputs (R189, R190, R198, R372, R403). -/

/-- (v × f + 2^14) >> 15 (R372). -/
def scale15 (v : Int) (f : Int) : Int := (v * f + 16384) / 32768

/-- r of a ramp at the present tick, UQ1.15 (R403). -/
def rampR (s : State) (r : Ramp) : Int :=
  let dt := s.tick - r.b0
  if dt = 0 then 32768
  else if r.len ≤ dt then 0
  else freeDiv 403 (32768 * ((r.len : Int) - dt)) r.len

/-- The value a HOST slot latches (R189, R372, R403). -/
def hostSlot (s : State) (u k : Nat) : Int :=
  let v := sWord (fo s (aMu u (0x100 + 4 * k)))
  let v1 := if (unitCfg s u).thrMap.testBit k then scale15 v s.therm.f else v
  s.gorse.ramps.foldl (fun v r => if r.slots.contains (u, k) then scale15 v (rampR s r) else v) v1

/-- The report of link l for period tag (R190). -/
def reportOf (s : State) (l tag : Nat) : Option (Nat × Nat × Int) := (link s l).reports.find? (fun r => r.1 == tag)

/-- The outputs a CHAIN slot sees: those applied at the source's latest boundary, a coinciding one included (R198). -/
def chainU (s : State) (u : Nat) : Tbl Int :=
  let x := munit s u
  match unitGroup s u with
  | some g =>
    let gr := group s g
    if gr.cut && decide (100 * gr.bAt + 16 * gr.period ≤ 100 * s.tick) && decide (gr.bAt < s.tick) then x.nu else x.u
  | none => x.u

inductive SlotVal where
  | val (v : Int) | stale | chainStale
  deriving DecidableEq, Repr

/-- Latched value of one slot; uOwn is u[k − 1] (R189). k is the boundary count, g the group. -/
def slotVal (s : State) (u g k : Nat) (uOwn : Tbl Int) (j : Nat) (m : SlotMap) : SlotVal :=
  match m.kind with
  | .unused => .val 0
  | .conv => .val (sWord (Config.measScale m.index (tget dZeroI s.conv.avgSum (16 * g + m.index))
      (tget dZero s.conv.avgCnt (16 * g + m.index))))
  | .cellVdc =>
    (match reportOf s m.index ((k + 256 - m.age) % 256) with
     | some r => .val (r.2.1 * 2 ^ m.shift : Nat)
     | none => .stale)
  | .cellTemp =>
    (match reportOf s m.index ((k + 256 - m.age) % 256) with
     | some r => .val (r.2.2 * (2 : Int) ^ m.shift)
     | none => .stale)
  | .ownPrev => .val (iget uOwn m.index)
  | .host => .val (hostSlot s u j)
  | .chain => if (tile s (8 + m.srcUnit / 2)).st = .tileFault then .chainStale
      else .val (iget (chainU s m.srcUnit) m.index)

/-- The slots of a law latched at a boundary: values, stale slots, chained slots that kept their value. -/
def latchSlots (s : State) (u g k : Nat) (cfg : UnitCfg) (uOwn old : Tbl Int) : Tbl Int × Nat × Nat :=
  (List.range (min 32 (cfg.p + cfg.q))).foldl (fun a j =>
    match slotVal s u g k uOwn j ((tlook cfg.slots j).getD {}) with
    | .val v => (tset dZeroI a.1 j v, a.2.1, a.2.2)
    | .stale => (a.1, a.2.1 + 1, a.2.2)
    | .chainStale => (a.1, a.2.1, a.2.2 + 1)) (old, 0, 0)

/-! The unit's period. -/

def holdOn (s : State) (u : Nat) : Bool := bit (fo s (aMu u 4)) 2

/-- A unit computes in this state (R185, R203). -/
def unitComputes (s : State) (u : Nat) : Bool :=
  (unitGroup s u).isSome && s.dev != .configWait && (munit s u).latched && !holdOn s u

/-- Row 6: 100 ns after the boundary a unit begins its law evaluation (R195). -/
def doMuStart (u : Nat) (s : State) : State :=
  match unitGroup s u with
  | some g =>
    if unitComputes s u && !(group s g).cut && (munit s u).ready.isNone then modUnit u (fun x => { x with busy := true }) s
    else s
  | none => s

def execMuComputeStart (u : UnitNo) (s : State) : Host.Outcome State Fault Refusal := .next (doMuStart u s)

/-- Row 7: x̂[k+1] and u[k+1] complete; saturation and limits are flagged (R192, R194, R195). -/
def doMuDone (u : Nat) (s : State) : State :=
  let x := munit s u
  if x.busy then
    let r := lawStep (lawOf s u) x.x x.u x.ins
    let s1 := modUnit u (fun x => { x with busy := false, ready := some r, satTotal := x.satTotal + r.2.2.1,
                                           limitTotal := x.limitTotal + r.2.2.2 }) s
    let s2 := if r.2.2.1 = 0 then s1 else muStick u 0 s1
    let s3 := if r.2.2.2 = 0 then s2 else muStick u 4 s2
    histFeed 3 u x.slack (histFeed 2 u (computeCyc (unitCfg s u)) s3)
  else s

def execMuComputeDone (u : UnitNo) (s : State) : Host.Outcome State Fault Refusal := .next (doMuDone u s)

/-- Unit u as the shadow plane of its tile defines it. -/
def shadowUnit (s : State) (u : Nat) : Option UnitCfg :=
  match (tile s (8 + u / 2)).shadow with
  | some p =>
    let c := if u % 2 = 0 then p.ctrl.even else p.ctrl.odd
    if !p.idle && c.defined then some c else none
  | none => none

/-- One unit of a shadow plane evaluates, the last period before the swap boundary included (R72, R204): B·u[k] takes the
outputs that the active plane applied. -/
def shadowStep (t v : Nat) (s : State) : State :=
  let x := tile s t
  match x.shadow with
  | some p =>
    let c := if v = 0 then p.ctrl.even else p.ctrl.odd
    if (x.st = .shadowRun ∨ x.st = .swapping) ∧ c.defined = true ∧ tget dZeroI x.shVals (8192 + v) = 1 then
      let part := fun base => tblOf ((List.range 32).map (fun i => tget dZeroI x.shVals (base + 64 * v + i)))
      let r := lawStep (lawOfCfg c) (part 0) (munit s (2 * (t - 8) + v)).u (part 2048)
      let vs := tsetRun dZeroI (tsetRun dZeroI x.shVals (4096 + 64 * v) ((List.range 32).map (iget r.1)))
        (5120 + 64 * v) ((List.range 16).map (iget r.2.1))
      modTile t (fun y => { y with shVals := vs }) s
    else s
  | none => s

/-- A commit's value of an RWS register at its coming boundary: taken in, or in force (R14, R27). -/
def coming (s : State) (g a : Nat) : Word := (tlook (group s g).takenRegs a).getD (fo s a)

/-- A unit at the cutoff: its outputs are taken or it is late, then the presets of the commit (R195 to R197, R202). A preset
shows neither lateness, nor saturation, nor limits of the computation that it replaces (R205). -/
def unitCutoff (g u : Nat) (s : State) : State :=
  let x := munit s u
  let cfg := unitCfg s u
  let comp := unitComputes s u
  let late := comp && x.ready.isNone
  let run := if late then min (x.lateRun + 1) 3 else if comp then 0 else x.lateRun
  let base := match x.ready with
    | some r => if comp then (r.1, r.2.1, 2 * b2n (r.2.2.1 != 0) + 4 * b2n (r.2.2.2 != 0)) else (x.x, x.u, 0)
    | none => (x.x, x.u, b2n late)
  let ctl := coming s g (aMu u 4)
  let fin := if bit ctl 0 then
      (tblOf ((List.range 32).map (fun i => if i < cfg.n then sWord (coming s g (aMu u (0x200 + 4 * i))) else 0)),
       tblOf ((List.range 16).map (fun j => if j < cfg.m then sWord (coming s g (aMu u (0x280 + 4 * j))) else 0)), 8)
    else if bit ctl 1 then (initVec cfg.n cfg.initX, initVec cfg.m cfg.initU, 8)
    else base
  let s1 := modUnit u (fun x => { x with busy := false, ready := none, lateRun := run, nx := fin.1, nu := fin.2.1,
                                         nFlags := fin.2.2, lateTotal := x.lateTotal + b2n late }) s
  let s2 := if late then histFeed 3 u x.slack (muStick u 1 s1) else s1
  if late && run == 3 then muStick u 2 s2 else s2

/-- At a swap with cold handover the incoming plane's unit starts as if LOAD_INIT had acted at the swap boundary (R202): its
initial outputs are what the boundary applies. -/
def coldNext (u : Nat) (s : State) : State :=
  let x := tile s (8 + u / 2)
  match shadowUnit s u with
  | some c =>
    if (x.st = .swapping ∨ x.faultInSwap = true) ∧ x.cold = true then
      modUnit u (fun y => { y with nx := initVec c.n c.initX, nu := initVec c.m c.initU, nFlags := 8 }) s
    else s
  | none => s

/-- Every unit of the group at the cutoff, and every unit of a shadow plane of the group, whether the active plane defines it
or not. -/
def unitsCutoff (g : Nat) (s : State) : State :=
  let s1 := forEach (groupUnits s g) (unitCutoff g) s
  forEach (List.range 16) (fun u s =>
    if ((tile s (8 + u / 2)).shadow.map (·.cg)) = some g then coldNext u (shadowStep (8 + u / 2) (u % 2) s) else s) s1

/-- x̂ and u of a shadow unit as it starts shadow-run (R72): warm copies the active vectors as far as the active law
goes; the rest is the section's. -/
def shadowSeed (s : State) (t v : Nat) (c : UnitCfg) (cold : Bool) : List Int × List Int :=
  let u := 2 * (t - 8) + v
  let a := unitCfg s u
  let y := munit s u
  let warm := !cold && a.defined
  ((List.range 32).map (fun i => if warm && decide (i < a.n) then iget y.x i else iget (initVec c.n c.initX) i),
   (List.range 16).map (fun j => if warm && decide (j < a.m) then iget y.u j else iget (initVec c.m c.initU) j))

/-- A shadow unit latches its slots through its own map, and takes its next state in (R204). -/
def shadowLatch (g k t v : Nat) (s : State) : State :=
  let x := tile s t
  match x.shadow with
  | some p =>
    let c := if v = 0 then p.ctrl.even else p.ctrl.odd
    if x.st = .shadowRun ∧ c.defined = true then
      let u := 2 * (t - 8) + v
      let first := tget dZeroI x.shVals (8192 + v) != 1
      let seed := shadowSeed s t v c x.cold
      let vs := if first then
          tsetRun dZeroI (tsetRun dZeroI x.shVals (64 * v) seed.1) (1024 + 64 * v) seed.2
        else
          tsetRun dZeroI (tsetRun dZeroI x.shVals (64 * v) (tgetRun dZeroI x.shVals (4096 + 64 * v) 32))
            (1024 + 64 * v) (tgetRun dZeroI x.shVals (5120 + 64 * v) 16)
      let old := tblOf (tgetRun dZeroI vs (2048 + 64 * v) 32)
      let r := latchSlots s u g k c (munit s u).uPrev old
      let vs2 := tset dZeroI (tsetRun dZeroI vs (2048 + 64 * v) ((List.range 32).map (iget r.1))) (8192 + v) 1
      modTile t (fun y => { y with shVals := vs2 }) s
    else s
  | none => s

/-- COEF and SHIFT writes that wait in staging for unit u. -/
def coefDirty (s : State) (u : Nat) : List Nat := s.dirty.filter (fun a => isCoef a && coefUnit a == u)

/-- The unit switches to the staging bank with these words (R200): they are in force; staging shows the bank that was
in force until the copy ends. -/
def bankSwitch (u : Nat) (ws : List (Nat × Word)) (s : State) : State :=
  let s1 := ws.foldl (fun s p =>
    let old := fo s p.1
    let s' := setFo p.1 p.2 s
    if s'.dirty.contains p.1 then s' else wr p.1 old s') s
  modUnit u (fun x => { x with bank := !x.bank, copying := true, deferred := false, coefSeq := x.coefSeq + 1 }) s1

/-- Bank switches that fall due at a boundary of the group with the commit's words ws (R200, R201). -/
def banksAt (g : Nat) (ws : List (Nat × Word)) (s : State) : State :=
  let s1 := forEach (groupUnits s g) (fun u s =>
    let x := munit s u
    let mine := ws.filter (fun p => isCoef p.1 && coefUnit p.1 == u)
    if x.copying then
      (if mine.isEmpty then s
       else
         let s' := modUnit u (fun x => { x with deferred := true }) s
         muStick u 6 { s' with dirty := s'.dirty ++ (mine.map (·.1)).filter (fun a => !s'.dirty.contains a) })
    else if x.deferred then
      let all := (coefDirty s u).map (fun a => (a, rd s a)) ++ mine.filter (fun p => !s.dirty.contains p.1)
      bankSwitch u all { s with dirty := s.dirty.filter (fun a => !(isCoef a && coefUnit a == u)) }
    else if mine.isEmpty then s
    else bankSwitch u mine s) s
  let held := (groupUnits s1 g).any (fun u => (munit s1 u).deferred)
  if (group s1 g).coefHeld == held then s1 else modGroup g (fun x => { x with coefHeld := held }) s1

/-- The addresses of unit u's COEF and SHIFT words (R199). -/
def coefAddrs (u : Nat) : List Nat :=
  (List.range 3584).map (fun w => aMu u (0x4000 + 4 * w)) ++ (List.range 896).map (fun w => aMu u (0x8000 + 4 * w))

/-- Row 5: the copy of the bank in force into the staging bank ends; words written since stay, those that a cutoff has taken in
for the coming boundary included (R200, R201). -/
def doCoefCopyDone (u : Nat) (s : State) : State :=
  if (munit s u).copying then
    let taken := match unitGroup s u with | some g => (group s g).takenRegs.map (fun (p : Nat × Word) => p.1) | none => []
    let s1 := forEach (coefAddrs u) (fun a (s : State) =>
      if rd s a = fo s a ∨ s.dirty.contains a = true ∨ taken.contains a = true then s else wr a (fo s a) s) s
    modUnit u (fun x => { x with copying := false }) s1
  else s

def execCoefCopyDone (u : UnitNo) (s : State) : Host.Outcome State Fault Refusal := .next (doCoefCopyDone u s)

/-- The outputs settled at the cutoff are applied (R191); the copy of the period's flags and totals begins (R205). -/
def unitApply (u : Nat) (s : State) : State :=
  modUnit u (fun x => { x with
    x := x.nx, u := x.nu, uPrev := x.u
    lateNow := x.nFlags.testBit 0, satNow := x.nFlags.testBit 1, limitNow := x.nFlags.testBit 2
    presetNow := x.nFlags.testBit 3, nFlags := 0, ready := none, busy := false }) s

/-- The unit latches its slots and takes BUDGET and slack of the period (R189, R190, R195, R198). -/
def unitLatch (g k u : Nat) (s : State) : State :=
  let x := munit s u
  let cfg := unitCfg s u
  let r := latchSlots s u g k cfg x.uPrev x.ins
  let b := budgetOf s g (periodOf s g)
  let s1 := modUnit u (fun x => { x with
    ins := r.1, latched := true, staleNow := r.2.1 != 0, staleTotal := x.staleTotal + r.2.1
    budget := b, slack := b - computeCyc cfg }) s
  let s2 := if r.2.1 = 0 then s1 else muStick u 3 s1
  let s3 := if r.2.2 = 0 then s2 else muStick u 5 s2
  modUnit u (fun x => { x with mir := [x.lateTotal, x.satTotal, x.staleTotal, x.limitTotal, x.coefSeq, x.lateRun,
    b2n x.bank, b2n (holdOn s u)] }) s3

/-- Every unit of the group at boundary k: outputs first, then what `mid` does (a swap of their tiles), then latches
(R69, R198). -/
def unitsBoundary (g k : Nat) (mid : State → State) (s : State) : State :=
  let s1 := mid (forEach (groupUnits s g) unitApply s)
  let s2 := forEach (groupUnits s1 g) (unitLatch g k) s1
  forEach ((List.range 8).map (· + 8)) (fun t s =>
    if tileGroup s t = some g ∨ ((tile s t).shadow.map (·.cg)) = some g then
      shadowLatch g k t 1 (shadowLatch g k t 0 s) else s) s2

/-- Ramps note the slots that latched with r = 0 (R403). -/
def rampsLatched (g : Nat) (s : State) : State :=
  if s.gorse.ramps.isEmpty then s
  else modGorse (fun q => { q with ramps := q.ramps.map (fun r =>
    if rampR s r = 0 ∧ r.b0 < s.tick then
      { r with zeroed := r.zeroed ++ (r.slots.filter (fun p => unitGroup s p.1 == some g && !r.zeroed.contains p)) }
    else r) }) s

/-- A unit as it stands after an activation, or an incoming plane (R202): LOAD_INIT acts at its first boundary. -/
def unitInit (u : Nat) (s : State) : State :=
  let c := unitCfg s u
  let x0 := initVec c.n c.initX
  let u0 := initVec c.m c.initU
  modUnit u (fun _ => if c.defined then { x := x0, u := u0, nx := x0, nu := u0, nFlags := 8 } else {}) s

end Sys2Proof.Machine
end

