-- ==== Sys2Proof/Machine/Modulation.lean ====
section
/-! DEFINITION. Modulation: the waveform of a channel (R161 to R168), dead time (R169), the edge limit (R170), the
interlock (R178), the inserted refresh (R180, R181), the computation at a cutoff and at a mid cutoff (R167, R174), the
messages to cells (R138 to R142) and the edges at the balls (R165). -/

namespace Sys2Proof.Machine

open Sys2Proof

/-! Sets of on-intervals within [0, n). -/

def ivIn (l : Ivs) (x : Nat) : Bool := l.any (fun i => decide (i.1 ≤ x) && decide (x < i.2))

/-- The complement, from position k on. -/
def ivNotFrom (n k : Nat) : Ivs → Ivs
  | [] => if k < n then [(k, n)] else []
  | (a, b) :: r => if k < a then (k, a) :: ivNotFrom n b r else ivNotFrom n (max k b) r

def ivNot (n : Nat) (l : Ivs) : Ivs := ivNotFrom n 0 l

/-- The intersection of two ascending sets. -/
def ivAnd (s t : Ivs) : Ivs :=
  s.flatMap (fun i => t.filterMap (fun j =>
    if max i.1 j.1 < min i.2 j.2 then some (max i.1 j.1, min i.2 j.2) else none))

def ivSub (n : Nat) (s t : Ivs) : Ivs := ivAnd s (ivNot n t)
def ivOr (n : Nat) (s t : Ivs) : Ivs := ivNot n (ivAnd (ivNot n s) (ivNot n t))

/-- The interval [a, b) cut to [0, n); empty where nothing is left. -/
def ivOne (n : Nat) (a b : Int) : Ivs :=
  let lo := (max a 0).toNat
  let hi := min b.toNat n
  if lo < hi then [(lo, hi)] else []

/-- Old before mid, new from mid on (R175). -/
def ivSplice (n mid : Nat) (old new : Ivs) : Ivs :=
  if mid = 0 then new
  else ivOr n (ivAnd old (ivOne n 0 mid)) (ivAnd new (ivOne n mid n))

/-! One channel (R161, R162, R164, R168). -/

/-- PHASE of a carrier from its CARRIER_PHASE value (R162). -/
def phaseOf (k : Carrier) (v : Word) : Nat :=
  if bit v 16 then fld v 0 16
  else ((65536 * k.autoIndex * 2 + k.autoDiv) / (2 * k.autoDiv)) % 65536

/-- φ in taps, halves upwards (R161). -/
def phiOf (phase p : Nat) : Nat := (phase * p * 16 + 32768) / 65536

/-- The on-intervals of a channel with compare c over a period of p (R161, R168). -/
def chanOn (saw : Bool) (p c phase : Nat) : Ivs :=
  let n := 16 * p
  if c = 0 then []
  else if p ≤ c then [(0, n)]
  else
    let a := (phiOf phase p + (if saw then 0 else 8 * (p - c))) % n
    let b := a + 16 * c
    if b ≤ n then [(a, b)] else [(0, b - n), (a, n)]

/-- The compare that a matrix-unit output gives (R164). -/
def muCompare (u : Int) (p : Nat) : Nat := (clampI 0 p ((u * p) / 1073741824)).toNat

/-- The override, before dead time (R177). -/
def override (n ovr : Nat) (h l : Ivs) : Ivs × Ivs :=
  match ovr with
  | 0 => (h, l)
  | 1 => (l, h)
  | 2 => (ivNot n h, ivNot n l)
  | _ => ([], [])

/-! A pair or leg (R166, R169, R170, R178, R180, R181). -/

/-- What governs one pair or leg for a period. Times in taps. -/
structure LegCfg where
  n : Nat := 0
  /-- Dead time delays every turn-on (complementary mode, R169). -/
  comp : Bool := false
  dt : Nat := 0
  on : Bool := false
  /-- OVR = OFF: both sides are held off, and there are no edges (R177). -/
  off : Bool := false
  boot : Bool := false
  rMin : Nat := 0
  rInt : Nat := 0
  bHold : Nat := 0
  maxE : Nat := 8
  /-- A local pair: a change at the opening boundary counts as an edge (R170). -/
  ball : Bool := false
  deriving DecidableEq, Repr, Inhabited

/-- An on-interval that wraps past the boundary (R161), as its part at the period's start and its part at the end. -/
def wrapOf (n : Nat) (l : Ivs) : Option ((Nat × Nat) × (Nat × Nat)) :=
  match l.head?, l.getLast? with
  | some a, some b => if a.1 = 0 ∧ b.2 = n ∧ a.2 < b.1 then some (a, b) else none
  | _, _ => none

/-- The wrapping on-interval of a side is removed, with the partner's off-interval, where dead time shortens it to nothing (R161,
R169; DEDUCED, log entry 45). -/
def removeWrap (n dt : Nat) (h : Ivs) : Ivs :=
  let short := fun (w : (Nat × Nat) × (Nat × Nat)) => decide (w.1.2 + (n - w.2.1) ≤ dt)
  match wrapOf n h, wrapOf n (ivNot n h) with
  | some w, _ => if short w then ivSub n h [w.1, w.2] else h
  | none, some w => if short w then ivOr n h [w.1, w.2] else h
  | none, none => h

/-- Removal of the on-intervals of either side that dead time shortens to nothing, one at a time, earliest first, each
judged on the waveform that is left (R169). -/
def removeShort (n dt : Nat) : Nat → Ivs → Ivs
  | 0, h => removeWrap n dt h
  | k + 1, h =>
    let whole := fun (i : Nat × Nat) => decide (0 < i.1) && decide (i.2 < n) && decide (i.2 - i.1 ≤ dt)
    let hs := h.filter whole
    let ls := (ivNot n h).filter whole
    match hs, ls with
    | [], [] => removeWrap n dt h
    | a :: _, [] => removeShort n dt k (ivSub n h [a])
    | [], b :: _ => removeShort n dt k (ivOr n h [b])
    | a :: _, b :: _ => if a.1 < b.1 then removeShort n dt k (ivSub n h [a]) else removeShort n dt k (ivOr n h [b])

/-- Latest turn-off of the other side at or before a: within the period, or carried. -/
def lastOff (other : Ivs) (carried : Option Int) (otherOn : Bool) (a : Nat) : Option Int :=
  let here := (other.filter (fun i => i.2 ≤ a)).foldl (fun (_ : Option Int) i => some (i.2 : Int)) none
  match here with
  | some t => some t
  | none => if otherOn && !ivIn other 0 then some 0 else carried

/-- Turn-on instant of an on-interval that starts at a. -/
def turnOn (c : LegCfg) (ends : List Nat) (off : Option Int) (a : Nat) : Nat :=
  let t1 := if c.comp then match off with | some x => max a (x + c.dt).toNat | none => a else a
  if ends.contains a then max t1 (a + c.dt) else t1

/-- What one side finds at the opening boundary: its level, the other's, the other's latest turn-off, and a turn-on of its own
that waits. -/
structure SideIn where
  wasOn : Bool := false
  otherOn : Bool := false
  otherOff : Option Int := none
  wait : Option Int := none
  deriving DecidableEq, Repr, Inhabited

def sideH (o : Carry) : SideIn := { wasOn := o.hi, otherOn := o.lo, otherOff := o.offL, wait := o.waitH }
def sideL (o : Carry) : SideIn := { wasOn := o.lo, otherOn := o.hi, otherOff := o.offH, wait := o.waitL }

/-- Where the on-interval i of a side starts at the output. -/
def startOf (c : LegCfg) (ends : List Nat) (other : Ivs) (q : SideIn) (i : Nat × Nat) : Nat :=
  if i.1 = 0 ∧ q.wasOn = true then 0
  else
    let t := turnOn c ends (lastOff other q.otherOff q.otherOn i.1) i.1
    if i.1 = 0 then max t (q.wait.getD 0).toNat else t

/-- The issued on-intervals of one side: each turn-on delayed, an interval with nothing left is none. -/
def sideRun (c : LegCfg) (ends : List Nat) (mine other : Ivs) (q : SideIn) : Ivs :=
  mine.filterMap (fun i => let st := startOf c ends other q i; if st < i.2 then some (st, i.2) else none)

/-- A turn-on that falls beyond the period, relative to its end. -/
def waitOf (c : LegCfg) (ends : List Nat) (mine other : Ivs) (q : SideIn) : Option Int :=
  match mine.getLast? with
  | some i => let st := startOf c ends other q i; if i.2 = c.n ∧ c.n ≤ st then some ((st : Int) - c.n) else none
  | none => none

/-- A refresh inserted at x (R180): low side on from x + dt to x + dt + rMin, high side off until x + 2 dt + rMin. -/
def insertAt (c : LegCfg) (x : Int) (w : Ivs × Ivs) : Ivs × Ivs :=
  let lowOn := x + c.dt
  let lowOff := lowOn + c.rMin
  (ivSub c.n w.1 (ivOne c.n x (lowOff + c.dt)),
   ivOr c.n (ivSub c.n w.2 (ivOne c.n x lowOff)) (ivOne c.n lowOn lowOff))

/-- What is left of a refresh inserted at x after the period. -/
def tailOf (c : LegCfg) (x : Int) : Option (Int × Int × Int) :=
  let hiFrom := x + 2 * c.dt + c.rMin
  if hiFrom > c.n then some (x + c.dt - c.n, x + c.dt + c.rMin - c.n, hiFrom - c.n) else none

/-- BOOT_HOLD: every high-side run is cut at its limit and a refresh inserted there (R181). -/
def holdCuts (c : LegCfg) (o : Carry) : Nat → Ivs × Ivs → List Nat → (Ivs × Ivs) × List Nat
  | 0, w, cuts => (w, cuts)
  | k + 1, w, cuts =>
    let start := fun (i : Nat × Nat) => if i.1 = 0 ∧ o.hi = true then -(o.hiRun : Int) else (i.1 : Int)
    match w.1.find? (fun i => decide ((i.2 : Int) - start i > c.bHold)) with
    | none => (w, cuts)
    | some i =>
      let x := (max (start i + c.bHold) 0).toNat
      if x < i.2 ∧ cuts.contains x = false then holdCuts c o k (insertAt c x w) (cuts ++ [x]) else (w, cuts)

/-- Total length of the low-side interval i, with what came before the period. -/
def lowLen (o : Carry) (i : Nat × Nat) : Nat := i.2 - i.1 + (if i.1 = 0 ∧ o.lo = true then o.loRun else 0)

/-- Start of the first low-side on-interval of REFRESH_MIN, or the period (R180). -/
def firstLow (c : LegCfg) (o : Carry) (l : Ivs) : Nat :=
  match l.find? (fun i => decide (lowLen o i ≥ c.rMin)) with | some i => i.1 | none => c.n

/-- The refresh of R180 at the boundary, then BOOT_HOLD. insB: the boundary's refresh was decided at the cutoff.
Returns the waveform, the instants of the inserted refreshes and the rest carried on. -/
def bootRun (c : LegCfg) (o : Carry) (insB : Option Bool) (w : Ivs × Ivs) :
    (Ivs × Ivs) × List (Nat × Bool) × Option (Int × Int × Int) :=
  if c.boot && c.on && !c.off then
    let w0 := match o.tail with
      | some (lowOn, lowOff, hiFrom) =>
        (ivSub c.n w.1 (ivOne c.n 0 hiFrom),
         ivOr c.n (ivSub c.n w.2 (ivOne c.n 0 lowOff)) (ivOne c.n lowOn lowOff))
      | none => w
    let t0 := match o.tail with
      | some (lowOn, lowOff, hiFrom) => if hiFrom > c.n then some (lowOn - c.n, lowOff - c.n, hiFrom - c.n) else none
      | none => none
    let due := match insB with
      | some b => b
      | none => decide (o.tSince + firstLow c o w0.2 > c.rInt) || !o.boot || !o.on
    let w1 := if due then insertAt c 0 w0 else w0
    let r := holdCuts c (if due then { o with hi := false } else o) (c.n / max c.bHold 1 + w1.1.length + 2) w1 []
    let all := (if due then [(0, false)] else []) ++ r.2.map (fun x => (x, true))
    (r.1, all, match all.getLast? with | some x => (tailOf c x.1).or t0 | none => t0)
  else (w, [], none)

/-- Level changes after x0 and before the period's end. -/
def innerEdges (n x0 : Nat) (l : Ivs) : Nat :=
  let inner := fun x => decide (x0 < x) && decide (x < n)
  l.foldl (fun a i => a + b2n (inner i.1) + b2n (inner i.2)) 0

/-- Edges of one output that count towards its limit (R170): level changes at its ball, the opening boundary's included, or the
COARSE times of all messages that govern the period, where old is the waveform of the period's first message and a change at mid
is the START of the second. -/
def edgeCount (c : LegCfg) (mid : Nat) (wasOn : Bool) (old l : Ivs) : Nat :=
  if c.ball then innerEdges c.n 0 l + b2n (wasOn != ivIn l 0)
  else if mid = 0 then innerEdges c.n 0 l
  else innerEdges c.n 0 old + innerEdges c.n mid l

/-- The edges of refreshes on one side: pulses that stay, and instants of the other side's changes. -/
structure KeepEdges where
  pulses : Ivs := []
  instants : List Int := []
  deriving DecidableEq, Repr, Inhabited

/-- The on-interval has an edge of a refresh (R170, R181). -/
def keptBy (q : KeepEdges) (i : Nat × Nat) : Bool :=
  !(ivAnd [i] q.pulses).isEmpty || q.instants.contains (i.1 : Int) || q.instants.contains (i.2 : Int)

/-- Drop whole on-intervals, latest first, until the count fits; refresh edges stay (R170). -/
def limitRun (c : LegCfg) (mid : Nat) (wasOn : Bool) (old : Ivs) (q : KeepEdges) : Nat → Ivs → List Nat → Ivs × List Nat
  | 0, l, ds => (l, ds)
  | k + 1, l, ds =>
    if edgeCount c mid wasOn old l ≤ c.maxE then (l, ds)
    else
      match (l.filter (fun i => decide (max mid 1 ≤ i.1) && decide (i.2 < c.n) && !keptBy q i)).getLast? with
      | none => (l, ds)
      | some i => limitRun c mid wasOn old q k (l.filter (fun j => j != i)) (ds ++ [i.1])

/-- Latest turn-off of a side, relative to the end of the period. -/
def closeOff (n : Nat) (l : Ivs) (wasOn : Bool) (carried : Option Int) : Option Int :=
  let here := (l.filter (fun i => decide (i.2 < n))).foldl (fun (_ : Option Int) i => some ((i.2 : Int) - n)) none
  match here with
  | some t => some t
  | none => if wasOn && !ivIn l 0 then some (-(n : Int)) else carried.map (· - n)

def onAtEnd (n : Nat) (l : Ivs) : Bool := match l.getLast? with | some i => i.2 == n && decide (i.1 < n) | none => false

/-- Length of the run that crosses the end of the period. -/
def runAtEnd (n : Nat) (l : Ivs) (wasOn : Bool) (before : Nat) : Nat :=
  match l.getLast? with
  | some i => if i.2 = n then n - i.1 + (if i.1 = 0 ∧ wasOn = true then before else 0) else 0
  | none => 0

/-- What the pair carries across the closing boundary. -/
def closeCarry (c : LegCfg) (o : Carry) (aH aL ov : Ivs) (waitH waitL : Option Int) (tail : Option (Int × Int × Int)) : Carry :=
  { hi := onAtEnd c.n aH
    lo := onAtEnd c.n aL
    offH := closeOff c.n aH o.hi o.offH
    offL := closeOff c.n aL o.lo o.offL
    both := onAtEnd c.n ov
    waitH := waitH
    waitL := waitL
    tSince := match (aL.filter (fun i => decide (lowLen o i ≥ c.rMin))).getLast? with
      | some i => c.n - i.2
      | none => o.tSince + c.n
    hiRun := runAtEnd c.n aH o.hi o.hiRun
    loRun := runAtEnd c.n aL o.lo o.loRun
    tail := tail
    on := c.on
    boot := c.boot }

/-- The commanded on-intervals of both sides without the overlap (R178), with removals made (R169), and the overlap. -/
def legCommand (c : LegCfg) (h1 l1 : Ivs) : Ivs × Ivs × Ivs :=
  let h := if c.comp then removeShort c.n c.dt (2 * h1.length + 4) h1 else h1
  let l := if c.comp then ivNot c.n h else l1
  let ov := ivAnd h l
  (ivSub c.n h ov, ivSub c.n l ov, ov)

/-- The edges of the refreshes that stand in a period, on the low and on the high side (R170, R180, R181). -/
def keepOf (c : LegCfg) (o : Carry) (ins : List (Nat × Bool)) : KeepEdges × KeepEdges :=
  let xs : List Int := ins.map (fun x => (x.1 : Int))
  let tl := match o.tail with | some t => ivOne c.n t.1 t.2.1 | none => []
  let th : List Int := match o.tail with | some t => [t.2.2] | none => []
  ({ pulses := tl ++ xs.flatMap (fun (x : Int) => ivOne c.n (x + c.dt) (x + c.dt + c.rMin)) },
   { instants := th ++ xs ++ xs.map (fun (x : Int) => x + 2 * (c.dt : Int) + (c.rMin : Int)) })

/-- One pair or leg over a period, from what it carries in. With mid > 0 the waveform of old stands before mid
(R175). -/
def legRun (c : LegCfg) (o : Carry) (h0 l0 : Ivs) (mid : Nat) (old : Wave) : Wave :=
  let n := c.n
  let h1 := ivSplice n mid old.comH h0
  let l1 := ivSplice n mid old.comL l0
  let m := legCommand c h1 l1
  let ov := m.2.2
  let ends := ov.map (·.2) ++ (if o.both && !ivIn ov 0 then [0] else [])
  let alive := fun (mine other : Ivs) (q : SideIn) =>
    mine.filter (fun i => decide (0 < i.1) || !(sideRun c ends [i] (other.filter (fun j => decide (0 < j.1))) q).isEmpty)
  let gH := alive m.1 m.2.1 (sideH o)
  let gL := alive m.2.1 m.1 (sideL o)
  let r := bootRun c o (if mid = 0 then none else some (old.ins.contains (0, false)))
    (sideRun c ends gH gL (sideH o), sideRun c ends gL gH (sideL o))
  let q := keepOf c o r.2.1
  let sH := ivSplice n mid old.aH r.1.1
  let sL := ivSplice n mid old.aL r.1.2
  let dH := limitRun c mid o.hi old.aH q.2 (sH.length + 1) sH []
  let dL := limitRun c mid o.lo old.aL q.1 (sL.length + 1) sL []
  { n := n, comH := h1, comL := l1, aH := dH.1, aL := dL.1, ov := ov, ins := r.2.1,
    drops := dH.2.map (fun x => (true, x)) ++ dL.2.map (fun x => (false, x))
      ++ (if mid = 0 then [] else old.drops.filter (fun d => decide (d.2 < mid))),
    opening := o
    closing := closeCarry c o dH.1 dL.1 ov (waitOf c ends m.1 m.2.1 (sideH o)) (waitOf c ends m.2.1 m.1 (sideL o)) r.2.2 }

/-- A switch that is no leg: only the edge limit applies. -/
def singleRun (c : LegCfg) (o : Carry) (h0 : Ivs) (mid : Nat) (old : Wave) : Wave :=
  let sH := ivSplice c.n mid old.aH h0
  let dH := limitRun c mid o.hi old.aH {} (sH.length + 1) sH []
  { n := c.n, comH := ivSplice c.n mid old.comH h0, aH := dH.1, drops := dH.2.map (fun x => (true, x)),
    opening := o, closing := { hi := onAtEnd c.n dH.1, on := c.on } }

/-- Flags and counters of a computed waveform; with mid > 0, of what it adds to the old one (R170, R178, R180, R181). -/
def waveFlags (virt : Bool) (mid : Nat) (old new : Wave) (s : State) : State :=
  let ovs := new.ov.filter (fun i => decide (mid ≤ i.1) && !(i.1 == 0 && new.opening.both)
    && !(decide (0 < mid) && (old.ov.any (fun j => decide (j.1 ≤ i.1) && decide (i.1 < j.2)))))
  let ins := new.ins.filter (fun x => mid = 0 || (decide (mid ≤ x.1) && !old.ins.contains x))
  let dr := new.drops.filter (fun d => mid = 0 || !old.drops.contains d)
  let s1 := if ovs.isEmpty then s else modStick (if virt then 1 else 0) (cntUp aOverlapCnt ovs.length s)
  let s2 := if ins.isEmpty then s1 else cntUp aRefreshCnt ins.length s1
  let s3 := if (ins.filter (fun x => x.2)).isEmpty then s2 else modStick 5 s2
  if dr.isEmpty then s3 else modStick 3 (cntUp aEdgeLimitCnt dr.length s3)

end Sys2Proof.Machine
end

