-- ==== Sys2Proof/Machine/Edges.lean ====
section
/-! DEFINITION. The edge computation of a clock group at its cutoff and at its mid cutoff (R167, R174, R175), the
messages it dispatches (R138 to R142) and the edges at the balls (rows 8 to 10 in part). -/

namespace Sys2Proof.Machine

open Sys2Proof

/-- The period that will be in force at the coming boundary: on a follower's started group, GRID's (R156). -/
def comingPeriod (s : State) (g : Nat) : Nat :=
  if s.damask.wzRole = 2 then (group s g).gridPeriod.getD (group s g).period
  else fld (coming s g (aCgPeriod g)) 0 24

/-- Channel-group enables in force from the coming boundary. -/
def comingEn (s : State) (g : Nat) : Nat :=
  let t := (group s g).takenEn
  (s.mod.en &&& (0xFFFF ^^^ (t.1 &&& 0xFFFF))) ||| t.2

def comingUpd (s : State) (g : Nat) : Nat :=
  let t := (group s g).takenUpd
  (s.mod.upd &&& (0xFFFF ^^^ (t.1 &&& 0xFFFF))) ||| t.2

/-- Compare of a channel: the register's, or a matrix unit's output as settled at the cutoff (R164). -/
def compareOf (s : State) (val : Nat → Word) (a : Nat) (mu : Option (Nat × Nat)) (mid : Bool) (p : Nat) : Nat :=
  match mu with
  | some (u, j) => muCompare (iget (if mid then (munit s u).u else (munit s u).nu) j) p
  | none => fld (val a) 0 24

/-- A channel's on-intervals on carrier i. -/
def carrierOn (s : State) (val : Nat → Word) (i p c : Nat) : Ivs :=
  let k := carrierCfg s i
  chanOn k.sawtooth p c (phaseOf k (val (aCarrierPhase i)))

/-- Mode, override, dead time and supply of a local pair with its two commands (R164, R166, R177, R179). -/
def pairLeg (s : State) (val : Nat → Word) (p per : Nat) (on mid : Bool) : LegCfg × Ivs × Ivs :=
  let k := (pairCfg s p).getD {}
  let w := val (aLp p 0x08)
  let r := val (aLp p 0x14)
  let n := 16 * per
  let ovr := fld w 1 2
  let indep := bit w 0
  let h := carrierOn s val k.carrier per (compareOf s val (aLp p 0) (if k.muSrc then some k.muA else none) mid per)
  let l := if indep then
      carrierOn s val k.carrier per (compareOf s val (aLp p 4) (if k.muSrc then some k.muB else none) mid per)
    else ivNot n h
  let hl := if on then override n ovr h l else ([], [])
  ({ n := n, comp := on && !indep && ovr != 3, dt := 16 * fld (val (aLp p 0x0C)) 0 15, on := on,
     off := ovr == 3, boot := supplyFix k.bsPresent k.cpPresent (bit w 3), rMin := 16 * fld r 0 16, rInt := 40000 * fld r 16 16,
     bHold := 40000 * fld (val (aLp p 0x18)) 0 16, maxE := 8, ball := true }, hl.1, hl.2)

/-- The edges that a waveform gives from x0 on, in time order, turn-offs first. -/
def sideEdges (high wasOn : Bool) (n x0 : Nat) (l : Ivs) : List Edge :=
  (if x0 = 0 ∧ (wasOn != ivIn l 0) = true then [{ time := 0, high := high, level := ivIn l 0 }] else [])
  ++ l.flatMap (fun i =>
    (if decide (0 < i.1) && decide (x0 ≤ i.1) then [{ time := i.1, high := high, level := true }] else [])
    ++ (if decide (i.2 < n) && decide (x0 ≤ i.2) then [{ time := i.2, high := high, level := false }] else []))

def edgeIns (e : Edge) : List Edge → List Edge
  | [] => [e]
  | f :: r => if e.time < f.time ∨ (e.time = f.time ∧ e.level = false) then e :: f :: r else f :: edgeIns e r

def sortEdges (l : List Edge) : List Edge := l.foldl (fun a e => edgeIns e a) []

def waveEdges (w : Wave) (x0 : Nat) : List Edge :=
  sortEdges (sideEdges true w.opening.hi w.n x0 w.aH ++ sideEdges false w.opening.lo w.n x0 w.aL)

/-- The edges of a waveform from x0 on, placed by their generators after boundary b (R90, R167). -/
def genEdges (s : State) (b : Nat) (w : Wave) (x0 : Nat) : List Edge := (waveEdges w x0).map (edgePos s b)

/-- True time in taps of the coming boundary (R24). -/
def nextTap (s : State) (g : Nat) : Nat := (group s g).gridAt.getD ((group s g).bTap + 16 * periodOf s g)

/-- A local pair's edges for the coming period (R167). -/
def pairCompute (g p : Nat) (en : Nat) (s : State) : State :=
  let k := (pairCfg s p).getD {}
  let c := pairLeg s (coming s g) p (comingPeriod s g) (en.testBit k.chg) false
  let o := (pair s p).wave.closing
  let w := legRun c.1 o c.2.1 c.2.2 0 {}
  waveFlags false 0 {} w (modPair p (fun x => { x with nextWave := w, next := genEdges s (nextTap s g) w 0, nextReady := true }) s)

/-- A local pair from the mid-period instant on (R175). -/
def pairMid (g p mid : Nat) (val : Nat → Word) (s : State) : State :=
  let k := (pairCfg s p).getD {}
  let old := (pair s p).wave
  let c := pairLeg s val p (periodOf s g) (s.mod.en.testBit k.chg) true
  let w := legRun c.1 old.opening c.2.1 c.2.2 mid old
  waveFlags false mid old w (modPair p (fun x => { x with
    wave := w, sched := x.sched.filter (fun e => decide (e.time < mid)) ++ genEdges s (group s g).bTap w mid }) s)

/-! Cells. -/

def cellSwitches (s : State) (c : Nat) : Nat := min 12 (fld (link s c).partnerCap 8 4)
def isLeg (k : CellCfg) (sw j : Nat) : Bool := k.legs.testBit j && decide (2 * j + 1 < sw)
/-- Units of a cell's waveforms: leg j at j, single switch s at 16 + s. -/
def cellParts (k : CellCfg) (sw : Nat) : List Nat :=
  (List.range 6).filter (isLeg k sw)
    ++ ((List.range sw).filter (fun i => !isLeg k sw (i / 2))).map (· + 16)

def cellMu (k : CellCfg) (sw : Nat) : Option (Nat × Nat) :=
  if k.muMask.testBit sw then some (k.mu.getD sw (0, 0)) else none

/-- Supply mode used: bootstrap where the cell declares it and it is written, or it alone is declared (R179). -/
def cellBoot (s : State) (val : Nat → Word) (c : Nat) : Bool :=
  let cap := (link s c).partnerCap
  if bit cap 24 || bit cap 25 then supplyFix (bit cap 24) (bit cap 25) (bit (val (aVc c 0x40)) 12) else false

/-- Waveform of part j of cell c. -/
def partRun (s : State) (val : Nat → Word) (c per : Nat) (on mid : Bool) (m : Nat) (o : Carry) (old : Wave) (j : Nat) :
    Wave :=
  let k := (cellCfg s c).getD {}
  let w := val (aVc c 0x40)
  let r := val (aVc c 0x4C)
  let n := 16 * per
  let carr := fun i => k.carriers.getD i 0
  let cmp := fun i => compareOf s val (aVc c (4 * i)) (cellMu k i) mid per
  let lc : LegCfg := { n := n, on := on, boot := cellBoot s val c, dt := 16 * fld (val (aVc c 0x44)) 0 15,
                       rMin := 16 * fld r 0 16, rInt := 40000 * fld r 16 16,
                       bHold := 40000 * fld (val (aVc c 0x50)) 0 16,
                       maxE := fld (link s c).partnerCap 12 2 + 1, ball := false }
  if j < 16 then
    let indep := bit w (16 + j)
    let ovr := fld w (2 * j) 2
    let h := carrierOn s val (carr (2 * j)) per (cmp (2 * j))
    let l := if indep then carrierOn s val (carr (2 * j)) per (cmp (2 * j + 1)) else ivNot n h
    let hl := if on then override n ovr h l else ([], [])
    legRun { lc with comp := on && !indep && ovr != 3, off := ovr == 3 } o hl.1 hl.2 m old
  else
    singleRun lc o (if on then carrierOn s val (carr (j - 16)) per (cmp (j - 16)) else []) m old

/-- On-intervals of switch i of a cell from its waveforms. -/
def switchIvs (k : CellCfg) (sw : Nat) (ws : Tbl Wave) (i : Nat) : Ivs :=
  if isLeg k sw (i / 2) then
    let w := tget dWave ws (i / 2)
    if i % 2 = 0 then w.aH else w.aL
  else (tget dWave ws (16 + i)).aH

/-- COARSE and FINE of a position; for a cell end that declares FINE = 0, COARSE alone, to the nearest 400 ps (R92, R140, R167). -/
def coarseFine (fine : Bool) (p : Nat) : Nat × Nat := if fine then (p / 16, p % 16) else ((p + 8) / 16, 0)

/-- The EDGE message of a switch: its times after x0 as COARSE and FINE, or the no-edge marker; none where nothing
changes (R140). -/
def edgeMsg (s : State) (c tag b n x0 i : Nat) (wasOn half : Bool) (l : Ivs) : Option Msg :=
  let fine := bit (link s c).partnerCap 14
  let ts := l.flatMap (fun v => (if x0 < v.1 then [v.1] else []) ++ (if decide (x0 < v.2) && decide (v.2 < n) then [v.2] else []))
  let start := ivIn l x0
  let ps := ts.map (fun t => coarseFine fine (linkPos s c b t))
  if ts.isEmpty then
    (if half || start != wasOn then some (.edge tag i start half [0xFFFFFF] [0]) else none)
  else some (.edge tag i start half (ps.map (·.1)) (ps.map (·.2)))

def msgSwitch : Msg → Nat
  | .edge _ sw _ _ _ _ => sw
  | _ => 0

/-- Put messages for the boundary at b (in taps) on a link's dispatch queue: each goes twice with REPEAT, in payload groups of
their own (R142). A link that is not LINKED takes none. -/
def dispatch (l : Nat) (b : Nat) (ms : List Msg) (s : State) : State :=
  let n := if bit (rd s (aLink l 0x100)) 0 then 2 else 1
  if (link s l).st = .linked ∧ ms.isEmpty = false then
    modLink l (fun x => { x with txq := x.txq ++ ms.flatMap (fun m => List.replicate n { msg := m, atTap := b }) }) s
  else s

/-- A cell's waveforms and messages for the coming period (R140, R142, R164, R167, R179). -/
def cellCompute (g c mid : Nat) (en : Nat) (s : State) : State :=
  let k := (cellCfg s c).getD {}
  let on := en.testBit k.chg && outputsLive s
  let val := coming s g
  let per := comingPeriod s g
  let sw := cellSwitches s c
  let v := vcell s c
  let boot := cellBoot s val c
  let declared := bit (link s c).partnerCap 24 || bit (link s c).partnerCap 25
  let tag := nextTag s g
  let b := nextTap s g
  let sup := if declared && boot != v.boot then [Msg.supply tag boot] else []
  let s1 := if (link s c).blk == !on then s else modLink c (fun x => { x with blk := !on }) s
  if on then
    let ws := (cellParts k sw).map (fun j => (j, partRun s val c per on false 0 (tget dWave v.waves j).closing {} j))
    let t := ws.foldl (fun a p => tset dWave a p.1 p.2) []
    let s2 := ws.foldl (fun s p => waveFlags true 0 {} p.2 s) s1
    let ms := (List.range sw).filterMap (fun i => edgeMsg s c tag b (16 * per) 0 i (v.levels.testBit i) false (switchIvs k sw t i))
    let lv := maskOf sw (fun i => onAtEnd (16 * per) (switchIvs k sw t i))
    let mp := coarseFine (bit (link s c).partnerCap 14) (if mid = 0 then 0 else linkPos s c b mid)
    let mask := maskOf 12 (fun i => ms.any (fun m => msgSwitch m == i))
    dispatch c b (Msg.boundary tag mask 0 0 mp.1 mp.2 :: ms ++ sup)
      (modVCell c (fun x => { x with nextWaves := t, levels := lv, boot := boot }) s2)
  else
    dispatch c b sup (modVCell c (fun x => { x with nextWaves := [], levels := 0, boot := boot }) s1)

/-- A cell's switches whose compares change at the mid-period instant (R175). -/
def cellMid (g c mid : Nat) (val : Nat → Word) (changed : Nat → Bool) (s : State) : State :=
  let k := (cellCfg s c).getD {}
  if s.mod.en.testBit k.chg && outputsLive s then
    let per := periodOf s g
    let sw := cellSwitches s c
    let v := vcell s c
    let parts := (cellParts k sw).filter (fun j =>
      if j < 16 then changed (2 * j) || changed (2 * j + 1) else changed (j - 16))
    let ws := parts.map (fun j => (j, (tget dWave v.waves j),
      partRun s val c per true true mid (tget dWave v.waves j).opening (tget dWave v.waves j) j))
    let t := ws.foldl (fun a p => tset dWave a p.1 p.2.2) v.waves
    let s1 := ws.foldl (fun s p => waveFlags true mid p.2.1 p.2.2 s) s
    let b := (group s g).bTap
    let sws := (List.range sw).filter (fun i => parts.contains (if isLeg k sw (i / 2) then i / 2 else 16 + i))
    let ms := sws.filterMap (fun i =>
      edgeMsg s c ((group s g).boundary % 256) b (16 * per) mid i false true (switchIvs k sw t i))
    let lv := maskOf sw (fun i => if sws.contains i then onAtEnd (16 * per) (switchIvs k sw t i) else v.levels.testBit i)
    dispatch c b ms (modVCell c (fun x => { x with waves := t, levels := lv }) s1)
  else s

def groupPairs (s : State) (g : Nat) : List Nat := (List.range 12).filter (fun p => pairGroup s p == some g)
def groupCells (s : State) (g : Nat) : List Nat := (List.range 36).filter (fun c => cellGroup s c == some g)

/-- The mid-period instant in taps of a period of p with these update modes, 0 where it has none (R174, R176); L_g is the one that
the mirror copy holds (R151). -/
def midInstant (s : State) (g upd p : Nat) : Nat :=
  if (upd &&& chgMask s g) != 0 && decide ((p * 200 : Int) * unitsPerPs > (group s g).lgU + 160000 * unitsPerPs)
  then 8 * p else 0

/-- That of the coming period. It is settled at the cutoff, for the MID field and the transfer alike. -/
def comingMid (s : State) (g : Nat) : Nat := midInstant s g (comingUpd s g) (comingPeriod s g)

/-- The edge computation of the group for the coming period, with the channel groups of `off` disabled (R167, R402). -/
def edgeCompute (g off : Nat) (s : State) : State :=
  let en := comingEn s g &&& (0xFFFF ^^^ (off &&& 0xFFFF))
  let mid := comingMid s g
  let s1 := forEach (groupPairs s g) (fun p s => pairCompute g p en s) s
  modGroup g (fun x => { x with midNext := mid }) (forEach (groupCells s1 g) (fun c s => cellCompute g c mid en s) s1)

/-! Edges at the balls. -/

/-- Take the next edge of one side out of a schedule: the first of that side with nothing earlier before it. -/
def takeEdge (high : Bool) : List Edge → Option (Edge × List Edge)
  | [] => none
  | e :: r =>
    if e.high = high then some (e, r)
    else match r with
      | f :: r' => if f.high = high ∧ f.time = e.time then some (f, e :: r') else none
      | [] => none

/-- Levels that a pair's commands take: turn-offs are noted, and a turn-on at the ball starts blanking (R221). -/
def pairLevel (p : Nat) (high level : Bool) (t : Int) (s : State) : State :=
  let before := if high then ghLevel s p else glLevel s p
  let s1 := modPair p (fun x =>
    let h := if high then level else x.cmdH
    let l := if high then x.cmdL else level
    { x with cmdH := h, cmdL := l, off := if h || l then none else if level then x.off else some (high, t) }) s
  let after := if high then ghLevel s1 p else glLevel s1 p
  settleBlank (if !before && after then modPair p (fun x => { x with blanking := true }) s1 else s1)

/-- The edge generators have the numbers of their outputs: 2p for GHp, 2p + 1 for GLp (DESIGN CHOICE, log entry 140). One that has
lost its fine-delay lock places the edge with fine part 0 (R99). -/
def genOut (s : State) (p : Nat) (e : Edge) : Nat × Nat :=
  (e.coarse, if s.clock.fineOff.contains (2 * p + b2n (!e.high)) then 0 else e.fine)

/-- Row 10: a scheduled gate edge occurs (R90, R99, R165, R167). -/
def doGateEdge (p : Nat) (high : Bool) (s : State) : State :=
  match takeEdge high (pair s p).sched with
  | none => s
  | some (e, r) =>
    let q := genOut s p e
    pairLevel p high e.level e.time
      (modPair p (fun x => { x with sched := r, outH := if high then q else x.outH, outL := if high then x.outL else q }) s)

def execGateEdge (p : PairNo) (high : Bool) (s : State) : Host.Outcome State Fault Refusal := .next (doGateEdge p high s)

/-- The pair's computed period begins at the boundary; edges of the old one that were not reported count as past. -/
def pairBoundary (p per : Nat) (s : State) : State :=
  let x := pair s p
  if x.nextReady then
    let o := x.nextWave.opening
    let fix := fun (high want : Bool) (s : State) =>
      if (if high then (pair s p).cmdH else (pair s p).cmdL) == want then s else pairLevel p high want (16 * per) s
    let s1 := if x.sched.isEmpty then s else fix false o.lo (fix true o.hi s)
    modPair p (fun x => { x with
      sched := x.next, next := [], nextReady := false, wave := x.nextWave, nextWave := {}
      off := x.off.map (fun q => (q.1, q.2 - 16 * per)) }) s1
  else modPair p (fun x => { x with sched := [], off := x.off.map (fun q => (q.1, q.2 - 16 * per)) }) s

/-- OVERLAP_NOW of a waveform at the present tick (R178). -/
def overlapNow (s : State) (g : Nat) (w : Wave) : Bool := ivIn w.ov (100 * (s.tick - (group s g).bAt))

end Sys2Proof.Machine
end

