-- ==== Sys2Proof/Machine/Time.lean ====
section
/-! DEFINITION. The time counter, the servo, PPS and the oscillator model of holdover (R265 to R279, R374; rows 126 to
128, 130 to 136, 190, 191). -/

namespace Sys2Proof.Machine

open Sys2Proof

/-! The counter (R265, R268). -/

/-- ADDEND with ADDEND_FINE, in 2^-32 ns. -/
def addend48 (s : State) : Nat := (rd s aAddend).toNat * 65536 + fld (rd s aAddendFine) 0 16

/-- Rollovers that the counter has passed, moved by PPS_OUT_TRIM (R278). -/
def ppsCount (s : State) : Int :=
  ((((s.time.sec * 1000000000 + s.time.ns) * 65536 + s.time.frac : Nat) : Int) * 1000 - sWord (rd s aPpsTrim) * 65536)
    / (1000000000 * 65536 * 1000)

/-- One CORE_CLK edge of the counter (R265). -/
def counterAdvance (s : State) : State :=
  let t := s.time
  let e := t.ext + fld (rd s aAddendFine) 0 16
  let f := t.frac + fld (rd s aAddend) 0 16 + e / 65536
  let n := t.ns + fld (rd s aAddend) 16 16 + f / 65536
  modTime (fun t => { t with
    ext := e % 65536, frac := f % 65536
    ns := if 1000000000 ≤ n then n - 1000000000 else n
    sec := if 1000000000 ≤ n then (t.sec + 1) % 2 ^ 48 else t.sec }) s

/-- The idle step: one CORE_CLK edge passes (R85, R265); it is noted whether the counter passed the rollover (R278). -/
def clockTick (s : State) : State :=
  let s1 := counterAdvance s
  { modTime (fun t => { t with ppsPass := ppsCount s != ppsCount s1 }) s1 with tick := s.tick + 1 }

/-- The counter in 2^-16 ns. -/
def nowFine (s : State) : Nat := (s.time.sec * 1000000000 + s.time.ns) * 65536 + s.time.frac

/-- The reporting rates of R284. -/
def pmuRate (c : Word) : Nat :=
  if bit c 1 then [10, 12, 15, 20, 30, 60, 120].getD (fld c 3 4) 120 else [10, 25, 50, 100].getD (fld c 3 4) 100

/-- PMU_CFG as the frames follow it: a change of class, rate or format waits for the next UTC second (R290). -/
def pmuCfgNow (s : State) : Word :=
  if s.meas.cfgPending then (fo s aPmuCfg &&& ~~~(wd 0x3FE)) ||| (s.meas.cfgOld &&& wd 0x3FE) else fo s aPmuCfg

/-- The counter in ns. -/
def nowNs (s : State) : Nat := s.time.sec * 1000000000 + s.time.ns

/-- The counter is stepped to v ns: the instants that a step back repeats, and the first one after a step forward, carry
STAT[13] (R268, hard cases of chapter 10). -/
def stepTo (v : Nat) (s : State) : State :=
  let old := nowNs s
  let last := if v < old then old else v + 1000000000 / pmuRate (pmuCfgNow s) + 1
  timeStick 0 (modTime (fun t => { t with sec := v / 1000000000, ns := v % 1000000000, stepUntil := max t.stepUntil last }) s)

/-- A signed step in ns, with carries and borrows into the seconds (R268). -/
def counterStep (d : Int) (s : State) : State := stepTo (((nowNs s : Int) + d) % (2 ^ 48 * 1000000000)).toNat s

/-- Row 126: TIME_ADJ; −2^31 is stored as −2^31 + 1 (R268). -/
def doTimeAdj (v : Word) (s : State) : State :=
  counterStep (max (sWord v) (-2147483647)) (clampSeen 0x50028 v s)

def execTimeAdj (v : Word) (s : State) : Host.Outcome State Fault Refusal := .next (doTimeAdj v (hostAccess s))

/-- Row 127: a write of TIME_SET_S_HI loads the counter (R268). -/
def doTimeSet (v : Word) (s : State) : State :=
  let s1 := wr aTimeSetHi (wd (fld v 0 16)) s
  let sec := fld v 0 16 * 2 ^ 32 + (rd s aTimeSetLo).toNat
  let ns := (rd s aTimeSetNs).toNat
  modTime (fun t => { t with sec := sec, ns := ns, frac := 0, ext := 0, ppsPass := false }) (stepTo (sec * 1000000000 + ns) s1)

def execTimeSet (v : Word) (s : State) : Host.Outcome State Fault Refusal := .next (doTimeSet v (hostAccess s))

/-! Control. -/

def servoEn (s : State) : Bool := bit (rd s aTimeCtrl) 0
/-- SERVO_SRC: 0 ETH0, 1 ETH1, 2 PPS_IN, 3 none. -/
def servoSrc (s : State) : Nat := fld (rd s aTimeCtrl) 1 2

def servoCode : ServoState → Nat
  | .freeRun => 0 | .acquiring => 1 | .locked => 2 | .holdover => 3 | .refLost => 4

/-- TIME_UNTRUSTED (R276). -/
def untrusted (s : State) : Bool := s.time.servo == .freeRun || s.time.servo == .refLost

/-- The holdover estimate HOLDOVER_TE_PPB × HOLDOVER_S, in ns (R276, R285). -/
def hoEstimate (s : State) : Nat := (rd s aHoTePpb).toNat * s.time.holdoverS

/-- The time quality code (R276, R285). -/
def timeQuality (s : State) : Nat :=
  match s.time.servo with
  | .locked => 0
  | .holdover => Config.qualityCode (hoEstimate s) % 16
  | .acquiring => Config.acquiringQuality % 16
  | _ => 15

/-- The servo changes state: interrupt 104; leaving LOCKED starts the unlocked time, entering HOLDOVER or REF_LOST the
count of seconds (R275, R288, R342). -/
def setServo (x : ServoState) (s : State) : State :=
  if s.time.servo = x then s
  else irq 104 (modTime (fun t => { t with
    servo := x, lockRun := 0, badRun := 0, holdoverS := 0
    unlockedAt := if t.servo = .locked then s.tick else t.unlockedAt }) s)

/-- Row 128: a write of ADDEND or ADDEND_FINE (R266). -/
def doAddendWrite (fine : Bool) (v : Word) (s : State) : State :=
  if servoEn s then timeStick 1 s
  else if fine then wr aAddendFine (clampReg aAddendFine v) s else wr aAddend (clampReg aAddend v) (clampSeen aAddend v s)

def execAddendWrite (fine : Bool) (v : Word) (s : State) : Host.Outcome State Fault Refusal :=
  .next (doAddendWrite fine v (hostAccess s))

/-! The oscillator model (R374). -/

/-- Temperature of HO_SRC in 0.0625 °C, if that channel is valid. -/
def hoTemp (s : State) : Option Int :=
  let k := fld (rd s (aHo 0)) 1 4
  if k < 8 then (if (chan s k).valid then some (chan s k).temp else none)
  else if s.therm.dieValid.testBit (k - 8) then some (tget dZeroI s.therm.die (k - 8)) else none

/-- e(T) in 2^-8 ppb for T in 0.0625 °C. -/
def oscTerm (s : State) (t16 : Int) : Int :=
  let d := t16 - sgn 16 (fld (rd s (aHo 4)) 0 16)
  let c1 := sgn 24 (fld (rd s (aHo 8)) 0 24)
  let c2 := sgn 24 (fld (rd s (aHo 0xC)) 0 24)
  freeDiv 374 (c1 * d * 256 + c2 * d * d) 4096

/-! The servo (R272, R273). -/

/-- ADDEND with ADDEND_FINE within R266. -/
def clampAddend (v : Int) : Nat := (clampI 0x27F000000 0x280FFFFFF v).toNat

def setAddend (v : Nat) (s : State) : State := wr aAddend (wd (v / 65536)) (wr aAddendFine (wd (v % 65536)) s)

/-- The PI law (R273): nominal is 2.5 ns, KP and KI in 2^-16 ppb per ns. -/
def servoLaw (off : Int) (s : State) : State :=
  let kp : Int := fld (rd s aServoGain) 0 16
  let ki : Int := fld (rd s aServoGain) 16 16
  let acc := s.time.acc + ki * off
  let rate := -(kp * off + acc)
  let nominal : Int := 0x280000000
  setAddend (clampAddend (nominal + freeDiv 273 (nominal * rate) (65536 * 1000000000)))
    (modTime (fun t => { t with acc := acc }) s)

/-- State of the servo with this measurement. -/
def servoNext (off : Int) (s : State) : State :=
  match s.time.servo with
  | .locked =>
    let bad := if 1000 < off.natAbs then s.time.badRun + 1 else 0
    if 4 ≤ bad then setServo .acquiring s else modTime (fun t => { t with badRun := bad }) s
  | .acquiring => s
  | _ => setServo .acquiring s

/-- 16 measurements in a row within LOCK_NS move the servo from ACQUIRING to LOCKED. -/
def servoLock (off : Int) (s : State) : State :=
  if s.time.servo = .acquiring then
    let run := if off.natAbs ≤ (rd s aLockNs).toNat then s.time.lockRun + 1 else 0
    if 16 ≤ run then setServo .locked s else modTime (fun t => { t with lockRun := run }) s
  else s

/-- A valid offset measurement reaches the servo (R272, R273, R363): a step while ACQUIRING above STEP_NS, the PI law otherwise. -/
def servoFeed (off path : Int) (s : State) : State :=
  let s1 := histFeed 5 0 off (wr aMeanPath (wdI (sat32 path)) (wr aOffsetNs (wdI (sat32 off))
    (modTime (fun t => { t with measAt := s.tick }) s)))
  if s1.time.servo = .refLost ∧ bit (rd s1 aClkStatus) 2 = false then s1
  else
    let s2 := servoNext off s1
    let steps := s2.time.servo == .acquiring && decide ((rd s2 aStepNs).toNat < off.natAbs)
    let s3 := servoLock off (if steps then counterStep (-off) s2 else servoLaw off s2)
    if s3.time.servo = .locked then
      modTime (fun t => { t with hist := ((addend48 s3, (hoTemp s3).getD 0) :: t.hist).take 64 }) s3
    else s3

/-- Ticks without a valid measurement after which the servo goes to HOLDOVER: three expected Sync intervals, or 3 s with PPS_IN. -/
def measGap (s : State) : Nat :=
  if servoSrc s = 2 then 1200000000 else 9375000 * 2 ^ (s.time.syncLog + 7).toNat

/-- Row 131: no valid measurement for three intervals (R272, R275, R374). -/
def doHoldoverEntry (s : State) : State :=
  if servoEn s && servoSrc s != 3 && (s.time.servo == .acquiring || s.time.servo == .locked)
      && decide (s.time.measAt + measGap s ≤ s.tick) then
    let h := s.time.hist
    let n := max 1 h.length
    let fr := if h.isEmpty then addend48 s
      else (freeDiv 275 ((h.foldl (fun a x => a + x.1) 0 : Nat) : Int) n).toNat
    let tm := freeDiv 376 (h.foldl (fun a x => a + x.2) 0) n
    let s1 := timeStick 2 (setServo .holdover s)
    setAddend fr (modTherm (fun q => { q with hoCorr := 0 })
      (modTime (fun t => { t with frozen := fr, eEntry := oscTerm s tm }) s1))
  else s

def execHoldoverEntry (s : State) : Host.Outcome State Fault Refusal := .next (doHoldoverEntry s)

/-- Row 132: once a second in HOLDOVER the model corrects ADDEND; in REF_LOST the second is only counted (R374). -/
def doHoldoverCorrection (s : State) : State :=
  let s1 := modTime (fun t => { t with holdoverS := t.holdoverS + 1 }) s
  match s.time.servo with
  | .refLost => s1
  | .holdover =>
    let c := if bit (rd s (aHo 0)) 0 then
        (match hoTemp s with | some t => oscTerm s t - s.time.eEntry | none => s.therm.hoCorr) else 0
    let s2 := if bit (rd s (aHo 0)) 0 && (hoTemp s).isNone then thermStick 3 s1 else s1
    let f : Int := s.time.frozen
    setAddend (clampAddend (f - freeDiv 375 (f * c) (256 * 1000000000))) (modTherm (fun q => { q with hoCorr := c }) s2)
  | _ => s

def execHoldoverCorrection (s : State) : Host.Outcome State Fault Refusal := .next (doHoldoverCorrection s)

/-- Row 191: a write of TIME_CTRL (R272). -/
def doTimeCtrlWrite (v : Word) (s : State) : State :=
  let s1 := wr aTimeCtrl (clampReg aTimeCtrl v) s
  if (servoEn s1 && servoSrc s1 != 3) || s1.time.servo == .refLost then s1 else setServo .freeRun s1

def execTimeCtrlWrite (v : Word) (s : State) : Host.Outcome State Fault Refusal := .next (doTimeCtrlWrite v (hostAccess s))

/-- REF_PRESENT is 1 again: a servo that has no input leaves REF_LOST at once (R272). -/
def refBack (s : State) : State :=
  let s1 := modClock (fun c => { c with refGone := false }) (setClk 2 true s)
  if s1.time.servo = .refLost ∧ (servoEn s1 = false ∨ servoSrc s1 = 3) then setServo .freeRun s1 else s1

/-- Row 190: the selected reference is present again (R272). -/
def doReferenceReturn (s : State) : State := if bit (rd s aClkStatus) 2 then s else refBack s

def execReferenceReturn (s : State) : Host.Outcome State Fault Refusal := .next (doReferenceReturn s)

/-! PPS (R278, R279). -/

/-- Row 133: PPS_OUT rises at the edge whose advance passed the rollover. -/
def doPpsOutRise (s : State) : State :=
  if bit (rd s aPpsCfg) 0 && s.time.ppsPass then modTime (fun t => { t with ppsOut := true, ppsAt := s.tick, ppsPass := false }) s
  else s

def execPpsOutRise (s : State) : Host.Outcome State Fault Refusal := .next (doPpsOutRise s)

/-- PPS_WIDTH in ticks. -/
def ppsWidth (s : State) : Nat := 400000 * fld (rd s aPpsCfg) 8 9

/-- Row 134: PPS_OUT falls PPS_WIDTH ms after it rose. -/
def doPpsOutFall (s : State) : State :=
  if s.time.ppsAt + ppsWidth s ≤ s.tick then modTime (fun t => { t with ppsOut := false }) s else s

def execPpsOutFall (s : State) : Host.Outcome State Fault Refusal := .next (doPpsOutFall s)

/-- Row 135: a PPS_IN edge is stamped, and feeds the servo with SERVO_SRC = PPS_IN. -/
def doPpsInEdge (s : State) : State :=
  let t := s.time
  let old := rd s aPpsInHi
  let hi := wd ((t.sec / 2 ^ 32) % 65536 + 65536 + 131072 * b2n (bit old 16 || bit old 17))
  let s1 := irq 105 (landNew aPpsInHi 16 hi (wr aPpsInLo (wd t.sec) (wr aPpsInNs (wd t.ns)
    (modTime (fun t => { t with ppsInAt := s.tick }) s))))
  if servoEn s1 && servoSrc s1 == 2 then
    servoFeed (if t.ns ≤ 500000000 then (t.ns : Int) else (t.ns : Int) - 1000000000) 0 s1
  else s1

def execPpsInEdge (s : State) : Host.Outcome State Fault Refusal := .next (doPpsInEdge s)

/-- Row 136: no edge for 1.5 s. -/
def doPpsInMissing (s : State) : State := if s.time.ppsInAt + 600000000 ≤ s.tick then timeStick 3 s else s

def execPpsInMissing (s : State) : Host.Outcome State Fault Refusal := .next (doPpsInMissing s)

/-- A PTP measurement counts: the servo takes the slave port named by SERVO_SRC, which is enabled with its link up and
PTP in effect (R272, R273, R44). -/
def ptpSource (s : State) : Bool :=
  servoEn s && decide (servoSrc s < 2) &&
    (let c := rd s (aEth (servoSrc s) 0)
     bit c 0 && bit c 2 && (if servoSrc s = 0 then s.eth.mac0 != 0 else s.eth.mac1 != 0)
       && (rd s aPtpIdLo != 0 || rd s aPtpIdHi != 0))

/-- SERVO_PARENT, byte i at bits [8i+7:8i]. -/
def servoParent (s : State) : Nat :=
  (rd s aParentLo).toNat + 2 ^ 32 * (rd s aParentMid).toNat + 2 ^ 64 * fld (rd s aParentHi) 0 16

/-- The servo accepts the exchange: sender, domain, Sync interval and the port's delay mechanism are right (R269, R273). -/
def ptpTakes (x : PtpExchange) (s : State) : Bool :=
  ptpSource s && x.sender.toNat == servoParent s && x.domain.toNat == fld (rd s aPtpDomain) 0 8
    && decide (-7 ≤ x.logSync) && decide (x.logSync ≤ 4)
    && (bit (rd s (aEth (servoSrc s) 0)) 5 == match x.path with | .p2p .. => true | .e2e .. => false)

/-- Twice the time from the Sync's transmission to its reception on the local counter, in 2^-16 ns. -/
def syncTime2 (x : PtpExchange) : Int := 2 * ((x.t2 : Int) - x.t1 - x.corr)

/-- Twice the mean path delay, in 2^-16 ns. -/
def pathTime2 (x : PtpExchange) : Int :=
  match x.path with
  | .e2e t3 t4 corr => ((x.t2 : Int) - x.t1 - x.corr) + ((t4 : Int) - t3 - corr)
  | .p2p t1 t2 t3 t4 corr => ((t4 : Int) - t1) - ((t3 : Int) - t2) - corr

/-- The measured offset and mean path delay in ns; their rounding is not stated. -/
def ptpOffset (x : PtpExchange) : Int := freeDiv 269 (syncTime2 x - pathTime2 x) 131072
def ptpPath (x : PtpExchange) : Int := freeDiv 270 (pathTime2 x) 131072

/-- Row 130: a PTP offset measurement (R273). -/
def doServoMeasurement (x : PtpExchange) (s : State) : State :=
  if ptpTakes x s then servoFeed (ptpOffset x) (ptpPath x) (modTime (fun t => { t with syncLog := x.logSync }) s) else s

def execServoMeasurement (x : PtpExchange) (s : State) : Host.Outcome State Fault Refusal :=
  .next (doServoMeasurement x s)

end Sys2Proof.Machine
end

