-- ==== Sys2Proof/Machine/TwillPhy.lean ====
section
/-! DEFINITION. Twill lanes, alignment and bring-up, loopbacks, and the LINK_TRAIN operation (R101 to R130; rows 52 to
71). -/

namespace Sys2Proof.Machine

open Sys2Proof

/-! Settings of a link. -/

def isWz (l : Nat) : Bool := decide (36 ≤ l)
def linkCfg (s : State) (l : Nat) : Word := rd s (aLink l 0)
/-- WZ_DIR: the port is inbound (R129). -/
def wzInbound (s : State) (l : Nat) : Bool := isWz l && bit (linkCfg s l) 11
/-- The RATE codes that the device offers, as a mask (R119). -/
def ownRates (s : State) (l : Nat) : Nat := 2 ^ (fld (linkCfg s l) 0 2 + 1) - 1
/-- LOCAL_CAP (R119). -/
def localCap (s : State) (l : Nat) : Word :=
  wd (ownRates s l + 16 + (if isWz l then (if wzInbound s l then 0x8200 else 0x100) else 0))
/-- RATE codes that both ends support. -/
def bothRates (s : State) (l : Nat) (cap : Word) : Nat := ownRates s l &&& fld cap 0 4
/-- The highest common code, and the next one above a rate (R119, R120). -/
def topRate (m : Nat) : Nat := ((bitsOf 4 m).getLast?).getD 0
def nextRate (m r : Nat) : Nat := ((bitsOf 4 m).find? (fun i => decide (r < i))).getD r
def capAcceptable (c : Word) : Bool := bit c 0 && fld c 4 4 == 1 && bit c 15

/-- LT_STATE (R120). -/
def ltCode : LtState → Nat
  | .disabled => 0 | .clockStart => 1 | .align => 2 | .capExchange => 3 | .check => 4 | .rateSwitch => 5
  | .linked => 6 | .failed => 7 | .loopback => 8

/-! Lanes. -/

/-- What a lane's driver does at the pads. -/
inductive Lane where
  | runs | low | highZ
  deriving DecidableEq, Repr

/-- DCK: it runs, is held at differential low, or, at an inbound port, is an input (R105, R129). -/
def dckLane (s : State) (l : Nat) : Lane := if wzInbound s l then .highZ else if (link s l).dck then .runs else .low

/-- DDT: low while DCK is stopped, but for the near-end serial loop (R105, R124). -/
def ddtLane (s : State) (l : Nat) : Lane :=
  let x := link s l
  if wzInbound s l then .highZ else if x.dck || (x.st == .loopback && x.loop == 1) then .runs else .low

/-- UDT is ignored in the near-end loops (R124). -/
def nearLoop (x : Link) : Bool := x.st == .loopback && x.loop != 3

/-! What the registers show of the receiver. -/

/-- PICK: the pick of the latest acquisition, moved by the feed-forward since (R107); a step is a 64th of the unit interval (R102,
R106). -/
def pickNow (s : State) (l : Nat) : Nat :=
  let x := link s l
  ((x.pick + roundQ ((feedForward s l (100 * s.tick) - x.pickFf) * (2 ^ x.rate : Nat))) % 64).toNat

/-- EBUF_FILL: 16 at marker lock, and less or more by the symbols that the two clocks have moved apart since (R108). -/
def ebufNow (s : State) (l : Nat) : Nat :=
  let x := link s l
  if x.ebufFill = 0 then 0
  else (clampI 0 32 (x.ebufFill - roundQ ((feedForward s l (100 * s.tick) - x.lockFf) / symTaps x.rate))).toNat

/-- PRBS_BITS. -/
def prbsBits (s : State) (l : Nat) : Nat := (rd s (aLink l 0x38)).toNat + 2 ^ 32 * (rd s (aLink l 0x3C)).toNat
def setPrbsBits (l n : Nat) (s : State) : State := wr (aLink l 0x3C) (wd (n / 2 ^ 32)) (wr (aLink l 0x38) (wd n) s)
/-- Bits of the CHECK window (R120). -/
def windowBits (s : State) (l : Nat) : Nat := 10 ^ fld (linkCfg s l) 2 4
def retries (s : State) (l : Nat) : Nat := fld (linkCfg s l) 6 2

/-! Steps of bring-up (R120 to R122). -/

/-- A CHECK window begins, or begins again: PRBS_BITS counts from the entry to CHECK (R130). -/
def startCheck (l : Nat) (s : State) : State :=
  let fresh := (link s l).st != .check
  let s1 := modLink l (fun x => { x with
    st := .check, stage := .idle, checkErr := 0, checkBits := 0, checkOn := false, checkTail := none, fbClean := 0
    frames := if fresh then 0 else x.frames, ownCheck := !fresh && x.ownCheck, countdown := none }) s
  if fresh then setPrbsBits l 0 s1 else s1

/-- LINKED: operating superframes run from here, with BLK = 1 until the group is enabled. In RUN a link that a BLOCK or a faulted MOD
tile holds goes on under a block run (R136, R182, R214); outside RUN it carries none (R128). -/
def enterLinked (limited : Bool) (l : Nat) (s : State) : State :=
  let inRun := s.dev == .run
  let held := decide (l < 36) && ((link s l).gorseBlock || s.mod.tileSafe.testBit (l / 9))
  modLink l (fun x => { x with
    st := .linked, rateLimited := limited, fail := .none, stage := .idle, fallback := false, checkOn := false
    trained := true, blk := true, txSeq := 0, rxSeq := none, txBlock := inRun && held, stopDue := false, runFrames := 0
    outside := !inRun && decide (l < 36), farLoop := false, countdown := none }) s

/-- The handshake of a switch to rate r (R121). -/
def startSwitch (l r : Nat) (s : State) : State :=
  modLink l (fun x => { x with st := .rateSwitch, stage := .request, target := r, checkOn := false, frames := 0, countdown := none }) s

/-- Retries have run out at a step above RATE 0: back to the last rate that passed CHECK (R122). alive: the handshake
can still be held at the present rate. Where it cannot, since no upstream came there, DCK stops and restarts without it (DESIGN CHOICE,
log entry 76). -/
def fallBack (alive : Bool) (l : Nat) (s : State) : State :=
  let x := link s l
  let good := x.goodRate.getD 0
  let s1 := modLink l (fun x => { x with fallback := true, tries := 0 }) s
  if x.rate = good then modLink l (fun x => { x with fallback := true }) (startCheck l s1)
  else if alive then startSwitch l good s1
  else modLink l (fun x => { x with dck := false, upLock := false, stage := .stopped }) (startSwitch l good s1)

/-- A failure in CHECK (R122). -/
def checkFail (l : Nat) (s : State) : State :=
  let x := link s l
  if x.fallback then linkFail .ber l s
  else if x.tries < retries s l then startCheck l (modLink l (fun x => { x with tries := x.tries + 1 }) s)
  else if x.rate = 0 then linkFail .ber l s
  else fallBack true l s

/-- A failed switch (R122). -/
def switchFail (c : FailCode) (l : Nat) (s : State) : State :=
  let x := link s l
  let good := x.goodRate.getD 0
  if x.fallback then linkFail .ber l s
  else if x.tries < retries s l then
    startSwitch l x.target (modLink l (fun x => { x with tries := x.tries + 1, rate := good }) s)
  else if good = 0 then linkFail c l s
  else fallBack false l s

/-! LINK_TRAIN. -/

/-- A named link starts bring-up at RATE 0: CLOCK_START, then ALIGN at once (R120, R128). -/
def trainLink (l : Nat) (s : State) : State :=
  let s1 := latClear false l s
  modLink l (fun x => { x with
    st := .align, rate := 0, upLock := false, rateLimited := false, fail := .none, dck := true, launchOfs := 0, txBlock := false
    stopDue := false, frame := [], txRd := false, frames := 0, countdown := none, ownCheck := false, fbClean := 0, prbsSeen := 0
    checkErr := 0, checkBits := 0, outside := false, farLoop := false, eyeWidth := 0, pick := 0, capRun := 0, capLast := 0, partnerErr := 0, tries := 0, goodRate := none
    finalRate := 0, target := 0, stage := .idle, fallback := false, checkOn := false, checkTail := none, markerRun := 0
    everLocked := false, txSeq := 0, rxSeq := none, tSum := 0, tauSum := 0, tCnt := 0, txq := [] }) s1

/-- What LINK_TRAIN does with one named link at its start (R120, R127 to R129, hard cases). A link in LOOPBACK, whose only exit is a
write of LOOP, stays there with IN_SERVICE, and a LINKED link that its tile no longer defines stays LINKED with NOT_DEFINED (log
entry 78). -/
def trainOne (l : Nat) (s : State) : State :=
  let s1 := modLink l (fun x => { x with named := true }) s
  let only := fun (c : FailCode) => modLink l (fun x => { x with fail := c }) s1
  let st := (link s l).st
  if st = .loopback then only .inService
  else if isWz l then if wzInbound s l then only .notDefined else trainLink l s1
  else if !linkDefined s l then if st = .linked then only .notDefined else linkFail .notDefined l s1
  else if linkInService s l then only .inService
  else if tileFaulted s (l / 9) then linkFail .clock l s1
  else trainLink l s1

/-- LINK_MASK of slot i. -/
def trainMask (s : State) (i : Nat) : Nat := (param s i 0).toNat + 2 ^ 32 * fld (param s i 1) 0 6

def linkTrainStart (i : Nat) (s : State) : State := forEach (bitsOf 38 (trainMask s i)) trainOne s

/-- A named link has its outcome. -/
def trainEnded (x : Link) : Bool := x.st == .linked || x.st == .failed || x.fail != .none
/-- The last named link has reached LINKED or FAILED: the arbitration point (R356). -/
def trainAll (s : State) : Bool := (List.range 38).all (fun l => !(link s l).named || trainEnded (link s l))

def unname (s : State) : State :=
  forEach (List.range 38) (fun l s => if (link s l).named then modLink l (fun x => { x with named := false }) s else s) s

/-- A CANCEL of LINK_TRAIN before its arbitration point. -/
def trainCancel (s : State) : State :=
  unname (forEach (List.range 38) (fun l s =>
    let x := link s l
    if x.named && !trainEnded x then linkFail .cancelled l s else s) s)

/-- Row 65: LINK_TRAIN completes (R356). -/
def doLinkTrainDone (s : State) : State :=
  match runSlot s 0x04 with
  | none => s
  | some i =>
    if trainAll s then
      let lk := maskOf 38 (fun l => (link s l).named && (link s l).fail == .none)
      let fl := maskOf 38 (fun l => (link s l).named && (link s l).fail != .none)
      endSlot i .completed [0, wd lk, wd (lk / 2 ^ 32 + 256 * (fl / 2 ^ 32)), wd fl] (unname s)
    else s

def execLinkTrainDone (s : State) : Host.Outcome State Fault Refusal := .next (doLinkTrainDone s)

/-! Alignment: rows 52 to 57. -/

/-- MARKER_SEEN in manual alignment: a superframe came with a K28.5 at the held boundary, or passed without one (R113). -/
def markerMark (l : Nat) (b : Bool) (s : State) : State :=
  if (link s l).manual then modLink l (fun x => { x with markerSeen := b }) s else s

/-- The receiver of link l picks phases: it is in use, and the near-end parallel loop bypasses the picker (R106, R124). -/
def picks (x : Link) : Bool := x.st != .disabled && x.st != .failed && !(x.st == .loopback && x.loop == 2)

/-- Row 52: the phase sweep ends: the pick lies at the centre of the widest open span (R106). -/
def doPhaseAcquired (l : Nat) (eye : BitVec 64) (s : State) : State :=
  if picks (link s l) then
    let e := eyeOf eye
    let ff := feedForward s l (100 * s.tick)
    modLink l (fun x => { x with eyeWidth := e.1, pick := e.2, pickFf := ff }) s
  else s

def execPhaseAcquired (l : LinkNo) (eye : BitVec 64) (s : State) : Host.Outcome State Fault Refusal :=
  .next (doPhaseAcquired l eye s)

/-- Marker lock at the receiver: the buffer centres itself, and the line code and the PRBS checker start afresh (R108, R111, R117). -/
def lockIn (l : Nat) (s : State) : State :=
  let ff := feedForward s l (100 * s.tick)
  let s1 := modLink l (fun x => { x with
    upLock := true, markerRun := 0, ebufFill := 16, lockFf := ff, everLocked := false, rxRd := none, prbsSeen := 0, fbClean := 0
    markerSeen := x.markerSeen || x.manual }) (if isWz l then setLive (154 + l) false s else s)
  if (link s l).everLocked then cntSat (aLink l 0x34) 1 s1 else s1

/-- Row 53: marker lock (R108, R111, R120, R122). An inbound Wozin port has no phase pick of its own and answers the
bring-up that the outbound side runs (R129). A manual SLIP_POS stays as the last slips left it, since automatic alignment reports no
position there (DESIGN CHOICE, log entry 141). -/
def doUpLock (l : Nat) (s : State) : State :=
  let x := link s l
  if wzInbound s l && x.st != .loopback then
    (if x.upLock then s
     else modLink l (fun x => { x with dck := true, st := if x.st = .disabled ∨ x.st = .failed then .align else x.st }) (lockIn l s))
  else if x.upLock || x.st == .disabled || x.st == .failed || (!x.dck && x.st != .loopback) then s
  else
    let s2 := lockIn l s
    if x.st = .align then
      (if x.eyeWidth < 16 then linkFail .eyeNarrow l s2
       else if x.fallback then modLink l (fun x => { x with fallback := true }) (startCheck l s2)
       else modLink l (fun x => { x with st := .capExchange, stage := .idle, capRun := 0, capLast := 0, frames := 0 }) s2)
    else s2

def execUpLock (l : LinkNo) (s : State) : Host.Outcome State Fault Refusal := .next (doUpLock l s)

/-- Row 54: no lock within 10 ms in ALIGN (R113, R120 to R122). -/
def doAlignTimeout (l : Nat) (s : State) : State :=
  let x := link s l
  if x.st = .align ∧ x.upLock = false ∧ x.manual = false then
    if x.stage = .restarted then switchFail .noUpstream l s else linkFail .noUpstream l s
  else s

def execAlignTimeout (l : LinkNo) (s : State) : Host.Outcome State Fault Refusal := .next (doAlignTimeout l s)

/-- UP_LOSS on a Wozin port in LINKED is WZ_LINK (R157). -/
def wzLinkRise (l : Nat) (s : State) : State :=
  if isWz l && (link s l).st == .linked then bRise (154 + l) s else s

/-- Row 55: a missing or misplaced K28.5 (R111, R113, R127, R149). -/
def doMarkerErr (l : Nat) (s0 : State) : State :=
  let s := markerMark l false s0
  let x := link s l
  if x.upLock && (x.dck || x.st == .loopback) then
    let s1 := modLink l (fun x => { x with markerRun := x.markerRun + 1 }) (cntSat (aLink l 0x2C) 1 s)
    if 4 ≤ x.markerRun + 1 then
      let s2 := modLink l (fun x => { x with upLock := false, everLocked := true, markerRun := 0 }) s1
      wzLinkRise l (latClear true l (ltStick l 0 s2))
    else s1
  else s

def execMarkerErr (l : LinkNo) (s : State) : Host.Outcome State Fault Refusal := .next (doMarkerErr l s)

/-- Row 56: the residual leaves the tracking range: the receiver sets PHASE_LIMIT and sweeps again (R106, R107). Until the sweep ends
EYE reads as before the first one (DEDUCED, log entry 141). -/
def doPhaseLimit (l : Nat) (s : State) : State :=
  ltStick l 2 (if picks (link s l) then modLink l (fun x => { x with eyeWidth := 0, pick := 0, pickFf := 0 }) s else s)

def execPhaseLimit (l : LinkNo) (s : State) : Host.Outcome State Fault Refusal := .next (doPhaseLimit l s)

/-- Row 57: the elastic buffer overflows or underflows (R108). -/
def doEbufErr (l : Nat) (s : State) : State :=
  let ff := feedForward s l (100 * s.tick)
  ltStick l 1 (modLink l (fun x => { x with
    ebufFill := 16, lockFf := ff, everLocked := x.everLocked || x.upLock, upLock := false, markerRun := 0 }) s)

def execEbufErr (l : LinkNo) (s : State) : Host.Outcome State Fault Refusal := .next (doEbufErr l s)

/-! Row 58: training blocks. -/

/-- Errors and codes of a received superframe are counted (R109). -/
def countCodes (l codeErr dispErr : Nat) (s : State) : State :=
  let s1 := if codeErr = 0 then s else cntSat (aLink l 0x24) codeErr s
  let s2 := if dispErr = 0 then s1 else cntSat (aLink l 0x28) dispErr s1
  if 16 ≤ codeErr then ltStick l 3 s2 else s2

/-- PRBS checking of one superframe (R117). -/
def prbsCount (l err : Nat) (s : State) : State :=
  setPrbsBits l (prbsBits s l + 2380) (if err = 0 then s else cntSat (aLink l 0x30) err s)

/-- A valid block in CAP_EXCHANGE (R120, hard cases). -/
def capBlock (l : Nat) (cap : Word) (s : State) : State :=
  let x := link s l
  let run := if cap = x.capLast then x.capRun + 1 else 1
  let s1 := modLink l (fun x => { x with capRun := run, capLast := cap }) s
  if run < 16 then s1
  else if capAcceptable cap then
    startCheck l (modLink l (fun x => { x with finalRate := topRate (bothRates s l cap), tries := 0 }) s1)
  else linkFail .capInvalid l s1

/-- A superframe in CHECK: err counts this end's errors, on holds where CHECK_ON is set in both directions, theirs is the partner's
ERR_COUNT where its block is valid. -/
def checkBlock (l err : Nat) (on : Bool) (theirs : Option Nat) (s : State) : State :=
  let x := link s l
  let live := x.checkOn || on
  let tail := x.checkTail.isSome
  let worse := x.checkOn && (match theirs with | some n => decide (x.partnerErr < n) | none => false)
  let mine := if tail || !live then 0 else err
  let s1 := modLink l (fun x => { x with
    checkOn := live, checkErr := x.checkErr + mine, checkBits := x.checkBits + if live && !tail then 2380 else 0
    partnerErr := theirs.getD x.partnerErr }) s
  if mine ≠ 0 ∨ worse = true then checkFail l s1
  else
    match x.checkTail with
    | some n => modLink l (fun x => { x with checkTail := some (n - 1) }) s1
    | none =>
      if live && decide (windowBits s1 l ≤ (link s1 l).checkBits) then modLink l (fun x => { x with checkTail := some 4 }) s1
      else s1

/-- A superframe after a fallback (R122): 4,096 in a row must be free of errors. -/
def confirmBlock (l err : Nat) (s : State) : State :=
  if err = 0 then modLink l (fun x => { x with fbClean := x.fbClean + 1 }) s else linkFail .ber l s

/-- The bring-up state of a LT_STATE code from CLOCK_START to RATE_SWITCH. -/
def bringUpOf (n : Nat) : Option LtState := [none, some .clockStart, some .align, some .capExchange, some .check, some .rateSwitch].getD n none

/-- What reception found in a training superframe: the block, where its CRC is right, the errors of R117, and the code and disparity
errors of the whole superframe. -/
structure TrainRx where
  block : Option TrainBlock := none
  errs : Nat := 0
  code : Nat := 0
  disp : Nat := 0
  deriving DecidableEq, Repr

/-- The symbols of a superframe that arrives as groups. -/
def rxSyms (x : Link) (groups : List (BitVec 10)) : List Sym × Bool := symsOf (x.rxRd.getD (startRd groups)) groups

/-- Training symbols are taken in: the block, the PRBS checker and the counts of R109. -/
def trainRx (l : Nat) (syms : List Sym) (s : State) : TrainRx × State :=
  let x := link s l
  let block := (symBytes syms 2 16).bind blockOfBytes
  let c := prbsCheck x.prbsSeen x.prbsRx (syms.drop 18)
  let r : TrainRx := { block := block, errs := c.1 + blockErrs (isWz l) syms + b2n block.isNone
                       code := codeErrs (isWz l) syms, disp := dispErrs syms }
  (r, countCodes l r.code r.disp (modLink l (fun x => { x with
    prbsSeen := c.2.1, prbsRx := c.2.2, lastRx := syms, markerRun := if kAt syms 0 .k28_5 then 0 else x.markerRun }) s))

/-- An inbound port answers the training superframes of the outbound side (R123, R125, R129): it shows the state and the rate of
the other end, counts errors while CHECK_ON is set there, accepts a TARGET that it supports, switches when the countdown has
come to 0, and returns a far-end loop. While it is the root reference it takes no rate but its own (R96). -/
def inboundBlock (l : Nat) (r : TrainRx) (s : State) : State :=
  match r.block with
  | none => if (link s l).st = .check then modLink l (fun x => { x with checkErr := x.checkErr + r.errs }) (prbsCount l r.errs s) else s
  | some b =>
    let x := link s l
    let held := refSrc s == l - 35
    if held && b.rate != x.rate then s
    else
      let st := (bringUpOf b.state).getD x.st
      let check := st == .check
      let ack := b.flags.testBit 0 && (ownRates s l).testBit b.target && !held
      let down := b.flags / 16 % 16
      let done := x.stage == .countdown && x.countdown == some 1 && down == 0
      let s1 := modLink l (fun y => { y with
        st := st, rate := if done then y.target else b.rate % 4, finalRate := if done then y.target else b.rate % 4
        dck := true, partnerCap := b.cap, partnerErr := b.errs, trained := true, farLoop := b.state == 8 && b.flags.testBit 3
        checkErr := if check && y.st == .check then y.checkErr + (if b.flags.testBit 2 then r.errs else 0) else 0
        target := if ack then b.target else y.rate, stage := if ack && !done then .countdown else .idle
        countdown := if ack && !done && down != 0 then some down else none, upLock := y.upLock && !done }) (latClear false l s)
      if check then prbsCount l r.errs (if x.st = .check then s1 else setPrbsBits l 0 s1) else s1

/-- A loop's own stream comes back (R117, R124, R125). -/
def loopRx (l : Nat) (r : TrainRx) (s : State) : State :=
  prbsCount l r.errs (if r.errs = 0 then modLink l (fun x => { x with loopSync := true }) s else s)

/-- An upstream training superframe at the device side of bring-up (R115 to R122). -/
def bringUpRx (l : Nat) (r : TrainRx) (s0 : State) : State :=
  let x := link s0 l
  let s := match r.block with
    | some b => modLink l (fun x => { x with partnerCap := b.cap }) s0
    | none => s0
  let err := match r.block with
    | some b => modLink l (fun x => { x with partnerErr := b.errs }) s
    | none => s
  match x.st with
  | .capExchange =>
    match r.block with
    | some b => capBlock l b.cap err
    | none => modLink l (fun x => { x with capRun := 0 }) s
  | .check =>
    let s1 := prbsCount l r.errs s
    if x.fallback then confirmBlock l (r.errs + r.code + r.disp) (match r.block with
      | some b => modLink l (fun x => { x with partnerErr := b.errs }) s1
      | none => s1)
    else checkBlock l r.errs (x.ownCheck && (match r.block with | some b => b.flags.testBit 2 | none => false))
      (r.block.map (·.errs)) s1
  | .rateSwitch =>
    match r.block with
    | some b =>
      if x.stage = .request ∧ b.flags.testBit 1 = true ∧ b.target = x.target then modLink l (fun x => { x with stage := .countdown }) err
      else err
    | none => s
  | _ => err

/-- Row 58: an upstream training superframe (R109, R113 to R122, R125). It is received only with marker lock, and not in the
near-end loops, which ignore UDT (R124). -/
def doTrainingBlockRx (l : Nat) (groups : List (BitVec 10)) (s0 : State) : State :=
  let x := link s0 l
  if nearLoop x then s0
  else
    let y := rxSyms x groups
    let s := markerMark l (kAt y.1 0 .k28_5) s0
    if x.upLock && (wzInbound s l || inBringUp x.st || x.st == .loopback) then
      let r := trainRx l y.1 (modLink l (fun x => { x with rxRd := some y.2 }) s)
      if x.st = .loopback then loopRx l r.1 r.2
      else if wzInbound s l then inboundBlock l r.1 r.2
      else bringUpRx l r.1 r.2
    else s

/-! Rows 59 to 64. -/

/-- Row 59: no acceptable capability within 1,024 superframes (R120). -/
def doCapTimeout (l : Nat) (s : State) : State := if (link s l).st = .capExchange ∧ 1024 ≤ (link s l).frames then linkFail .capInvalid l s else s

def execCapTimeout (l : LinkNo) (s : State) : Host.Outcome State Fault Refusal := .next (doCapTimeout l s)

/-- Row 60: the window is complete, the last blocks have come and nothing was counted (R120). -/
def doCheckWindowDone (l : Nat) (s : State) : State :=
  let x := link s l
  if x.st = .check ∧ x.fallback = false ∧ x.checkTail = some 0 then
    let s1 := modLink l (fun x => { x with goodRate := some x.rate, tries := 0, checkOn := false }) s
    if x.rate = x.finalRate then enterLinked false l s1
    else startSwitch l (nextRate (bothRates s l x.partnerCap) x.rate) s1
  else s

def execCheckWindowDone (l : LinkNo) (s : State) : Host.Outcome State Fault Refusal := .next (doCheckWindowDone l s)

/-- Row 61: no ACK within 1,024 superframes (R121, R122). -/
def doAckTimeout (l : Nat) (s : State) : State :=
  let x := link s l
  if x.st = .rateSwitch ∧ x.stage = .request ∧ 1024 ≤ x.frames then switchFail .noAck l s else s

def execAckTimeout (l : LinkNo) (s : State) : Host.Outcome State Fault Refusal := .next (doAckTimeout l s)

/-- Row 62: the superframe with COUNTDOWN 0 ends: DCK stops (R121). -/
def doCountdownEnd (l : Nat) (s : State) : State :=
  let x := link s l
  if x.st = .rateSwitch ∧ x.stage = .countdown ∧ x.countdown = some 0 then
    modLink l (fun x => { x with stage := .stopped, dck := false, upLock := false, everLocked := false, frame := [], countdown := none }) s
  else s

def execCountdownEnd (l : LinkNo) (s : State) : Host.Outcome State Fault Refusal := .next (doCountdownEnd l s)

/-- Row 63: DCK restarts at the new rate (R121). -/
def doDckRestart (l : Nat) (s : State) : State :=
  let x := link s l
  if x.st = .rateSwitch ∧ x.stage = .stopped then
    modLink l (fun x => { x with
      st := .align, stage := .restarted, rate := x.target, dck := true, launchOfs := 0, eyeWidth := 0, pick := 0, frame := []
      frames := 0, prbsSeen := 0 }) s
  else s

def execDckRestart (l : LinkNo) (s : State) : Host.Outcome State Fault Refusal := .next (doDckRestart l s)

/-- Row 64: 4,096 superframes without an error since marker lock after a fallback (R122). One with an error has failed the link
already. -/
def doFallbackConfirm (l : Nat) (s : State) : State :=
  let x := link s l
  if x.fallback && x.st == .check && decide (4096 ≤ x.fbClean) then enterLinked true l s else s

def execFallbackConfirm (l : LinkNo) (s : State) : Host.Outcome State Fault Refusal := .next (doFallbackConfirm l s)

/-! Manual alignment and skew: rows 66 to 68, 71. -/

/-- Row 66: BITSLIP[0] (R112). -/
def doBitslipUp (l : Nat) (s : State) : State :=
  if (link s l).manual then modLink l (fun x => { x with slipPos := (x.slipPos + 1) % 10 }) s
  else ltStick l 4 s

def execBitslipUp (l : LinkNo) (s : State) : Host.Outcome State Fault Refusal := .next (doBitslipUp l (hostAccess s))

/-- Row 67: BITSLIP[1] (R112). -/
def doBitslipDown (l : Nat) (s : State) : State :=
  let st := (link s l).st
  if st = .align ∨ st = .capExchange ∨ st = .check ∨ st = .loopback then modLink l (fun x => { x with downSlipPend := x.downSlipPend + 1 }) s
  else ltStick l 4 s

def execBitslipDown (l : LinkNo) (s : State) : Host.Outcome State Fault Refusal := .next (doBitslipDown l (hostAccess s))

/-- Row 68: ALIGN_MODE takes effect at a superframe start (R113). -/
def doAlignModeChange (l : Nat) (s : State) : State := modLink l (fun x => { x with manual := bit (linkCfg s l) 8 }) s

def execAlignModeChange (l : LinkNo) (s : State) : Host.Outcome State Fault Refusal := .next (doAlignModeChange l s)

/-- Row 71: DDT_SKEW takes effect at a superframe start (R104). -/
def doDdtSkewApply (l : Nat) (s : State) : State := modLink l (fun x => { x with skew := fld (rd s (aLink l 4)) 0 8 }) s

def execDdtSkewApply (l : LinkNo) (s : State) : Host.Outcome State Fault Refusal := .next (doDdtSkewApply l s)

/-! Loopbacks: rows 69 and 70. -/

/-- Row 69: a write of LOOP (R124). -/
def doLoopWrite (l loop : Nat) (s : State) : State :=
  let x := link s l
  let store := wr (aLink l 0) (putFld (linkCfg s l) 9 2 loop)
  if loop % 4 = 0 then
    let s1 := store s
    if x.st = .loopback then
      modLink l (fun x => { x with st := .disabled, loop := 0, dck := false, upLock := false, everLocked := false, frame := [] }) s1
    else s1
  else if (x.st = .disabled ∨ x.st = .failed ∨ x.st = .linked) ∧ linkInService s l = false then
    setPrbsBits l 0 (modLink l (fun x => { x with
      st := .loopback, loop := loop % 4, rate := if x.trained then x.rate else 0, dck := loop % 4 == 3, upLock := false
      everLocked := false, txBlock := false, stopDue := false, txq := [], frame := [], frames := 0, prbsSeen := 0, loopSync := false
      checkErr := 0, outside := false }) (latClear false l (store s)))
  else ltStick l 5 s

def execLoopWrite (l : LinkNo) (loop : BitVec 2) (s : State) : Host.Outcome State Fault Refusal :=
  .next (doLoopWrite l loop.toNat (hostAccess s))

/-- Row 70: the far-end loop checker has not synchronised within 16 superframes of entry (R125). -/
def doLoopFail (l : Nat) (s : State) : State :=
  let x := link s l
  if x.st = .loopback ∧ x.loop = 3 ∧ x.loopSync = false ∧ 16 ≤ x.frames then ltStick l 6 s else s

def execLoopFail (l : LinkNo) (s : State) : Host.Outcome State Fault Refusal := .next (doLoopFail l s)

end Sys2Proof.Machine
end

