-- ==== Sys2Proof/Machine/Clocks.lean ====
section
/-! DEFINITION. The clock root: detection, lock, divider release, losses, spread spectrum, reference selection and the
clock monitor (R82 to R100; rows 38 to 51). -/

namespace Sys2Proof.Machine

open Sys2Proof

/-- The listed frequencies in the order of their REF_FREQ codes (R82, R100). -/
def refList : List Nat := [10000000, 20000000, 25000000, 40000000]

/-- REF_FREQ of a REFCLK within ±1 % of a listed frequency (R83). -/
def refCode (hz : Nat) : Option Nat := refList.findIdx? (fun f => decide (99 * f ≤ 100 * hz) && decide (100 * hz ≤ 101 * f))

/-- REFCLK lies within ±100 ppm of the detected frequency (R83). -/
def refNear (s : State) : Bool :=
  let f := refList.getD (fld (rd s aClkStatus) 3 2) 0
  decide (10000 * ((s.clock.refHz : Int) - f).natAbs ≤ f)

/-- Row 38: REFCLK detection, after reset until the root locks. A good detection ends the reset that an unsupported one holds
(R83). -/
def doRefclkDetect (hz : Nat) (s : State) : State :=
  if s.clock.rootOnce then s
  else
    match refCode hz with
    | some c =>
      let s1 := if clkBit s 5 && !s.power.mainOff && !s.power.dieHold then modPower (fun p => { p with inReset := false }) s else s
      refBack (modClock (fun k => { k with refHz := hz }) (setClk 5 false (wr aClkStatus (putFld (rd s1 aClkStatus) 3 2 c) s1)))
    | none => modPower (fun p => { p with inReset := true }) (setClk 5 true s)

def execRefclkDetect (hz : Nat) (s : State) : Host.Outcome State Fault Refusal := .next (doRefclkDetect hz s)

/-- A lock of the root (false) or M-branch (true) PLL: LOCK_EVENT_CNT counts those after the first (R93, R100). -/
def lockPll (m : Bool) (s : State) : State :=
  let once := if m then s.clock.mOnce else s.clock.rootOnce
  let s1 := setClk (if m then 1 else 0) true s
  let s2 := modClock (fun k => if m then { k with mOnce := true } else { k with rootOnce := true }) s1
  if once then cntUp aLockEvent 1 s2 else s2

/-- Row 39: the root locks in the sequence of R93, to REFCLK only within ±100 ppm of the detected frequency (R83). -/
def doRootLock (s : State) : State :=
  if clkBit s 0 || !clkBit s 2 || s.clock.released || (refSrc s == 0 && !refNear s) then s else lockPll false s

def execRootLock (s : State) : Host.Outcome State Fault Refusal := .next (doRootLock s)

/-- Row 40: the M-branch PLL locks in the sequence of R93. -/
def doMLock (s : State) : State := if clkBit s 1 || !clkBit s 0 || s.clock.released then s else lockPll true s

def execMLock (s : State) : Host.Outcome State Fault Refusal := .next (doMLock s)

/-- Row 41: the dividers are released together and the fine delays are calibrated (R93, R94). After a switch of the reference a
spread that runs begins its profile anew there, and ALIGNED reads 1 (R96; DESIGN CHOICE, log entry 136). -/
def doDividerRelease (s : State) : State :=
  if clkBit s 0 && clkBit s 1 && !s.clock.released then
    setClk 6 true (modClock (fun k => { k with
      released := true, releaseAt := s.tick, fineOff := [], origins := 0
      segs := if clkBit s 7 then [{ start := s.tick, cfg := rd s aSscState }] else [] }) s)
  else s

def execDividerRelease (s : State) : Host.Outcome State Fault Refusal := .next (doDividerRelease s)

/-- The selected reference is gone: the time engine holds ADDEND (R99, R272). -/
def refAway (s : State) : State :=
  setServo .refLost (modClock (fun k => { k with refGone := true }) (setClk 2 false s))

/-- Row 42: REFCLK is missing for 4 periods; the flag is for the root reference (R99, R100). -/
def doRefLoss (s : State) : State := if refSrc s = 0 then clkStick 0 (refAway s) else s

def execRefLoss (s : State) : Host.Outcome State Fault Refusal := .next (doRefLoss s)

/-- Row 43: the Wozin reference of a follower is missing (R99). -/
def doWzRefLoss (s : State) : State := if refSrc s = 0 then s else clkStick 1 (refAway s)

def execWzRefLoss (s : State) : Host.Outcome State Fault Refusal := .next (doWzRefLoss s)

/-- Row 44: the root loses lock (R95, R99). -/
def doRootLol (s : State) : State := if clkBit s 0 then clkStick 2 (setClk 6 false (setClk 0 false s)) else s

def execRootLol (s : State) : Host.Outcome State Fault Refusal := .next (doRootLol s)

/-- Row 45: the M-branch PLL loses lock: Twill links in bring-up fail with code CLOCK (R95, R99, hard cases of
chapter 4). -/
def doMLol (s : State) : State :=
  if clkBit s 1 then
    forEach (List.range 36) (fun l s => if inBringUp (link s l).st then linkFail .clock l s else s)
      (clkStick 3 (setClk 6 false (setClk 1 false s)))
  else s

def execMLol (s : State) : Host.Outcome State Fault Refusal := .next (doMLol s)

/-- Row 46: an edge generator loses its fine-delay lock (R99). -/
def doFineCalFail (gen : Nat) (s : State) : State :=
  clkStick 4 (modClock (fun k => { k with fineOff := if k.fineOff.contains gen then k.fineOff else gen :: k.fineOff }) s)

def execFineCalFail (gen : Nat) (s : State) : Host.Outcome State Fault Refusal := .next (doFineCalFail gen s)

/-- Row 47: a PLL regains lock in service: the dividers are not released again (R95). -/
def doLockReacquired (m : Bool) (s : State) : State :=
  if s.clock.released && !clkBit s (if m then 1 else 0) then setClk 6 false (lockPll m s) else s

def execLockReacquired (m : Bool) (s : State) : Host.Outcome State Fault Refusal := .next (doLockReacquired m s)

/-- Flags whose condition persists are set again after a W1C (R99). -/
def clkReassert (s : State) : State :=
  let gone := !clkBit s 2 && s.clock.refGone
  let s1 := if gone && refSrc s == 0 then clkStick 0 s else s
  let s2 := if gone && refSrc s != 0 then clkStick 1 s1 else s1
  let s3 := if s.clock.released && !clkBit s 0 then clkStick 2 s2 else s2
  let s4 := if s.clock.released && !clkBit s 1 then clkStick 3 s3 else s3
  if s.clock.fineOff.isEmpty then s4 else clkStick 4 s4

/-! Spread spectrum. -/

/-- Row 48: SSC_APPLY (R88). -/
def doSscApply (v : Word) (s : State) : State :=
  if bit v 0 then modClock (fun k => { k with sscPending := some (rd s aSscCfg), sscAt := s.tick }) s else s

def execSscApply (v : Word) (s : State) : Host.Outcome State Fault Refusal := .next (doSscApply v (hostAccess s))

/-- What one whole profile adds to dev(t), in taps: down-spread loses depth × period / 2, centre-spread nothing (R94). -/
def devPerProfile (c : Word) : Rat := devTri c profLen

/-- The first tick at or after n profiles of setting c from tick t (R87): a profile lasts 40,000,000 / RATE ticks. -/
def originTick (t : Nat) (c : Word) (n : Nat) : Nat :=
  let r := fld c 16 16
  t + (n * 40000000 + r - 1) / r

/-- The first alignment instant at least 10 ns after the latest write of SSC_APPLY (R88, R94). -/
def alignTick (s : State) : Nat :=
  let r := s.clock.releaseAt
  r + (s.clock.sscAt + 4 - r + 639) / 640 * 640

/-- The run of settings that is in force. -/
def sscSeg (s : State) : SscSeg := s.clock.segs.headD { start := s.clock.releaseAt }

/-- The tick of the next profile origin, or with spread off of the alignment instant at which a setting applies (R86, R88). -/
def originDue (s : State) : Nat :=
  if clkBit s 7 then originTick (sscSeg s).start (sscSeg s).cfg (s.clock.origins + 1) else alignTick s

/-- dev at the coming origin, exact. -/
def originDev (s : State) : Rat :=
  let g := sscSeg s
  if clkBit s 7 then g.base + (s.clock.origins + 1) * devPerProfile g.cfg else g.base

/-- A new run of settings begins at the coming origin. The latest four runs are kept, since messages and receivers look back by no
more than a round trip. -/
def newRun (c : Word) (s : State) : State :=
  modClock (fun k => { k with
    sscPending := none, origins := 0, segs := ({ start := originDue s, cfg := c, base := originDev s } :: k.segs).take 4 })
    (setClk 7 (fld c 0 2 != 0) (wr aSscState c s))

/-- Row 49: a profile origin, or with spread off an alignment instant, after the divider release (R88, R93, R94, R100). Before the
next one is due nothing happens. -/
def doProfileOrigin (s : State) : State :=
  let on := clkBit s 7
  if !s.clock.released || decide (s.tick < originDue s) then s
  else
    match s.clock.sscPending with
    | none => if on then wr aProfileCnt (rd s aProfileCnt + 1) (modClock (fun k => { k with origins := k.origins + 1 }) s) else s
    | some c =>
      let s1 := newRun c s
      if on then wr aProfileCnt (rd s1 aProfileCnt + 1) s1
      else if fld c 0 2 != 0 then wr aProfileCnt 1 s1
      else s1

def execProfileOrigin (s : State) : Host.Outcome State Fault Refusal := .next (doProfileOrigin s)

/-! Reference selection and the clock monitor. -/

/-- The port faces the leader, and it has completed training at its final rate (R96). -/
def wzTrained (s : State) (sel : Nat) : Bool :=
  let x := link s (35 + sel)
  wzInbound s (35 + sel) && x.st == .linked && x.stage == .idle && x.rate == x.finalRate

/-- Row 50: a write of REF_SEL (R96, R97): a switch relocks both PLLs. REF_PRESENT reads 1 from the switch on, which takes the new
reference as present (DESIGN CHOICE, log entry 136). -/
def doRefSelWrite (v : Word) (s : State) : State :=
  let sel := min (fld v 0 2) 2
  if s.dev != .configWait || (sel != 0 && !wzTrained s sel) then clkStick 5 s
  else
    let s1 := wr aClkCfg (wd sel) (clampSeen aClkCfg v s)
    if refSrc s = sel then s1
    else
      refBack (modClock (fun k => { k with released := false })
        (wr aClkStatus (putFld (putFld (putFld (rd s1 aClkStatus) 8 2 sel) 0 2 0) 6 1 0) s1))

def execRefSelWrite (v : Word) (s : State) : Host.Outcome State Fault Refusal := .next (doRefSelWrite v (hostAccess s))

/-- Row 51: the clock monitor fires (R99, R182, R207): CLK_MON asserts, and the outputs take the safe state of its row. -/
def doClkMon (edgeClk : Bool) (s : State) : State := bRise 180 (safeRow 180 edgeClk s)

def execClkMon (edgeClk : Bool) (s : State) : Host.Outcome State Fault Refusal := .next (doClkMon edgeClk s)

end Sys2Proof.Machine
end

