-- ==== Sys2Proof/Machine/Metering.lean ====
section
/-! DEFINITION. Energy metering: inputs, sensors, powers, booking, the latch, pulses and records (R302 to R321; rows 153 to
159, 192). -/

namespace Sys2Proof.Machine

open Sys2Proof

def meterContent (s : State) : MeterContent := if tileLive s 19 then (plane s 19).meter else {}
def portType (s : State) (k : Nat) : PortType := (meterContent s).ports.getD k .absent

/-- An element that a port's type has (R302). -/
def hasElem (p : PortType) (e : Nat) : Bool :=
  match p with
  | .absent => false
  | .three => decide (e < 3)
  | .two => e == 0 || e == 2
  | .dc => e == 0

/-- The MV fundamental is lost, or there is no MV port (R305). -/
def noLineNow (s : State) : Bool := s.meter.noLine || portType s 0 == .absent

/-! Inputs (R303, R304) and sensors (R311), in volts and amperes. -/

/-- The converter that serves an input. -/
def inputConv (s : State) (i : Nat) : Option Nat :=
  let w := tget dZeroW (meterContent s).inputMap i
  if bit w 4 then some (fld w 0 4) else none

/-- METER uses the samples of converter n: for an input of an element that a port has, or as a sensor's supply channel
(R303, R311). -/
def meterUses (s : State) (n : Nat) : Bool :=
  (List.range 18).any (fun i => hasElem (portType s (i / 6)) (i % 3) && inputConv s i == some n)
    || (List.range 9).any (fun c =>
      let w := tget dZeroW (meterContent s).sensCfg c
      hasElem (portType s (c / 3)) (c % 3) && bit w 8 && fld w 4 4 == n)

/-- A sample's flags, in the order of M_CONV_FLAGS, in the order of LATCH_QUAL (R304). -/
def qualOf (fl : Nat) : Nat := fl / 4 % 2 + 2 * (fl / 2 % 2) + 4 * (fl % 2) + 8 * (fl / 8 % 2)

/-- A flagged sample of converter n marks the running latch interval (R240, R304). -/
def meterFlag (n fl : Nat) (s : State) : State :=
  if s.meter.metering && meterUses s n then modMeter (fun m => { m with runQual := m.runQual ||| qualOf fl }) s else s

/-- An input's effective value in a sample, Q16.8; an input without a converter gives 0. -/
def inputEff (s : State) (i : Nat) (l : List Int) : Int := match inputConv s i with | some n => l.getD n 0 | none => 0

/-- Pin voltage of an effective value Q16.8 (R304). -/
def pinV (e : Int) : Rat := mkRat e (2 ^ 23)

/-- A voltage input's value (R304). -/
def voltOf (s : State) (i : Nat) (l : List Int) : Rat :=
  pinV (inputEff s i l) * mkRat (tget dZeroW (meterContent s).vratio i).toNat 256

/-- A sensor coefficient in force: SENS_S0c at 4, Z0 at 8, C1 at 12, C2 at 16, T0 at 20, VNOM at 24. -/
def sensReg (s : State) (c o : Nat) : Word := fo s (0x1F0200 + 0x20 * c + o)

/-- k of R311: the temperature factor of sensor c, from the last valid reading of its thermal channel. -/
def sensK (s : State) (c : Nat) : Rat :=
  let w := tget dZeroW (meterContent s).sensCfg c
  let dt : Rat := if bit w 12 then mkRat ((chan s (fld w 9 3)).temp - sWord (sensReg s c 20)) 16 else 0
  1 + mkRat (sWord (sensReg s c 12)) 256000000 * dt + mkRat (sWord (sensReg s c 16)) 256000000 * dt * dt

/-- r of R311: the ratiometric supply factor of sensor c in a sample. -/
def sensR (s : State) (c : Nat) (l : List Int) : Rat :=
  let w := tget dZeroW (meterContent s).sensCfg c
  if bit w 8 then pinV (l.getD (fld w 4 4) 0) / mkRat (sensReg s c 24).toNat 1000000 else 1

/-- A current input's value by its sensor model (R311): sensor c serves input 6k + 3 + j with c = 3k + j. -/
def currentOf (s : State) (c : Nat) (l : List Int) : Rat :=
  let e := inputEff s (6 * (c / 3) + 3 + c % 3) l
  let m := if fld (tget dZeroW (meterContent s).sensCfg c) 0 2 = 0 then 1 else sensR s c l
  let den := mkRat (sensReg s c 4).toNat 1000000000 * sensK s c * m
  if den = 0 then mkRat (Config.deadSensor c e) (2 ^ 31)
  else (pinV e - mkRat (sWord (sensReg s c 8)) 1000000 * m) / den

/-! The quantities of one element over one line cycle (R306, R308, R309). -/

/-- Active and reactive power, total and fundamental, in W and var, and the squares of the apparent powers. -/
structure ElemCycle where
  p : Rat := 0
  q : Rat := 0
  s2 : Rat := 0
  p1 : Rat := 0
  q1 : Rat := 0
  s12 : Rat := 0

/-- sum(a[j] * b[j]) / n. -/
def meanDot (a b : List Rat) : Rat := (List.zipWith (· * ·) a b).foldl (· + ·) 0 / (a.length : Rat)

/-- One part of a fundamental phasor: the single-bin transform with its weights. -/
def binSum (w : Nat → Int) (l : List Rat) : Rat := l.zipIdx.foldl (fun a x => a + x.1 * mkRat (w x.2) (2 ^ 30)) 0

/-- The quantities of element e of port k; DIR = 1 turns the import direction (R309). -/
def elemCycle (s : State) (k e : Nat) (samples : List MeterSample) (freqMhz : Nat) : ElemCycle :=
  let vs := samples.map (fun x => voltOf s (6 * k + e) x.eff)
  let hs := samples.map (fun x => voltOf s (6 * k + e) x.quad)
  let cs := samples.map (fun x => currentOf s (3 * k + e) x.eff)
  let n := samples.length
  let vr := binSum (Config.binRe n freqMhz) vs
  let vi := binSum (Config.binIm n freqMhz) vs
  let cr := binSum (Config.binRe n freqMhz) cs
  let ci := binSum (Config.binIm n freqMhz) cs
  let sg : Rat := if (meterContent s).dirs.testBit k then -1 else 1
  { p := sg * meanDot vs cs, q := sg * meanDot hs cs, s2 := meanDot vs vs * meanDot cs cs
    p1 := sg * (vr * cr + vi * ci), q1 := sg * (vi * cr - vr * ci)
    s12 := (vr * vr + vi * vi) * (cr * cr + ci * ci) }

/-! Energies in accumulator units of 2^-32 mWh, mvarh or mVAh: f is the factor t / 3.6 × 2^32 of the cycle (R306, R312). -/

/-- Seconds of the cycle: 1/f0 of the time counter without a line, else as measured (R305). -/
def cycleTime (s : State) (durPs : Nat) : Rat :=
  if noLineNow s then 1 / (if (meterContent s).f60 then 60 else 50) else mkRat durPs (10 ^ 12)

def cycleFactor (s : State) (durPs : Nat) : Rat := cycleTime s durPs * (2 ^ 32 * 10 / 36)

/-- The magnitude of an energy at the accumulator's grid; its rounding is not stated. -/
def gridAbs (x : Rat) : Nat := (freeDiv 306 x.num.natAbs x.den).toNat

/-- The square root of a number at the accumulator's grid; its rounding is not stated. -/
def gridSqrt (x : Rat) : Nat :=
  let r := Nat.sqrt (x.num.natAbs / x.den)
  if r * r * x.den ≠ x.num.natAbs ∧ Config.roundUp 307 x.num x.den = true then r + 1 else r

/-- The quadrant (R306, R309). -/
def quadrant (p q : Rat) : Nat := if 0 ≤ p then (if 0 ≤ q then 1 else 4) else (if 0 ≤ q then 2 else 3)

/-- What `book` of R306 adds, by quantity number, for powers p and q and the apparent energy a. -/
def bookIncs (base : Nat) (f p q : Rat) (a : Nat) : List (Nat × Nat) :=
  [(base + (if 0 ≤ p then 0 else 1), gridAbs (p * f)), (base + 1 + quadrant p q, gridAbs (q * f)), (base + 6, a)]

/-- The increments of one AC element: totals and fundamentals. -/
def elemIncs (k e : Nat) (f : Rat) (x : ElemCycle) : List (Nat × Nat) :=
  let b := 64 * k + 16 * e
  bookIncs (b + 8) f x.p x.q (gridSqrt (x.s2 * f * f)) ++ bookIncs b f x.p1 x.q1 (gridSqrt (x.s12 * f * f))

/-- A DC port's increments, for element a and the sum (R308). -/
def dcIncs (k : Nat) (f : Rat) (x : ElemCycle) : List (Nat × Nat) :=
  let a := gridAbs (x.p * f)
  let one := fun (b : Nat) => ([(b + 8 + (if 0 ≤ x.p then 0 else 1), a), (b + 14, a)] : List (Nat × Nat))
  one (64 * k) ++ one (64 * k + 48)

/-- The sum element of an AC port, from the per-cycle sums of its elements (R307). -/
def sumIncs (k : Nat) (vector : Bool) (f : Rat) (xs : List ElemCycle) : List (Nat × Nat) :=
  let tot := fun (g : ElemCycle → Rat) => xs.foldl (fun a x => a + g x) 0
  let app := fun (p q : Rat) (g : ElemCycle → Rat) =>
    if vector then gridSqrt ((p * p + q * q) * f * f) else xs.foldl (fun a x => a + gridSqrt (g x * f * f)) 0
  let b := 64 * k + 48
  bookIncs (b + 8) f (tot (·.p)) (tot (·.q)) (app (tot (·.p)) (tot (·.q)) (·.s2))
    ++ bookIncs b f (tot (·.p1)) (tot (·.q1)) (app (tot (·.p1)) (tot (·.q1)) (·.s12))

/-- All increments of a line cycle (R306 to R308). -/
def cycleIncs (s : State) (samples : List MeterSample) (durPs freqMhz : Nat) : List (Nat × Nat) :=
  let f := cycleFactor s durPs
  (List.range 3).flatMap (fun k =>
    let t := portType s k
    let xs := ((List.range 3).filter (hasElem t)).map (fun e => (e, elemCycle s k e samples freqMhz))
    match t with
    | .absent => []
    | .dc => xs.flatMap (fun x => dcIncs k f x.2)
    | _ => xs.flatMap (fun x => elemIncs k x.1 f x.2) ++ sumIncs k (bit (fo s aMeterCfg) 16) f (xs.map (·.2)))

/-- One increment: the 96-bit accumulator, its carries, and the pulse accumulators assigned to it (R312, R317). -/
def bookOne (q inc : Nat) (s : State) : State :=
  modMeter (fun m =>
    let v := tget dZero m.acc q + inc
    let on := fun k => let c := tget dZeroW m.pulseCfg k; bit c 8 && fld c 0 8 == q
    { m with
      acc := tset dZero m.acc q (v % 2 ^ 96)
      wrap := if v < 2 ^ 96 then m.wrap else tmod dZero m.wrap q (fun w => (w + v / 2 ^ 96) % 2 ^ 32)
      pulseAcc := (List.range 8).foldl (fun t k => if on k then tmod dZero t k (· + inc) else t) m.pulseAcc }) s

/-- The latch (R313): registers, quality and stamp together. -/
def meterLatch (s : State) : State :=
  irq 112 (modMeter (fun m => { m with
    energy := m.acc, energyWrap := m.wrap, latchSeq := (m.latchSeq + 1) % 2 ^ 32
    latchSec := s.time.sec, latchNs := s.time.ns, latchQual := m.runQual + 32 * b2n (untrusted s)
    runQual := 0, cycles := 0, periodicDue := !m.pfwLow }) s)

/-- A sensor of a present port has no valid reading of its thermal channel (R311). -/
def sensTempStale (s : State) : Bool :=
  (List.range 9).any (fun c =>
    let w := tget dZeroW (meterContent s).sensCfg c
    portType s (c / 3) != .absent && bit w 12 && !(chan s (fld w 9 3)).valid)

/-- Pulse output k at a line-cycle end: new settings act, due pulses join the backlog, one may rise (R317). -/
def pulseStep (k : Nat) (s : State) : State :=
  let cfg := rd s (aPulseCfg k)
  let unit := (rd s (aPulseConst k)).toNat * 2 ^ 32
  let m := s.meter
  let acc := tget dZero m.pulseAcc k
  let n := if unit = 0 then 0 else acc / unit
  let due := tget dZero m.backlog k + n
  let width := fld cfg 16 10 * 400000
  let free := !m.pulse.testBit k && (match tlook m.pulseFallAt k with
    | some t => decide (width ≤ s.tick - t) | none => true)
  let start := bit cfg 8 && free && decide (0 < due)
  let rest := due - b2n start
  let s1 := modMeter (fun m => { m with
    pulseCfg := tset dZeroW m.pulseCfg k cfg, pulseConst := tset dZeroW m.pulseConst k (rd s (aPulseConst k))
    pulseAcc := tset dZero m.pulseAcc k (acc - n * unit)
    backlog := tset dZero m.backlog k (min rest 255)
    pulse := if start then m.pulse ||| 2 ^ k else if bit cfg 8 then m.pulse else m.pulse &&& (0xFF ^^^ 2 ^ k)
    pulseRiseAt := if start then tset dZero m.pulseRiseAt k s.tick else m.pulseRiseAt }) s
  if 255 < rest then meterStick 3 s1 else s1

/-- Row 153: a line cycle ends (R305 to R313). -/
def doLineCycleEnd (samples : List MeterSample) (durPs freqMhz : Nat) (s : State) : State :=
  if !tileLive s 19 then s
  else if s.meter.metering then
    let s1 := (cycleIncs s samples durPs freqMhz).foldl (fun s p => bookOne p.1 p.2 s) s
    let s2 := forEach (List.range 8) pulseStep s1
    let stale := sensTempStale s2
    let s3 := modMeter (fun m => { m with
      sensStale := stale, cycles := m.cycles + 1, lineFreq := if noLineNow s then m.lineFreq else freqMhz
      runQual := m.runQual ||| (16 * b2n (noLineNow s) + 64 * b2n stale) }) s2
    if fld (fo s3 aMeterCfg) 0 16 ≤ s3.meter.cycles then meterLatch s3 else s3
  else if s.meter.startDue then
    modMeter (fun m => { m with metering := true, startDue := false, cycles := 0, runQual := 0
                                lineFreq := if noLineNow s then m.lineFreq else freqMhz }) s
  else s

def execLineCycleEnd (samples : List MeterSample) (durPs freqMhz : Nat) (s : State) :
    Host.Outcome State Fault Refusal := .next (doLineCycleEnd samples durPs freqMhz s)

/-- A committed METER_CFG acts; a running interval that has reached the new LATCH_N ends at once (R314). -/
def meterCfgApply (v : Word) (s : State) : State :=
  let s1 := setFo aMeterCfg v s
  if s1.meter.metering && decide (0 < s1.meter.cycles) && decide (fld v 0 16 ≤ s1.meter.cycles) then meterLatch s1 else s1

/-- Row 154: a pulse ends WIDTH ms after its rise. -/
def doPulseEnd (k : Nat) (s : State) : State :=
  if s.meter.pulse.testBit k then
    modMeter (fun m => { m with pulse := m.pulse &&& (0xFF ^^^ 2 ^ k), pulseFallAt := tset dZero m.pulseFallAt k s.tick }) s
  else s

def execPulseEnd (k : Fin 8) (s : State) : Host.Outcome State Fault Refusal := .next (doPulseEnd k s)

/-- Row 155: the PERIODIC record of a latch (R319). -/
def doPeriodicRecord (s : State) : State :=
  if s.meter.periodicDue then modMeter (fun m => { m with periodicDue := false }) (meterRecord 1 s) else s

def execPeriodicRecord (s : State) : Host.Outcome State Fault Refusal := .next (doPeriodicRecord s)

/-- Row 156: the MV fundamental is lost, or is back (R305). -/
def doNoLine (present : Bool) (s : State) : State := modMeter (fun m => { m with noLine := !present }) s

def execNoLine (present : Bool) (s : State) : Host.Outcome State Fault Refusal := .next (doNoLine present s)

/-- A record write in progress is abandoned: its slot stays invalid (R320). -/
def abandonRecord (s : State) : State :=
  if s.meter.periodicDue then
    modMeter (fun m => { m with
      periodicDue := false, recSeq := m.recSeq + 1
      recs := tset (fun _ => {}) m.recs ((m.recSeq + 1) % 32) { kind := 1, seq := m.recSeq + 1 } }) s
  else s

/-- The FINAL save of R320. -/
def meterFinal (s : State) : State := if tileLive s 19 then meterRecord 2 (abandonRecord s) else s

/-- Row 157: filtered PFW_N falls (R320, R390). -/
def doPfwNFall (s : State) : State := wake 4 0 (meterFinal (modMeter (fun m => { m with pfwLow := true }) s))

def execPfwNFall (s : State) : Host.Outcome State Fault Refusal := .next (doPfwNFall s)

/-- Row 158: a further FINAL record while PFW_N is low. -/
def doFinalRepeat (s : State) : State := if s.meter.pfwLow then meterFinal s else s

def execFinalRepeat (s : State) : Host.Outcome State Fault Refusal := .next (doFinalRepeat s)

/-- Row 192: filtered PFW_N is high again. -/
def doPfwNRise (s : State) : State := modMeter (fun m => { m with pfwLow := false }) s

def execPfwNRise (s : State) : Host.Outcome State Fault Refusal := .next (doPfwNRise s)

/-- Row 159: ENERGY_CLEAR (R316). -/
def doEnergyClear (v : Word) (s : State) : State :=
  if v ≠ wd 0x434C then s
  else if s.dev = .run ∨ (tile s 19).st ≠ .activeOnly then meterStick 2 s
  else meterRecord 3 (modMeter (fun m => { m with acc := [], wrap := [], clearCnt := (m.clearCnt + 1) % 2 ^ 32 }) s)

def execEnergyClear (v : Word) (s : State) : Host.Outcome State Fault Refusal := .next (doEnergyClear v (hostAccess s))

end Sys2Proof.Machine
end

