-- ==== Sys2Proof/Machine/Recorder.lean ====
section
/-! DEFINITION. The waveform recorder (R296 to R298, rows 149 to 152). -/

namespace Sys2Proof.Machine

open Sys2Proof

/-- DRAM address of the recorder region (R53). -/
def recBase (s : State) : Nat := s.damask.stagingMib * 2 ^ 20

/-- A value of Q16.8 (or a mean of such values over d), rounded to nearest with halves upwards and saturated to 16
bits (R242). -/
def round16 (v : Int) (d : Nat) : Int := clampI (-32768) 32767 (divRound v (256 * d))

/-- The instants' index: an entry opens at every 2,048th stored instant (R296). -/
def recIndex (s : State) (cap flags : Nat) : List (Nat × Nat × Nat) :=
  let l := (tlook s.meas.idx s.meas.recSeg).getD []
  let l1 := if s.meas.recCount % 2048 = 0 then l ++ [(s.time.sec, s.time.ns, 0)] else l
  let l2 := l1.drop (l1.length - (ceilDiv cap 2048 + 1))
  (l2.dropLast) ++ (match l2.getLast? with | some (a, b, f) => [(a, b, f ||| flags)] | none => [])

/-- One sample of every converter reaches the recorder: eff n is the effective value of converter n (R296). -/
def recSample (eff : Nat → Int) (flags : Nat) (s : State) : State :=
  let cfg := fo s aRecCfg
  let ch := recChans cfg
  let cap := recInstants s cfg
  let dec := 2 ^ fld cfg 16 4
  let m := s.meas
  if bit cfg 26 = false ∨ cap = 0 then s
  else
    let sums := ch.foldl (fun t c => tset dZeroI t c (tget dZeroI t c + eff c)) m.decSum
    let fl := m.idxFlags ||| flags
    if m.decCnt + 1 < dec then
      modMeas (fun q => { q with decSum := sums, decCnt := q.decCnt + 1, idxFlags := fl }) s
    else
      let at_ := recBase s + m.recSeg * recSegBytes s cfg + 2 * ch.length * (m.recCount % cap)
      let bytes := ch.flatMap (fun c => leBytes 2 (unsgn 16 (round16 (tget dZeroI sums c) dec)))
      let ix := recIndex s cap fl
      dramPut at_ bytes (modMeas (fun q => { q with
        decSum := [], decCnt := 0, idxFlags := 0, recCount := q.recCount + 1
        recPost := if q.recFilling then q.recPost + 1 else 0
        idx := tset (fun _ => []) q.idx q.recSeg ix }) s)

/-- Number of segments of a REC_CFG. -/
def recSegs (cfg : Word) : Nat := 2 ^ fld cfg 20 2

/-- The next free segment after the running one. -/
def recNext (s : State) : Option Nat :=
  let n := recSegs (fo s aRecCfg)
  ((List.range n).map (fun i => (s.meas.recSeg + 1 + i) % n)).find?
    (fun g => g != s.meas.recSeg && !s.meas.recFrozen.testBit g)

/-- Row 150: the post-trigger part is written: the segment freezes, or the trigger is missed (R297). -/
def doRecFreeze (s : State) : State :=
  let cfg := fo s aRecCfg
  let cap := recInstants s cfg
  let m := s.meas
  if m.recFilling = true ∧ cap - cap * fld cfg 22 4 / 16 ≤ m.recPost then
    match recNext s with
    | some g =>
      irq 111 (modMeas (fun q => { q with
        recFrozen := q.recFrozen ||| 2 ^ q.recSeg
        segPos := tset dZero q.segPos q.recSeg (if q.recCount < cap then 0 else q.recCount % cap)
        segCount := tset dZero q.segCount q.recSeg (min q.recCount cap)
        segCfg := tset dZero q.segCfg q.recSeg cfg.toNat
        recSeg := g, recCount := 0, recPost := 0, recFilling := false, decCnt := 0, decSum := [], idxFlags := 0
        idx := tset (fun _ => []) q.idx g [] }) s)
    | none => irq 111 (cntUp aRecMiss 1 (modMeas (fun q => { q with recFilling := false, recPost := 0 }) s))
  else s

def execRecFreeze (s : State) : Host.Outcome State Fault Refusal := .next (doRecFreeze s)

/-- Row 149: REC_FORCE (R297). -/
def doRecForce (v : Word) (s : State) : State := if bit v 0 then recTrigger 0x400 s else s

def execRecForce (v : Word) (s : State) : Host.Outcome State Fault Refusal := .next (doRecForce v (hostAccess s))

/-- Row 151: REC_RELEASE frees segments (R297). -/
def doRecRelease (v : Word) (s : State) : State :=
  modMeas (fun q => { q with recFrozen := q.recFrozen &&& (0xFF ^^^ fld v 0 8) }) s

def execRecRelease (v : Word) (s : State) : Host.Outcome State Fault Refusal := .next (doRecRelease v (hostAccess s))

/-- A new REC_CFG in force with another layout or enable starts the recorder afresh in a free segment (R296). -/
def recApply (old new : Word) (s : State) : State :=
  if old &&& wd 0x043FFFFF = new &&& wd 0x043FFFFF then s
  else
    let g := ((List.range (recSegs new)).find? (fun g => !s.meas.recFrozen.testBit g)).getD 0
    modMeas (fun q => { q with recSeg := g, recCount := 0, recPost := 0, recFilling := false, decCnt := 0, decSum := [],
                               idxFlags := 0, idx := tset (fun _ => []) q.idx g [] }) s

/-- The bytes of a frozen segment, unwrapped, oldest instant first (R298). -/
def segBytes (s : State) (g : Nat) : List Byte :=
  let cfg := wd (tget dZero s.meas.segCfg g)
  let w := 2 * (recChans cfg).length
  let cap := recInstants s cfg
  let base := recBase s + g * recSegBytes s cfg
  let p := tget dZero s.meas.segPos g
  let n := tget dZero s.meas.segCount g
  let first := min n (cap - p)
  dramAt s (base + w * p) (w * first) ++ dramAt s base (w * (n - first))

/-- What the dump header holds past its MAGIC (R298): channel mask, decimation, instants, trigger index, trigger time. -/
def dumpContents (s : State) (g : Nat) : List Nat :=
  let cfg := wd (tget dZero s.meas.segCfg g)
  [fld cfg 0 16, fld cfg 16 4, tget dZero s.meas.segCount g, tget dZero s.meas.trigIdx g, tget dZero s.meas.trigSec g,
   tget dZero s.meas.trigNs g]

/-- Row 152: the dump's data stand in staging, the header is written last, the operation completes (R298). -/
def doWaveDumpDone (s : State) : State :=
  match runSlot s 0x08 with
  | none => s
  | some i =>
    if (slot s i).st = .running then
      let g := fld (param s i 0) 0 3
      let o := (param s i 1).toNat
      let data := segBytes s g
      let head := leBytes 4 0x50574454 ++ (List.range 60).map (fun i => Config.dumpByte i (dumpContents s g))
      endSlot i .completed [0, wd (tget dZero s.meas.segCount g), 0, 0] (dramPut o head (dramPut (o + 64) data s))
    else s

def execWaveDumpDone (s : State) : Host.Outcome State Fault Refusal := .next (doWaveDumpDone s)

end Sys2Proof.Machine
end

