-- ==== Sys2Proof/Machine/Conv.lean ====
section
/-! DEFINITION. Converters, spot reads, calibration, window comparators, captures and threshold readback (R238 to
R263; rows 109, 111, 112, 114 to 120, 122, 123, 198). -/

namespace Sys2Proof.Machine

open Sys2Proof

/-! Samples. -/

/-- Saturation of a Q16.8 value to −32,768.0 … 32,767.996 (R247). -/
def satQ (v : Int) : Int := clampI (-8388608) 8388607 v

/-- A converter is in service while any channel-group enable is in force (R248). -/
def convInService (s : State) : Bool := s.mod.en != 0

/-- The converter repeats its last values and carries GAP (R248, R263, R390). -/
def convGap (s : State) (n : Nat) : Bool :=
  s.conv.calBusy.testBit n || s.conv.rbConv == some n || s.power.standby

/-- c_s of R247. -/
def calValue (s : State) (n : Nat) (raw : Int) : Int :=
  let stage := rd s (aCal n 8)
  let p := satQ (if stage = 0 then raw * 256 else Config.pipe raw stage)
  satQ (freeDiv 247 ((p - sgn 24 (fld (rd s (aCal n 0)) 0 24)) * fld (rd s (aCal n 4)) 0 24) (2 ^ 22))

/-- c_f of R247: trims from OTP, t_die − 25 of the converter's sensor (R373), the user term. -/
def factValue (s : State) (n : Nat) (cs : Int) : Int :=
  let dt := tget dZeroI s.therm.die (n / 4) - 400
  let trim := sgn 16 (fld (rd s (aCal n 0x0C)) 0 16)
  let a1 := sgn 16 (fld (rd s (aFactTc n)) 0 16)
  let a2 := sgn 16 (fld (rd s (aFactTc n)) 16 16)
  let ut := sgn 16 (fld (fo s (aConvUtc n)) 0 16)
  satQ (freeDiv 248 (cs * (2 ^ 42 + trim * 2 ^ 22 + (a1 + ut) * dt * 2 ^ 10 + a2 * dt * dt)) (2 ^ 42))

/-- e of R247. -/
def effValue (s : State) (n : Nat) (cf : Int) : Int :=
  satQ (freeDiv 249 (cf * (2 ^ 31 + sWord (fo s (aUgain n)))) (2 ^ 31) + sgn 24 (fld (fo s (aUofs n)) 0 24))

/-- Flags of a sample: REF_UNSETTLED, UNCAL, GAP, CLIP in the order of M_CONV_FLAGS (R240). -/
def sampleFlags (s : State) (n : Nat) : Nat :=
  b2n (!s.conv.refSettled) + 2 * b2n (!s.conv.calValid.testBit n) + 4 * b2n (convGap s n)
    + 8 * b2n (s.conv.clip.testBit n)

/-- A capture lands in ADCn_DATA (R243). -/
def adcLand (n data flags : Nat) (s : State) : State :=
  let old := rd s (aAdcData n)
  let f := (flags % 4) + 4 * (flags / 8 % 2) + 8 * (flags / 4 % 2)
  landNew (aAdcData n) 16 (wd (data % 65536 + 65536 + 131072 * b2n (bit old 16 || bit old 17) + 2 ^ 18 * f)) s

/-- The value that SPOT_CAL selects of the latest sample (R242). -/
def spotValue (s : State) (n : Nat) : Nat :=
  let c := fld (rd s (aAdcCfg n)) 2 2
  if c = 0 then unsgn 16 (round16 (tget dZeroI s.conv.eff n) 1)
  else if c = 1 then unsgn 16 (round16 (tget dZeroI s.conv.fac n) 1)
  else unsgn 16 (tget dZeroI s.conv.raw n)

def spotMode (s : State) (n : Nat) : Nat := fld (rd s (aAdcCfg n)) 0 2

/-- The groups over whose running period a sample counts (R239). -/
def startedGroups (s : State) : List Nat := (List.range 8).filter (fun g => (group s g).started)

/-- Flags of a converter without a sample: REF_UNSETTLED and UNCAL. -/
def dFresh : Nat → Nat := fun _ => 3

/-- A flagged sample of a channel that the MEAS section assigns to the PMU is remembered (R240, R288). -/
def pmuFlag (n fl : Nat) (s : State) : State :=
  if fl != 0 && tileLive s 18 && (plane s 18).meas.pmuCh.contains n then modMeas (fun m => { m with flagAt := some s.tick }) s
  else s

/-- One converter's sample: code, effective value, clip count, averages, HOST capture, histogram (R238 to R242). -/
def sampleOne (n : Nat) (code : Int) (s : State) : State :=
  let gap := convGap s n
  let clip := !gap && (decide (code < -32768) || decide (32767 < code))
  let raw := if gap then tget dZeroI s.conv.raw n else clampI (-32768) 32767 code
  let fac := if gap then tget dZeroI s.conv.fac n else factValue s n (calValue s n raw)
  let eff := if gap then tget dZeroI s.conv.eff n else effValue s n fac
  let s1 := modConv (fun c => { c with
    raw := tset dZeroI c.raw n raw, fac := tset dZeroI c.fac n fac, eff := tset dZeroI c.eff n eff
    clip := (c.clip &&& (0xFFFF ^^^ 2 ^ n)) ||| 2 ^ n * b2n clip }) s
  let s2 := if clip then convStick 3 (cntSat (aClipCnt n) 1 s1) else s1
  let fl := sampleFlags s2 n
  let s2 := pmuFlag n fl (meterFlag n fl (modConv (fun c => { c with flags := tset dFresh c.flags n fl }) s2))
  let s3 := forEach (startedGroups s2) (fun g s => modConv (fun c => { c with
    accSum := tmod dZeroI c.accSum (16 * g + n) (· + eff)
    accCnt := tmod dZero c.accCnt (16 * g + n) (· + 1)
    accFlags := tmod dZero c.accFlags (16 * g + n) (· ||| fl) }) s) s2
  let s4 := if s3.conv.spotWait.testBit n then
      (let s' := modConv (fun c => { c with spotWait := c.spotWait ^^^ 2 ^ n }) s3
       if spotMode s3 n = 1 then adcLand n (spotValue s3 n) fl s' else s')
    else s3
  histFeed 6 n (round16 eff 1) s4

/-- The full-rate stream of the three travelling-wave channels (R240, R291). -/
def twPush (s : State) : State :=
  if tileLive s 18 then
    match (plane s 18).meas.twCh with
    | [a, b, c] =>
      let e := tget dZeroI s.conv.eff
      modMeas (fun m => { m with
        twBuf := ({ tick := s.tick, fine := nowFine s, a := e a, b := e b, c := e c } :: m.twBuf).take 256 }) s
    | _ => s
  else s

/-- Row 198: an ADC_CLK edge gives a sample on every converter. -/
def doConverterSample (codes : List Int) (s : State) : State :=
  let s1 := forEach (List.range 16) (fun n s => sampleOne n (codes.getD n 0) s) s
  let fl := (recChans (fo s1 aRecCfg)).foldl (fun f n => f ||| sampleFlags s1 n) 0
  twPush (recSample (fun n => tget dZeroI s1.conv.eff n) fl s1)

def execConverterSample (codes : List Int) (s : State) : Host.Outcome State Fault Refusal :=
  .next (doConverterSample codes s)

/-- The period of group g ends: averages are latched, flags shown, BOUNDARY captures land (R239, R242). -/
def convBoundary (g : Nat) (s : State) : State :=
  let isMeas := measGroup s == some g
  let s1 := forEach (List.range 16) (fun n s =>
    let k := 16 * g + n
    let c := s.conv
    let cnt := tget dZero c.accCnt k
    let fl := tget dZero c.accFlags k
    let s1 := if cnt = 0 then s else modConv (fun c => { c with
      avgSum := tset dZeroI c.avgSum k (tget dZeroI c.accSum k), avgCnt := tset dZero c.avgCnt k cnt }) s
    let avg := round16 (tget dZeroI s1.conv.avgSum k) (max 1 (tget dZero s1.conv.avgCnt k))
    let s2 := if isMeas then histFeed 7 n avg (wr (aMConvFlags n) (wd fl) s1) else s1
    if spotMode s2 n = 3 ∧ fld (rd s2 (aAdcCfg n)) 12 3 = g then adcLand n (unsgn 16 avg) fl s2 else s2) s
  modConv (fun c => { c with accSum := tclr c.accSum (16 * g) (16 * g + 16), accCnt := tclr c.accCnt (16 * g) (16 * g + 16),
                             accFlags := tclr c.accFlags (16 * g) (16 * g + 16) }) s1

/-! Spot reads. -/

/-- Row 111: SPOT_TRIG (R242). -/
def doSpotTrig (v : Word) (s : State) : State :=
  modConv (fun c => { c with spotWait := c.spotWait ||| maskOf 16 (fun n => bit v n && spotMode s n == 1) }) s

def execSpotTrig (v : Word) (s : State) : Host.Outcome State Fault Refusal := .next (doSpotTrig v (hostAccess s))

/-- Row 112: a PERIODIC capture lands: the latest sample with the flags it carries (R242, R245). -/
def doSpotPeriodicCapture (n : Nat) (s : State) : State :=
  if spotMode s n = 2 then adcLand n (spotValue s n) (tget dFresh s.conv.flags n) s else s

def execSpotPeriodicCapture (n : ConvNo) (s : State) : Host.Outcome State Fault Refusal :=
  .next (doSpotPeriodicCapture n s)

/-! The reference buffer. -/

def refOn (s : State) : Bool := bit (rd s aRefCtrl) 0

/-- Row 114: a write of REF_CTRL (R245, R246). -/
def doRefEnWrite (v : Word) (s : State) : State :=
  if bit v 0 then wr aRefCtrl 1 s
  else if s.dev = .configWait then wr aRefCtrl 0 (modConv (fun c => { c with refSettled := false }) s)
  else convStick 0 s

def execRefEnWrite (v : Word) (s : State) : Host.Outcome State Fault Refusal := .next (doRefEnWrite v (hostAccess s))

/-- Row 115: the reference has settled; a SELF_CAL that waits disconnects its converters (R245, R250). -/
def doRefSettled (s : State) : State :=
  if refOn s && !s.conv.refSettled then
    modConv (fun c => { c with refSettled := true, calBusy := if c.calWait then c.calMask else c.calBusy, calWait := false }) s
  else s

def execRefSettled (s : State) : Host.Outcome State Fault Refusal := .next (doRefSettled s)

/-! Self-calibration. -/

/-- A SELF_CAL starts in slot i (R248, R250). -/
def calStart (i : Nat) (s : State) : State :=
  let m0 := fld (param s i 0) 0 16
  let m := if m0 = 0 then 0xFFFF else m0
  if !refOn s then failSlot i 0x30 0 s
  else
    let take := if convInService s then 0 else m
    modConv (fun c => { c with
      calMask := take, calRefused := m - take, calWait := !c.refSettled
      calBusy := if c.refSettled then take else 0 }) s

/-- A SELF_CAL leaves without its commit step (R249). -/
def calAbandon (s : State) : State :=
  modConv (fun c => { c with calBusy := 0, calMask := 0, calRefused := 0, calWait := false }) s

/-- The limits of R249. -/
def calPasses (f : CalFactors) : Bool :=
  decide (f.ofs.natAbs ≤ 512 * 256) && decide (97 * 2 ^ 22 ≤ 100 * f.gain) && decide (100 * f.gain ≤ 103 * 2 ^ 22)

/-- Row 116: the commit step (R249). -/
def doSelfCalCommit (found : List CalFactors) (s : State) : State :=
  match runSlot s 0x01 with
  | none => s
  | some i =>
    if s.conv.calWait then s
    else
      let m := s.conv.calMask
      let good := found.filter (fun f => m.testBit f.conv && calPasses f)
      let gm := maskOf 16 (fun n => good.any (fun f => f.conv.val == n))
      let s1 := good.foldl (fun s f =>
        wr (aCal f.conv 0) (wd (unsgn 24 f.ofs)) (wr (aCal f.conv 4) (wd f.gain) (wr (aCal f.conv 8) f.stage s))) s
      let ref := s.conv.calRefused
      let s2 := calAbandon (modConv (fun c => { c with calValid := c.calValid ||| gm }) s1)
      endSlot i .completed [0, wd (gm + 65536 * ref), wd (m &&& (0xFFFF ^^^ gm)), 0] s2

def execSelfCalCommit (found : List CalFactors) (s : State) : Host.Outcome State Fault Refusal :=
  .next (doSelfCalCommit found s)

/-! User calibration (R252, R253). -/

def ucalSlot (s : State) (k : Nat) : List Byte := s.conv.ucalSlots.getD k []

/-- SEQ of a slot. -/
def ucalSeq (l : List Byte) : Nat := leAt l 0 4

/-- A valid slot: all its bytes, MAGIC, and the CRC-32 over bytes 0x00 to 0x87. -/
def ucalValid (l : List Byte) : Bool :=
  l.length == 0x8C && leAt l 4 4 == 0x4C414355 && crc32 (l.take 0x88) == leAt l 0x88 4

/-- UGAIN0, UOFS0 to UGAIN15, UOFS15 in force. -/
def ucalWords (s : State) : List Word :=
  (List.range 16).flatMap (fun n => [fo s (aUgain n), wdI (sgn 24 (fld (fo s (aUofs n)) 0 24))])

/-- Bytes 0x00 to 0x87 of a slot. -/
def ucalBody (seq : Nat) (ws : List Word) : List Byte :=
  leBytes 4 seq ++ leBytes 4 0x4C414355 ++ ws.flatMap (fun w => leBytes 4 w.toNat)

/-- The slot with the lower SEQ; one that is not valid counts as the lower. -/
def ucalOlder (s : State) : Nat :=
  let a := ucalSlot s 0
  let b := ucalSlot s 1
  if !ucalValid a then 0 else if !ucalValid b then 1 else if ucalSeq a ≤ ucalSeq b then 0 else 1

/-- The highest SEQ of a valid slot, 0 without one. -/
def ucalTop (s : State) : Nat :=
  [ucalSlot s 0, ucalSlot s 1].foldl (fun a l => if ucalValid l then max a (ucalSeq l) else a) 0

/-- Row 117: UCAL_SAVE. The slot stands without its CRC until the save ends, so it is not valid. -/
def doUcalSave (v : Word) (s : State) : State :=
  if v = wd 0x5543 ∧ s.conv.ucalBusy = false then
    let new := ucalBody ((ucalTop s + 1) % 2 ^ 32) (ucalWords s)
    let k := ucalOlder s
    modConv (fun c => { c with
      ucalBusy := true
      ucalSlots := if k = 0 then [new, ucalSlot s 1] else [ucalSlot s 0, new] }) s
  else s

def execUcalSave (v : Word) (s : State) : Host.Outcome State Fault Refusal := .next (doUcalSave v (hostAccess s))

/-- The CRC closes a slot whose body stands alone. -/
def ucalClose (l : List Byte) : List Byte := if l.length = 0x88 then l ++ leBytes 4 (crc32 l) else l

/-- Row 118: the save ends: its slot gets its CRC. -/
def doUcalSaveDone (s : State) : State :=
  if s.conv.ucalBusy then modConv (fun c => { c with ucalBusy := false, ucalSlots := c.ucalSlots.map ucalClose }) s
  else s

def execUcalSaveDone (s : State) : Host.Outcome State Fault Refusal := .next (doUcalSaveDone s)

/-- Staging and the value in force of a register take v, and an uncommitted write is discarded. -/
def loadReg (a : Nat) (v : Word) (s : State) : State :=
  let s1 := setFo a v (wr a v s)
  { s1 with dirty := s1.dirty.filter (· != a) }

/-- At a full image's activation: the valid slot with the higher SEQ, or zeros (R253). -/
def ucalLoad (s : State) : State :=
  let a := ucalSlot s 0
  let b := ucalSlot s 1
  let l := if ucalValid b && (!ucalValid a || decide (ucalSeq a < ucalSeq b)) then b else if ucalValid a then a else []
  let w := fun i => wd (leAt l (8 + 4 * i) 4)
  let s1 := forEach (List.range 16) (fun n s =>
    loadReg (aUgain n) (w (2 * n)) (loadReg (aUofs n) (w (2 * n + 1) &&& wd 0xFFFFFF) s)) s
  modConv (fun c => { c with ucalDefault := !ucalValid a && !ucalValid b }) s1

/-! Window comparators. -/

def brkEn (s : State) : Bool := bit (rd s aBrkCfg) 0
/-- WC16 serves the brake chopper (R229, R259). -/
def wcBrk (s : State) (c : Nat) : Bool := c == 16 && brkEn s
/-- Settings in force; WC16 with BRK_EN = 1 has both sides, no hysteresis and no host functions (R259). -/
def wcCfgOf (s : State) (c : Nat) : Word := if wcBrk s c then wd 7 else fo s (aWcCfg c)
def wcEnabled (s : State) (c : Nat) : Bool := bit (wcCfgOf s c) 0
/-- LOW and HIGH codes in force. -/
def wcLow (s : State) (c : Nat) : Nat := if wcBrk s c then fld (rd s aBrkThr) 16 10 else fld (fo s (aWcThr c)) 0 10
def wcHigh (s : State) (c : Nat) : Nat := if wcBrk s c then fld (rd s aBrkThr) 0 10 else fld (fo s (aWcThr c)) 16 10
/-- Level of a code, in 1/8 µV (R254). -/
def wcLevel (c code : Nat) : Int := if c < 16 then -8000000 + 15625 * (code : Int) else 12500 * (code : Int)

/-- A voting channel maps the comparator to any action (R260). -/
def wcMapped (s : State) (c : Nat) : Bool :=
  (votes s 0 && tmOf s 0 (12 + c) != 0) || (votes s 1 && tmOf s 1 (12 + c) != 0)

/-- A capture unit takes an edge (R262). -/
def capture (k c : Nat) (leaving : Bool) (s : State) : State :=
  let old := rd s (aCap k 8)
  let hi := wd ((s.time.sec / 2 ^ 32) % 65536 + 65536 * c + 2 ^ 21 * b2n leaving + 2 ^ 22
    + 2 ^ 23 * b2n (bit old 22 || bit old 23))
  recTrigger (2 ^ (2 + k)) (irq (40 + k)
    (landNew (aCap k 8) 22 hi (wr (aCap k 4) (wd s.time.sec) (wr (aCap k 0) (wd s.time.ns) s))))

/-- The output of comparator c changes (R261). -/
def wcOutput (c : Nat) (out : Bool) (s : State) : State :=
  let w := wcCfgOf s c
  let s1 := stick aWcEdge (2 ^ c) none s
  let s2 := if bit w 14 then irq (16 + c) s1 else s1
  let k := fld w 8 4
  let s3 := if k ≠ 0 ∧ bit w (if out then 12 else 13) = true then capture (min k 8 - 1) c out s2 else s2
  if bit w 15 && out then wake 2 c s3 else s3

/-- ABOVE and BELOW take new values; a change of output has its effects. -/
def wcSet (c : Nat) (above below : Bool) (s : State) : State :=
  let x := cmp s c
  let s1 := modCmp c (fun y => { y with above := above, below := below
                                        lastHigh := if above && !x.above then true
                                                    else if below && !x.below then false else y.lastHigh }) s
  if (x.above || x.below) == (above || below) then s1 else wcOutput c (above || below) s1

/-- Row 119: an input crosses a threshold (R255). -/
def doWcCrossing (c : Nat) (x : Crossing) (s : State) : State :=
  let y := cmp s c
  let w := wcCfgOf s c
  if wcEnabled s c && y.settled then
    match x with
    | .aboveHigh => if bit w 2 then wcSet c true false s else s
    | .belowHighHyst => wcSet c false y.below s
    | .belowLow => if bit w 1 then wcSet c false true s else s
    | .aboveLowHyst => wcSet c y.above false s
  else s

def execWcCrossing (c : CmpNo) (x : Crossing) (s : State) : Host.Outcome State Fault Refusal := .next (doWcCrossing c x s)

/-- Row 120: the first evaluation, 5 µs after the enable, against the midpoints (R257). -/
def doWcSettled (c : Nat) (uV : Int) (s : State) : State :=
  if wcEnabled s c && !(cmp s c).settled then
    let w := wcCfgOf s c
    let u := 8 * uV
    let vh := wcLevel c (wcHigh s c)
    let vl := wcLevel c (wcLow s c)
    let h := 8000 * (fld w 3 5 : Int)
    let above := bit w 2 && decide (vh - h / 2 < u)
    let below := bit w 1 && decide (u < vl + h / 2) && !above
    let band := decide (0 < h) && ((bit w 2 && decide (vh - h ≤ u) && decide (u ≤ vh))
      || (bit w 1 && decide (vl ≤ u) && decide (u ≤ vl + h)))
    let s1 := modCmp c (fun y => { y with settled := true }) s
    wcSet c above below (if band then stick aWcInitBand (2 ^ c) none s1 else s1)
  else s

def execWcSettled (c : CmpNo) (uV : Int) (s : State) : Host.Outcome State Fault Refusal := .next (doWcSettled c uV s)

/-- Settings of comparator c have changed from enabled or not: a new enable starts afresh, a disable clears without an
edge, a side switched off holds its bit clear (R255, R257). -/
def wcChanged (c : Nat) (was : Bool) (s : State) : State :=
  let w := wcCfgOf s c
  if bit w 0 && was then
    let y := cmp s c
    if (y.above && !bit w 2) || (y.below && !bit w 1) then wcSet c (y.above && bit w 2) (y.below && bit w 1) s else s
  else modCmp c (fun _ => {}) s

/-- WC_CFGc as it transfers: in RUN a mapped comparator keeps WC_EN (R260). -/
def wcApplyCfg (c : Nat) (v : Word) (s : State) : State :=
  let was := wcEnabled s c
  let keep := s.dev == .run && bit (fo s (aWcCfg c)) 0 && !bit v 0 && wcMapped s c
  if keep then
    wcChanged c was (convStick 2 (setFo (aWcCfg c) (v ||| 1) (wr (aWcCfg c) (rd s (aWcCfg c) ||| 1) s)))
  else wcChanged c was (setFo (aWcCfg c) v s)

/-- The MEAS section's comparator settings, at activation or at a MEAS swap (R259). -/
def wcLoad (m : MeasContent) (s : State) : State :=
  forEach (List.range 24) (fun c s =>
    let was := wcEnabled s c
    wcChanged c was (loadReg (aWcCfg c) (clampReg (aWcCfg c) (tget dZeroW m.wcCfg c))
      (loadReg (aWcThr c) (clampReg (aWcThr c) (tget dZeroW m.wcThr c)) s))) s

/-! Threshold readback (R263). -/

/-- Row 122: RB_CTRL. -/
def doRbCtrl (v : Word) (s : State) : State :=
  let c := min (fld v 0 5) 23
  let n := fld v 8 4
  if convInService s || s.conv.calBusy.testBit n || s.conv.rbConv.isSome then convStick 1 s
  else
    let code := if bit v 5 then wcHigh s c else wcLow s c
    wr aRbResult (wd (65536 * code + 2 ^ 28)) (modConv (fun q => { q with rbConv := some n, rbCmp := c }) (clampSeen 0x1C0014 v s))

def execRbCtrl (v : Word) (s : State) : Host.Outcome State Fault Refusal := .next (doRbCtrl v (hostAccess s))

/-- One sample of a readback, factory-corrected, Q16.8: a CMPIN level passes the divider by 2 before the converter. The
quotient's rounding is not stated. -/
def rbSample (s : State) (n c : Nat) (level : Int) : Int :=
  factValue s n (calValue s n (clampI (-32768) 32767 (if c < 16 then level else freeDiv 263 level 2)))

/-- The code read back: the mean of the samples, whose rounding is not stated. -/
def rbCode (s : State) (n c : Nat) (levels : List Int) : Int :=
  clampI (-32768) 32767 (freeDiv 262 ((levels.map (rbSample s n c)).foldl (· + ·) 0) (256 * levels.length))

/-- Row 123: the readback ends; levels are those of the threshold DAC, in code units of the converter. -/
def doReadbackDone (levels : List Int) (s : State) : State :=
  match s.conv.rbConv with
  | some n =>
    wr aRbResult (wd (unsgn 16 (rbCode s n s.conv.rbCmp levels) + 65536 * fld (rd s aRbResult) 16 10 + 2 ^ 29))
      (modConv (fun q => { q with rbConv := none }) s)
  | none => s

def execReadbackDone (levels : List Int) (s : State) : Host.Outcome State Fault Refusal :=
  .next (doReadbackDone levels s)

/-! Comparator self-test (R232). -/

/-- A CMP_SELFTEST starts: in RUN mapped comparators, and WC16 for the brake chopper, are refused. -/
def cmpTestStart (i : Nat) (s : State) : State :=
  let m := fld (param s i 0) 0 24
  let ref := maskOf 24 (fun c => m.testBit c && s.dev == .run && (wcMapped s c || wcBrk s c))
  modConv (fun q => { q with stTested := m - ref, stRefused := ref }) s

/-- Row 109: the sweeps end; res holds two bits per comparator. -/
def doCmpSelftestDone (res : Nat) (s : State) : State :=
  match runSlot s 0x06 with
  | none => s
  | some i =>
    let t := s.conv.stTested
    let r := s.conv.stRefused
    let cur := (rd s (aCmpSt 0)).toNat + 2 ^ 32 * (rd s (aCmpSt 1)).toNat
    let two := fun c => if r.testBit c then 3 else if t.testBit c then min 2 (natFld res (2 * c) 2) else natFld cur (2 * c) 2
    let all := (List.range 24).foldl (fun a c => a + two c * 4 ^ c) 0
    let bad := maskOf 24 (fun c => (r.testBit c || t.testBit c) && two c != 0)
    endSlot i .completed [0, wd bad, 0, 0]
      (modConv (fun q => { q with stTested := 0, stRefused := 0 })
        (wr (aCmpSt 1) (wd (all / 2 ^ 32)) (wr (aCmpSt 0) (wd all) s)))

def execCmpSelftestDone (res : BitVec 48) (s : State) : Host.Outcome State Fault Refusal :=
  .next (doCmpSelftestDone res.toNat s)

end Sys2Proof.Machine
end

