-- ==== Sys2Proof/Machine/Crypto.lean ====
section
/-! DEFINITION. What the image checks compute (R57): SHA-256 and ECDSA verification over NIST P-256, per FIPS 180-4
and FIPS 186-5, the standards the rule names (PRESUMED: their constants are not in the spec). -/

namespace Sys2Proof.Machine

open Sys2Proof

/-! SHA-256. Its constants are bits of roots of the first primes, so they are computed from those. -/

/-- The primes below 312: the first 64. -/
def shaPrimes : List Nat :=
  (List.range 312).filter (fun n => decide (2 ≤ n) && (List.range 16).all (fun d => n == d + 2 || n % (d + 2) != 0))

/-- The largest r of n bits whose k-th power is at most x, from what stands above these bits. -/
def rootBits (k x : Nat) : Nat → Nat → Nat
  | 0, r => r
  | n + 1, r => rootBits k x n (if (r + 2 ^ n) ^ k ≤ x then r + 2 ^ n else r)

/-- The first 32 bits of the fraction of the k-th root of p. -/
def rootFraction (k p : Nat) : Word := BitVec.ofNat 32 (rootBits k (p * 2 ^ (32 * k)) 38 0)

def shaRoundConstants : List Word := shaPrimes.map (rootFraction 3)
def shaStart : List Word := (shaPrimes.take 8).map (rootFraction 2)

/-- The rotations of a word by these amounts, combined. -/
def shaMix (w : Word) (rs : List Nat) : Word := rs.foldl (fun a r => a ^^^ w.rotateRight r) 0

/-- The schedule word that enters a window of sixteen. -/
def shaNext (win : List Word) : Word :=
  let w := fun i => win.getD i 0
  w 0 + (shaMix (w 1) [7, 18] ^^^ (w 1 >>> 3)) + w 9 + (shaMix (w 14) [17, 19] ^^^ (w 14 >>> 10))

/-- The eight working words of one round become those of the next: k and w are its constant and schedule word. -/
def shaStep (k w : Word) (v : List Word) : List Word :=
  let x := fun i => v.getD i 0
  let chosen := x 6 ^^^ (x 4 &&& (x 5 ^^^ x 6))
  let common := (x 0 &&& x 1) ||| (x 2 &&& (x 0 ||| x 1))
  let add := x 7 + shaMix (x 4) [6, 11, 25] + chosen + k + w
  (add + shaMix (x 0) [2, 13, 22] + common) :: x 0 :: x 1 :: x 2 :: (x 3 + add) :: (v.drop 4).take 3

/-- The rounds of the constants left; the window slides by one schedule word a round. -/
def shaRounds : List Word → List Word → List Word → List Word
  | [], _, v => v
  | k :: ks, win, v => shaRounds ks (win.drop 1 ++ [shaNext win]) (shaStep k (win.getD 0 0) v)

/-- One block of sixteen words is taken into the hash. -/
def shaAbsorb (hash win : List Word) : List Word :=
  List.zipWith (· + ·) hash (shaRounds shaRoundConstants win hash)

/-- The hash after n blocks of a message. -/
def shaOver (msg : List Byte) : Nat → List Word
  | 0 => shaStart
  | n + 1 => shaAbsorb (shaOver msg n)
      ((List.range 16).map (fun i => BitVec.ofNat 32 (beNat ((msg.drop (64 * n + 4 * i)).take 4))))

/-- SHA-256 of a list of bytes, as 32 bytes. -/
def sha256 (l : List Byte) : List Byte :=
  let n := l.length
  let pad := (119 - n % 64) % 64
  let m := l ++ [0x80] ++ List.replicate pad 0 ++ beBytes 8 (8 * n)
  (shaOver m (m.length / 64)).flatMap (fun w => beBytes 4 w.toNat)

/-! P-256. -/

def p256p : Nat := 0xffffffff00000001000000000000000000000000ffffffffffffffffffffffff
def p256n : Nat := 0xffffffff00000000ffffffffffffffffbce6faada7179e84f3b9cac2fc632551
def p256b : Nat := 0x5ac635d8aa3a93e7b3ebbd55769886bc651d06b0cc53b0f63bce3c3e27d2604b
def p256gx : Nat := 0x6b17d1f2e12c4247f8bce6e563a440f277037d812deb33a0f4a13945d898c296
def p256gy : Nat := 0x4fe342e2fe1a7f9b8ee7eb4a7c0f9e162bce33576b315ececbb6406837bf51f5

/-- b to the power e modulo m, over k bits of e. -/
def powMod (m : Nat) : Nat → Nat → Nat → Nat
  | 0, _, _ => 1 % m
  | k + 1, b, e =>
    let r := powMod m k (b * b % m) (e / 2)
    if e % 2 = 1 then b * r % m else r

/-- The inverse modulo a prime of at most 256 bits. -/
def invMod (m a : Nat) : Nat := powMod m 256 a (m - 2)

/-- The sum of two points; none is the point at infinity. -/
def p256Add (a b : Option (Nat × Nat)) : Option (Nat × Nat) :=
  match a, b with
  | none, q => q
  | q, none => q
  | some (x1, y1), some (x2, y2) =>
    let p := p256p
    if x1 = x2 ∧ (y1 + y2) % p = 0 then none
    else
      let lam := if x1 = x2 then (3 * x1 * x1 + (p - 3)) % p * invMod p (2 * y1 % p) % p
                 else (y2 + p - y1) % p * invMod p ((x2 + p - x1) % p) % p
      let x3 := (lam * lam + 2 * p - x1 - x2) % p
      some (x3, (lam * ((x1 + p - x3) % p) + p - y1) % p)

/-- k times a point, over n bits of k. -/
def p256Mul : Nat → Nat → Option (Nat × Nat) → Option (Nat × Nat)
  | 0, _, _ => none
  | n + 1, k, q =>
    let r := p256Mul n (k / 2) (p256Add q q)
    if k % 2 = 1 then p256Add q r else r

def p256On (x y : Nat) : Bool :=
  decide (x < p256p) && decide (y < p256p) && y * y % p256p == (x * x * x + (p256p - 3) * x + p256b) % p256p

/-- ECDSA verification of signature (r, s) on e by the public key (x, y). -/
def ecdsaVerify (x y r s e : Nat) : Bool :=
  if 0 < r ∧ r < p256n ∧ 0 < s ∧ s < p256n ∧ p256On x y = true then
    let w := invMod p256n s
    let q := p256Add (p256Mul 256 (e * w % p256n) (some (p256gx, p256gy))) (p256Mul 256 (r * w % p256n) (some (x, y)))
    match q with
    | some (x1, _) => x1 % p256n == r
    | none => false
  else false

end Sys2Proof.Machine
end

