-- ==== Sys2Proof/Machine/Image.lean ====
section
/-! DEFINITION. The form of a Damask image and the checks of R59, in their order (R49 to R58, R73, R401). -/

namespace Sys2Proof.Machine

open Sys2Proof

/-- A section table entry (R54). -/
structure Entry where
  tile : Nat := 0
  cg : Nat := 0
  sflags : Nat := 0
  rsvd : Nat := 0
  off : Nat := 0
  len : Nat := 0
  crc : Nat := 0
  deriving DecidableEq, Repr, Inhabited

/-- What a load needs of an image's header (R50). -/
structure ImgHead where
  isPartial : Bool := false
  signed : Bool := false
  swapSet : Bool := false
  size : Nat := 0
  build : Nat := 0
  digestOff : Nat := 0
  entries : List Entry := []
  deriving DecidableEq, Repr, Inhabited

def Entry.idle (e : Entry) : Bool := e.sflags.testBit 1

/-- Bytes [o, o + n) are all zero. -/
def zeroAt (l : List Byte) (o n : Nat) : Bool := ((l.drop o).take n).all (· == 0)

def readEntry (h : List Byte) (i : Nat) : Entry :=
  let o := 0x200 + 16 * i
  { tile := leAt h o 1, cg := leAt h (o + 1) 1, sflags := leAt h (o + 2) 1, rsvd := leAt h (o + 3) 1
    off := leAt h (o + 4) 4, len := leAt h (o + 8) 4, crc := leAt h (o + 12) 4 }

def readHead (h : List Byte) : ImgHead :=
  let f := leAt h 0x0E 2
  { isPartial := f.testBit 0, signed := f.testBit 1, swapSet := f.testBit 2, size := leAt h 0x10 4
    build := leAt h 0x14 4, digestOff := leAt h 0x20 4
    entries := (List.range (min 20 (leAt h 0x18 2))).map (readEntry h) }

/-- A watchdog word within its ranges (R401). -/
def wdogOk (w : Nat) : Bool :=
  (!w.testBit 15 || (decide (1 ≤ w % 2 ^ 14) && decide (w % 2 ^ 14 ≤ 10000))) && w / 65536 == 0

/-- Order 1 of R59. -/
def order1 (h : List Byte) : Bool :=
  let part := (leAt h 0x0E 2).testBit 0
  leAt h 0 4 == 0x4B534D44 && decide (0x0100 ≤ leAt h 4 2) && decide (leAt h 4 2 ≤ 0x01FF) && leAt h 6 2 == 0x400
  && leAt h 0x1C 4 == 0x200 && leAt h 0x14 4 != 0 && leAt h 0x0E 2 / 8 == 0
  && zeroAt h 0x1A 2 && zeroAt h 0x24 28 && zeroAt h 0x5C 36 && zeroAt h 0x98 360 && zeroAt h 0x340 188
  && decide (leAt h 0x56 1 ≤ 7) && decide (leAt h 0x57 1 ≤ 2) && decide (leAt h 0x58 4 < 2 ^ 18)
  && wdogOk (leAt h 0x90 4) && wdogOk (leAt h 0x94 4)
  && (!part || zeroAt h 0x40 0x58)

/-- Order 5 of R59, with the staging bytes that lie at or after the image's start. -/
def order5 (h : List Byte) (room : Nat) : Bool :=
  let i := readHead h
  let st := leAt h 0x80 2
  let qu := leAt h 0x82 2
  decide (i.size ≤ 0x1800000) && decide (i.size ≤ room)
  && decide (0x400 ≤ i.digestOff) && i.digestOff % 16 == 0
  && i.size == i.digestOff + 32 + (if i.signed then 128 else 0)
  && (i.isPartial || (decide (4 ≤ st) && decide (st ≤ 24) && decide (2 ≤ qu) && decide (qu ≤ 32)
      && st + qu + leAt h 0x84 2 == 128 && zeroAt h 0x86 10))

/-- One entry keeps the rules of R54 and R55 that concern it alone. -/
def entryOk (e : Entry) : Bool :=
  decide (e.tile < 20) && e.off % 256 == 0 && decide (0x400 ≤ e.off) && decide (e.len ≤ 0x400000)
  && e.rsvd == 0 && e.sflags / 4 == 0 && (if e.idle then e.cg == 0xFF else decide (e.cg ≤ 7))
  && (!e.sflags.testBit 0 || tileKind e.tile == .ctrl)

/-- From byte o on: entries ascend without overlap, end by the digest, and what no section covers is zero (R55). -/
def coverOk (img : List Byte) (dig : Nat) (o : Nat) : List Entry → Bool
  | [] => decide (o ≤ dig) && zeroAt img o (dig - o)
  | e :: r => decide (o ≤ e.off) && zeroAt img o (e.off - o) && coverOk img dig (e.off + e.len) r

/-- The body header of a section against its entry (R56). -/
def bodyOk (img : List Byte) (e : Entry) : Bool :=
  let o := e.off
  decide (32 ≤ e.len) && leAt img o 1 == e.tile && zeroAt img (o + 2) 2 && zeroAt img (o + 24) 8
  && e.len == 32 + leAt img (o + 4) 4 + leAt img (o + 8) 4 + leAt img (o + 12) 4
  && (leAt img (o + 12) 4 == 0 || tileKind e.tile == .ctrl) && (leAt img (o + 20) 4 == 0 || tileKind e.tile == .gorse)

/-- Order 6 of R59: none, or the tile to report (0xFF where the table itself breaks a rule). -/
def order6 (img : List Byte) : Option Nat :=
  let i := readHead img
  let n := leAt img 0x18 2
  let tiles := i.entries.map (·.tile)
  if !(if i.isPartial then decide (1 ≤ n) && decide (n ≤ 19) else n == 20) || !zeroAt img (0x200 + 16 * n) (320 - 16 * n)
      || !i.entries.all entryOk || tiles.eraseDups.length != tiles.length || !coverOk img i.digestOff 0x400 i.entries
  then some 0xFF
  else (i.entries.find? (fun e => !bodyOk img e)).map (·.tile)

/-- Orders 7 to 10 of R59; key: the OTP key hash as stored (R57, R58). -/
def signCode (img : List Byte) (key : Option (List Byte)) : Nat :=
  let i := readHead img
  let d := (img.drop i.digestOff).take 32
  let o := i.digestOff + 32
  if sha256 (img.take i.digestOff) ≠ d then 0x07
  else
    match key with
    | none => 0
    | some k =>
      if !i.signed then 0x08
      else if sha256 ((img.drop o).take 64) ≠ k then 0x09
      else if ecdsaVerify (leAt img o 32) (leAt img (o + 32) 32) (leAt img (o + 64) 32) (leAt img (o + 96) 32) (beNat d)
      then 0 else 0x0A

/-- The key hash bytes in OTP: word 0 holds bytes 0 to 3, little-endian (R80). -/
def keyBytes (ws : List Word) : List Byte := ws.flatMap (fun w => leBytes 4 w.toNat)

/-- Orders 1 to 10 of R59 for the image at DRAM offset off: code and tile, 0 where it passes. -/
def checkImage (s : State) (off : Nat) : Nat × Nat :=
  let h := dramAt s off 0x400
  let room := s.damask.stagingMib * 2 ^ 20 - off
  if !order1 h then (0x01, 0xFF)
  else if leAt h 8 4 ≠ 0x543616 then (0x02, 0xFF)
  else if 0x10 < leAt h 0x0C 1 ∨ leAt h 0x0D 1 < 0x10 then (0x03, 0xFF)
  else if crc32 (h.take 0x3FC) ≠ leAt h 0x3FC 4 then (0x04, 0xFF)
  else if !order5 h room then (0x05, 0xFF)
  else
    let img := dramAt s off (readHead h).size
    match order6 img with
    | some t => (0x06, t)
    | none => (signCode img (s.damask.otpKey.map keyBytes), 0xFF)

/-- The entries a load takes: those TILE_MASK names, or all, in ascending tile order (R64, hard cases). Mask bits of tiles that
the image does not hold are ignored, and a mask that names no section leaves nothing to load (DESIGN CHOICE, log entry 131). -/
def namedEntries (i : ImgHead) (mask : Nat) : List Entry :=
  (List.range 20).filterMap (fun t => i.entries.find? (fun e => e.tile == t && (mask == 0 || mask.testBit t)))

/-- A Gorse channel may be reloaded (R41, R75, R217). -/
def gorseLoadOk (s : State) (ch : Nat) : Bool :=
  let o := (tile s (17 - ch)).st
  if votes s (1 - ch) then o == .activeOnly && !(s.dev == .run && !votes s ch)
  else !votes s ch && (s.dev == .tripped || s.dev == .configWait)
    && !(o == .loading || o == .shadowRun || o == .swapping)
    && !(if ch = 0 then s.gorse.joinB else s.gorse.joinA)

/-- Clock group of a tile's active plane as a section table names it. -/
def planeCg (p : Plane) : Nat := if p.idle then 0xFF else p.cg

/-- Order 11 of R59 outside CONFIG-WAIT, in the order of R73. The rules on clock groups and IFACE_TAGs bind every section of
the image, those on Gorse the sections that the load names; iface gives a section's IFACE_TAG. -/
def partialRules (s : State) (i : ImgHead) (named : List Entry) (iface : Entry → Nat) : Nat × Nat :=
  match i.entries.find? (fun e => e.cg != planeCg (plane s e.tile)) with
  | some e => (0x10, e.tile)
  | none =>
    match (if i.swapSet then none else i.entries.find? (fun e => iface e != (plane s e.tile).ifaceTag.toNat)) with
    | some e => (0x0F, e.tile)
    | none =>
      if i.swapSet && ((i.entries.map (·.cg)).eraseDups.length > 1) then (0x11, 0xFF)
      else if named.any (·.tile == 16) && named.any (·.tile == 17) then (0x12, 0xFF)
      else
        match named.find? (fun e => (e.tile == 16 || e.tile == 17) && !gorseLoadOk s (e.tile - 16)) with
        | some e => (0x13, e.tile)
        | none => (0, 0xFF)

/-- The plane that a section's bytes program (R54, R56). -/
def planeOf (build : Nat) (e : Entry) (sec : List Byte) : Plane :=
  { buildId := wd build, idle := e.idle, cg := e.cg, coldDefault := e.sflags.testBit 0
    ifaceTag := wd (leAt sec 16 4), auxTag := wd (leAt sec 20 4), body := (Config.sectionBody e.tile sec).legal }

end Sys2Proof.Machine
end

