-- ==== Sys2Proof/Machine/Damask.lean ====
section
/-! DEFINITION. Loading, activation, shadow-run and swap of tiles, scrubbing, the key hash and boot (R47 to R81, R184,
R204, R253, R321; rows 12, 25, 31 to 35). -/

namespace Sys2Proof.Machine

open Sys2Proof

/-! The "—" fields: values that a section supplies. -/

/-- A "—" field takes v in force; in staging too unless, at a swap, an uncommitted write waits there (R184). -/
def loadDash (swap : Bool) (mask a : Nat) (v : Word) (s : State) : State :=
  let put := fun (w : Word) => (w &&& ~~~(wd mask)) ||| (v &&& wd mask)
  let keep := swap && s.dirty.contains a
  let s1 := setFo a (put (fo s a)) (if keep then s else wr a (put (rd s a)) s)
  if keep || rd s1 a != fo s1 a then s1 else { s1 with dirty := s1.dirty.filter (· != a) }

/-- The fields of a MOD section (R184). -/
def loadMod (swap : Bool) (m : ModContent) (s : State) : State :=
  let s1 := m.periods.foldl (fun s p => loadDash swap 0xFFFFFF (aCgPeriod p.1) (clampReg (aCgPeriod p.1) (wd p.2)) s) s
  let mask := maskOf 16 (fun c => (tlook m.chgCg c).isSome)
  let s2 := modMod (fun q =>
    let keep := if swap then q.updDirty else 0
    let free := mask &&& (0xFFFF ^^^ (keep &&& 0xFFFF))
    { q with upd := (q.upd &&& (0xFFFF ^^^ mask)) ||| (m.chgUpd &&& mask)
             updStaged := (q.updStaged &&& (0xFFFF ^^^ free)) ||| (m.chgUpd &&& free)
             updDirty := q.updDirty &&& (0xFFFF ^^^ free) }) s1
  let s3 := m.carriers.foldl (fun s p =>
    loadDash swap 0x1FFFF (aCarrierPhase p.1) (wd (p.2.phase % 65536 + 65536 * b2n p.2.phMode)) s) s2
  let s4 := m.pairs.foldl (fun s p =>
    let k := p.2
    let a := aLp p.1
    loadDash swap 9 (a 0x08) (wd (b2n k.indep + 8 * b2n k.bootstrap))
      (loadDash swap 0x7FFF (a 0x0C) (clampReg (a 0x0C) (wd (max k.dt k.dtMin)))
        (loadDash swap 0xFFFFFFFF (a 0x14) (clampReg (a 0x14) (wd (k.refreshMin % 65536 + 65536 * k.refreshInt)))
          (loadDash swap 0xFFFF (a 0x18) (clampReg (a 0x18) (wd k.bootHold)) s)))) s3
  m.cells.foldl (fun s p =>
    let k := p.2
    let a := aVc p.1
    loadDash swap 0x3F1000 (a 0x40) (wd (4096 * b2n k.bootstrap + 65536 * (k.indep % 64)))
      (loadDash swap 0x7FFF (a 0x44) (clampReg (a 0x44) (wd (max k.dt k.dtMin)))
        (loadDash swap 0xFFFFFFFF (a 0x4C) (clampReg (a 0x4C) (wd (k.refreshMin % 65536 + 65536 * k.refreshInt)))
          (loadDash swap 0xFFFF (a 0x50) (clampReg (a 0x50) (wd k.bootHold)) s)))) s4

/-- A window of registers whose reset is zero takes a section's words, in force and in staging. -/
def loadWindow (base n : Nat) (ws : Tbl Word) (s : State) : State :=
  let s1 := { s with regs := tclr s.regs base (base + 4 * n), force := tclr s.force base (base + 4 * n) }
  ws.foldl (fun s p => if p.1 < n then loadReg (base + 4 * p.1) (clampReg (base + 4 * p.1) p.2) s else s) s1

/-- Whether a staged write to unit u waits. -/
def unitDirty (s : State) (u : Nat) : Bool := s.dirty.any (fun a => decide (aMu u 0 ≤ a) && decide (a < aMu u 0x10000))

/-- The fields of unit u's section; at a swap every staged write of the unit is discarded (R69, R204). -/
def loadUnit (swap : Bool) (u : Nat) (c : UnitCfg) (s : State) : State :=
  let lost := swap && unitDirty s u
  let own := fun a => decide (aMu u 0 ≤ a) && decide (a < aMu u 0x10000)
  let s1 := if swap then
      s.dirty.foldl (fun s a => if own a then wr a (fo s a) s else s) { s with dirty := s.dirty.filter (fun a => !own a) }
    else s
  let s2 := loadWindow (aMu u 0x8000) 896 c.shift (loadWindow (aMu u 0x4000) 3584 c.coef
    (loadWindow (aMu u 0x340) 16 c.umax (loadWindow (aMu u 0x300) 16 c.umin (loadWindow (aMu u 0x100) 32 c.refs s1))))
  if lost then dmkFlag 2 s2 else s2

def loadCtrl (swap : Bool) (t : Nat) (c : CtrlContent) (s : State) : State :=
  loadUnit swap (2 * (t - 8) + 1) (if c.odd.defined then c.odd else {})
    (loadUnit swap (2 * (t - 8)) (if c.even.defined then c.even else {}) s)

/-- The fields of the METER section (R332). -/
def loadMeter (m : MeterContent) (s : State) : State :=
  let s1 := loadReg aMeterCfg (clampReg aMeterCfg (wd (m.latchN % 65536 + 65536 * b2n m.appMode))) s
  forEach (List.range 9) (fun c s => forEach (List.range 6) (fun i s =>
    let a := 0x1F0204 + 0x20 * c + 4 * i
    loadReg a (clampReg a (tget dZeroW m.sens (8 * c + i))) s) s) s1

/-- A tile's active plane has changed: its section's fields act (R184, R204, R259, R332). -/
def loadTile (swap : Bool) (t : Nat) (s : State) : State :=
  let p := plane s t
  match tileKind t with
  | .mod => if p.idle then s else loadMod swap p.mod s
  | .ctrl => loadCtrl swap t (if p.idle then {} else p.ctrl) s
  | .meas => if p.idle then wcLoad {} s else wcLoad p.meas s
  | .meter => if p.idle then s else loadMeter p.meter s
  | _ => s

/-! Programming (R66, hard cases). -/

/-- The load reaches the first tile still to program. A tile that a REVERT has put in SHADOW-RUN or SWAPPING since the load
started fails it as one named in that state (R66, R71; DESIGN CHOICE, log entry 131). -/
def loadNext (s : State) : State :=
  match s.damask.load with
  | some ld =>
    (match ld.todo with
     | t :: _ =>
       if (tile s t).st = .loading then s
       else if (tile s t).st = .shadowRun ∨ (tile s t).st = .swapping then failLoad 0x16 t s
       else
         let b := if (tile s t).st = .tileFault then TileState.tileFault else .activeOnly
         setTile t .loading (modTile t (fun x => { x with
           before := b, shadow := none, prev := false, programmed := false, cold := false, swapSet := 0,
           shadowUpset := false, srRun := 0, srCount := 0, srMis := 0, shVals := [] }) s)
     | [] => s)
  | none => s

/-- A programmed tile whose section names no group enters SHADOW-RUN at once. -/
def shadowEnter (t : Nat) (s : State) : State :=
  setTile t .shadowRun (modTile t (fun x => { x with programmed := false, shVals := [] }) s)

/-- The load has no tile left: outside CONFIG-WAIT its operation completes (R66). -/
def loadEnd (s : State) : State :=
  match s.damask.load with
  | some ld =>
    if ld.activates then s
    else
      let s1 := modDamask (fun d => { d with load := none, sigUnchecked := d.sigUnchecked || (ld.signed && !ld.verified) }) s
      let s2 := forEach ld.done (fun t s =>
        if (tile s t).programmed && (planeOr (tile s t).shadow).idle then shadowEnter t s else s) s1
      (match ld.slot with
       | some i => endSlot i .completed [0, 0, 0, 0] s2
       | none => s2)
  | none => s

/-- The operation of the load asks for suspension, so the next section waits (R356). -/
def loadHeld (s : State) (ld : Load) : Bool :=
  match ld.slot with | some i => (slot s i).suspReq || (slot s i).st == .suspended | none => false

/-- The head of the list of tiles to program is done with. -/
def loadAdvance (doneTile : Option Nat) (s : State) : State :=
  match s.damask.load with
  | some ld =>
    let rest := ld.todo.drop 1
    let s1 := modDamask (fun d => { d with
      load := some { ld with todo := rest, done := match doneTile with | some t => ld.done ++ [t] | none => ld.done } }) s
    if rest.isEmpty then loadEnd s1 else if loadHeld s1 ld then s1 else loadNext s1
  | none => s

/-- An entry of the load's table. -/
def loadEntry (ld : Load) (t : Nat) : Entry :=
  let l := (tlook ld.entries t).getD []
  { tile := t, off := l.getD 0 0, len := l.getD 1 0, crc := l.getD 2 0, cg := l.getD 3 0, sflags := l.getD 4 0 }

/-- Row 25: programming and readback of the tile being loaded end (orders 12 and 13 of R59, R66). A tile that has gone to
TILE-FAULT while it was LOADING is left out, and the load goes on with the next one (DESIGN CHOICE, log entry 131). COLD of the
operation overrides the section's COLD_DEFAULT (R64). -/
def doSectionProgramDone (t : Nat) (readbackOk : Bool) (s : State) : State :=
  match s.damask.load with
  | none => s
  | some ld =>
    if ld.todo.head? ≠ some t then s
    else if (tile s t).st ≠ .loading then loadAdvance none s
    else
      let e := loadEntry ld t
      let sec := dramAt s (ld.offset + e.off) e.len
      if crc32 sec ≠ e.crc then failLoad 0x0C t s
      else if !readbackOk then failLoad 0x0D t s
      else
        loadAdvance (some t) (modTile t (fun x => { x with
          shadow := some (planeOf ld.buildId.toNat e sec), programmed := true
          cold := (if ld.slot.isSome then ld.cold else e.sflags.testBit 0) && tileKind t == .ctrl, swapSet := ld.swapSet }) s)

def execSectionProgramDone (t : TileNo) (ok : Bool) (s : State) : Host.Outcome State Fault Refusal :=
  .next (doSectionProgramDone t ok s)

/-! A TILE_LOAD or a boot load starts (R59 to R63, R71, R73 to R75). -/

/-- Report of a load that fails before it touches a tile. -/
def loadRefuse (sl : Option Nat) (r : Nat × Nat) (s : State) : State :=
  match sl with
  | some i => failSlot i r.1 r.2 (if s.dev = .configWait then modDamask (fun d => { d with bootCode := r.1 }) s else s)
  | none => bootFail r.1 s

/-- The key hash that OTP holds; one being programmed counts from the end of programming. -/
def keyInForce (s : State) : Option (List Word) := if s.damask.keyBusy then none else s.damask.otpKey

def loadStart (sl : Option Nat) (off mask : Nat) (cold : Bool) (s : State) : State :=
  let r := checkImage { s with damask := { s.damask with otpKey := keyInForce s } } off
  if r.1 ≠ 0 then loadRefuse sl r s
  else
    let h := dramAt s off 0x400
    let i := readHead h
    let boot := s.dev == .configWait
    if boot && i.isPartial then loadRefuse sl (0x0E, 0xFF) s
    else
      let named := namedEntries i (if boot then 0 else mask)
      let rules := if boot then (0, 0xFF) else partialRules s i named (fun e => dramNat s (off + e.off + 16) 4)
      if rules.1 ≠ 0 then loadRefuse sl rules s
      else
        match named.find? (fun e => (tile s e.tile).st == .loading || (tile s e.tile).st == .shadowRun
            || (tile s e.tile).st == .swapping) with
        | some e => loadRefuse sl (0x16, e.tile) s
        | none =>
          let ld : Load := {
            slot := sl, offset := off, full := boot, signed := i.signed, verified := i.signed && (keyInForce s).isSome
            buildId := wd i.build, cold := cold, todo := named.map (·.tile)
            entries := named.map (fun e => (e.tile, [e.off, e.len, e.crc, e.cg, e.sflags]))
            activates := boot, swapSet := if i.swapSet && !boot then maskOf 20 (fun t => i.entries.any (·.tile == t)) else 0
            blocks := (h.drop 0x40).take 0x58 }
          let s1 := modDamask (fun d => { d with load := some ld }) s
          if named.isEmpty then loadEnd s1 else loadNext s1

/-! Activation of a full image (R34, R52, R53, R62, R97, R253, R321, R346, R401). -/

/-- The identity block: a field of zero leaves what the host has written (R43, R52). -/
def takeIdentity (b : List Byte) (s : State) : State :=
  let mac := fun (p : Nat) (s : State) =>
    let m := leAt b (6 * p) 6
    if m = 0 then s
    else modEth (fun e => if p = 0 then { e with mac0 := m } else { e with mac1 := m })
      (wr (aEth p 0x08) (wd m) (wr (aEth p 0x0C) (wd (m / 2 ^ 32)) s))
  let s1 := mac 1 (mac 0 s)
  let s2 := if leAt b 12 8 = 0 then s1 else wr aPtpIdLo (wd (leAt b 12 4)) (wr aPtpIdHi (wd (leAt b 16 4)) s1)
  let s3 := if leAt b 20 2 = 0 then s2 else wr aIdcode (wd (leAt b 20 2)) s2
  let s4 := if leAt b 24 4 = 0 then s3 else wr aTwStation (wd (leAt b 24 4)) s3
  modDamask (fun d => { d with wzPosition := leAt b 22 1, wzRole := leAt b 23 1 }) s4

/-- The meter accumulators at activation (R321). -/
def meterRestore (s : State) : State :=
  let best := (s.meter.recs.map (·.2)).foldl (fun (a : Option MeterRec) r =>
    if recValid r then (match a with | some b => if b.seq < r.seq then some r else a | none => some r) else a) none
  let s1 := match best with
    | some r =>
      let loss := r.kind == 1 || r.kind == 4
      let s' := modMeter (fun m => { m with acc := r.acc, wrap := r.wrap, energy := r.acc, energyWrap := r.wrap
                                            clearCnt := r.clearCnt, restored := true, noFinal := loss }) s
      if loss then meterStick 0 s' else s'
    | none => meterStick 1 (modMeter (fun m => { m with acc := [], wrap := [], energy := [], energyWrap := [] }) s)
  modMeter (fun m => { m with startDue := true, runQual := 0, cycles := 0 }) s1

/-- Clock groups that the tiles' active planes name (R48). -/
def presentMask (s : State) : Nat := maskOf 8 (fun g => (List.range 20).any (fun t => tileGroup s t == some g))

/-- All twenty planes become active at once, and the image's settings take effect. -/
def activateImage (ld : Load) (s : State) : State :=
  let b := ld.blocks
  let s1 := forEach (List.range 20) (fun t s =>
    setTile t .activeOnly (modTile t (fun x => { st := x.st, active := x.shadow }) s)) s
  let s2 := takeIdentity b s1
  let s3 := modDamask (fun d => { d with
    stagingMib := leAt b 0x40 2, queueMib := leAt b 0x42 2, recorderMib := leAt b 0x44 2
    imageValid := true, signedActive := ld.verified, sigUnchecked := ld.signed && !ld.verified
    bootCode := 0, fallback := ld.slot.isNone && d.bootMode == 2 && d.bootSlot == 1, load := none }) s2
  let s4 := wr aHostWdogCfg (wd (leAt b 0x50 2)) (wr aSvcWdogCfg (wd (leAt b 0x54 2)) (wr aActiveBuild ld.buildId s3))
  let s5 := modMeas (fun m => { m with recSeg := 0, recFrozen := 0, recCount := 0, recFilling := false, recPost := 0, idx := [] })
    { s4 with present := presentMask s4, groups := [] }
  let s6 := forEach (List.range 20) (loadTile false) s5
  let s7 := forEach (bitsOf 8 s6.present) (fun g s =>
    modGroup g (fun x => { x with period := fld (fo s (aCgPeriod g)) 0 24 }) s) s6
  let s8 := forEach (List.range 16) unitInit s7
  let s9 := if tileLive s8 19 then meterRestore (ucalLoad s8) else ucalLoad s8
  let s10 := logEv 8 ld.buildId.toNat s9
  let s11 := modGorse (fun g => { g with voteA := tileLive s10 16 && g.testA, voteB := tileLive s10 17 && g.testB
                                         joinA := false, joinB := false }) s10
  let s12 := scUpdate s11
  let s13 := match ld.slot with | some i => endSlot i .completed [0, 0, 0, 0] s12 | none => s12
  if s13.gorse.en && s13.gorse.latch == 0 then enterRun s13 else setDev .tripped (forEach [36, 37] blockWz s13)

/-- Neighbours on the Wozin ports that reported a POSITION other than own minus 1 on WZ1 or own plus 1 on WZ0 (R155). -/
def wzPosBad (s : State) (own : Nat) : List Nat :=
  [36, 37].filter (fun l =>
    let x := link s l
    x.st == .linked && x.rxSeq.isSome && (if l = 36 then x.wzPos != own + 1 else x.wzPos + 1 != own))

/-- Row 12: the last section is programmed, and the image becomes active or is refused for its reference (R97). -/
def doImageActivation (s : State) : State :=
  match s.damask.load with
  | none => s
  | some ld =>
    if ld.activates && ld.todo.isEmpty && s.dev == .configWait then
      let role := leAt ld.blocks 23 1
      let sel := fld (rd s aClkCfg) 0 2
      let bad := wzPosBad s (leAt ld.blocks 22 1)
      if (role == 2) == (sel == 0) then failLoad 0x19 0xFF s
      else if !bad.isEmpty then forEach bad (fun l s => protoStick l 5 s) s
      else activateImage ld s
    else s

def execImageActivation (s : State) : Host.Outcome State Fault Refusal := .next (doImageActivation s)

/-! Swaps (R67 to R72, R74, R75, R79). -/

/-- The clock group at whose boundary a tile swaps. -/
def swapTileGroup (s : State) (t : Nat) : Option Nat :=
  match (tile s t).shadow with
  | some p => if p.idle then none else some p.cg
  | none => tileGroup s t

/-- The group of a swap: that of its lowest tile that has one. -/
def swapGroup (s : State) (mask : Nat) : Option Nat := (bitsOf 20 mask).findSome? (swapTileGroup s)

/-- A tile may be handed over only in ACCEPT mode (R75, R79). -/
def acceptOnly (s : State) (t : Nat) : Bool :=
  tileFaulted s t || (tileKind t == .gorse && !s.gorse.voteA && !s.gorse.voteB)

/-- The swap names Gorse while a safe-stop sequence runs (hard cases). -/
def swapHeld (s : State) (mask : Nat) : Bool := (mask.testBit 16 || mask.testBit 17) && s.gorse.ssRunning

/-- A unit of a tile that swaps goes on with the incoming plane: state of the shadow-run, with the outgoing plane's outputs
applied (R69, R72), or with cold handover the section's initial state and outputs (R202). -/
def unitSwap (t v : Nat) (old : Tile) (s : State) : State :=
  let u := 2 * (t - 8) + v
  let c := unitCfg s u
  let x0 := initVec c.n c.initX
  let x := if old.cold then x0
    else if tget dZeroI old.shVals (8192 + v) = 1 then tblOf (tgetRun dZeroI old.shVals (4096 + 64 * v) 32)
    else x0
  modUnit u (fun y => { y with
    x := if c.defined then x else [], u := if c.defined && old.cold then initVec c.m c.initU else y.u, busy := false, ready := none, copying := false, deferred := false
    presetNow := c.defined && old.cold, latched := true }) s

/-- The swap at its boundary (R66, R69, R76, R79). The binding of a SWAP_SET ends with it, so a REVERT may name single tiles of
the set (R74; DESIGN CHOICE, log entry 132). A Gorse channel votes with its new plane once that has passed its self-test (R218);
that it does not vote until then is no withdrawal (DESIGN CHOICE, log entry 135). -/
def swapPerform (s : State) : State :=
  match s.damask.swap with
  | none => s
  | some w =>
    let tiles := bitsOf 20 w.mask
    let old := fun t => tile s t
    let s1 := forEach tiles (fun t s =>
      let bad := (tile s t).faultInSwap || tileFaulted s t
      setTile t .activeOnly (modTile t (fun x => {
        st := x.st, active := x.shadow, shadow := if bad then none else x.active, prev := !bad && x.active.isSome
        srRun := x.srRun, srCount := x.srCount, srMis := x.srMis }) s))
      (modDamask (fun d => { d with load := d.load.map (fun ld => { ld with done := ld.done.filter (!w.mask.testBit ·) }) }) s)
    let s2 := forEach tiles (fun t s =>
      let s' := loadTile true t s
      match tileKind t with
      | .ctrl => unitSwap t 1 (old t) (unitSwap t 0 (old t) s')
      | .mod => modMod (fun m => { m with tileSafe := m.tileSafe &&& (15 ^^^ 2 ^ (t - 4)) }) s'
      | .gorse => modGorse (fun g =>
          if t = 16 then { g with voteA := false, joinA := true } else { g with voteB := false, joinB := true }) s'
      | .meas => if (planeOr (old t).active).meas.phasors = (plane s' t).meas.phasors then s'
          else cfgMark s s'
      | .meter => if tileFaulted s t || (old t).faultInSwap then modMeter (fun m => { m with startDue := true }) s' else s'
      | .link => s') s1
    endSwap .completed 0 0 (scUpdate s2)

/-- A REVERT that would put a Gorse channel into SHADOW-RUN against R41: with the other channel, or while R41 and R75 let that
channel not be reloaded. -/
def revertBad (s : State) (mask t : Nat) : Bool :=
  tileKind t == .gorse && (tile s t).st == .activeOnly && (mask.testBit (33 - t) || !gorseLoadOk s (t - 16))

/-- A TILE_SWAP starts in slot i (R41, R67, R71, R74, R75, R79). One that names no tile, and a REVERT of a Gorse channel that R41
does not allow, fail with 0x16 (DESIGN CHOICE, log entry 131). -/
def swapStart (i : Nat) (s : State) : State :=
  let mask := fld (param s i 0) 0 20
  let tiles := bitsOf 20 mask
  let accept := bit (param s i 1) 0
  let revert := bit (param s i 1) 1
  let can := fun t => let x := tile s t
    x.st == .shadowRun || (revert && x.st == .activeOnly && x.prev)
  let w : Swap := { slot := i, mask := mask, accept := accept, n := fld (param s i 2) 0 16, tol := fld (param s i 2) 16 16
                    maxPeriods := (param s i 3).toNat }
  if tiles.isEmpty then failSlot i 0x16 0xFF s
  else
    match tiles.find? (fun t => (tile s t).shadowUpset) with
    | some t => failSlot i 0x17 t (modTile t (fun x => { x with shadowUpset := false }) s)
    | none =>
      match tiles.find? (fun t => !can t || ((tile s t).swapSet != 0 && ((tile s t).swapSet != mask || !accept))
          || (acceptOnly s t && !accept) || revertBad s mask t) with
      | some t => failSlot i 0x16 t s
      | none =>
        let s1 := forEach tiles (fun t s =>
          let s' := modTile t (fun x => { x with srRun := 0, srCount := 0, srMis := 0 }) s
          if (tile s' t).st = .activeOnly then
            setTile t .shadowRun (modTile t (fun x => { x with prev := false, before := .activeOnly, shVals := []
                                                               cold := (planeOr x.shadow).coldDefault }) s')
          else s') s
        let s2 := modDamask (fun d => { d with swap := some w }) s1
        if (swapGroup s2 mask).isNone then swapPerform s2 else s2

/-- A slot goes to SUSPENDED (R342, R353). -/
def suspendSlot (i : Nat) (s : State) : State :=
  opEvent i (modSlot i (fun x => { x with st := .suspended, suspReq := false }) s)

/-- At the cutoff before the swap boundary the tiles enter SWAPPING (R66, R68, R70). -/
def swapCutoff (g : Nat) (s : State) : State :=
  match s.damask.swap with
  | none => s
  | some w =>
    if w.met && !w.swapping && (slot s w.slot).st == .running && swapGroup s w.mask == some g && !swapHeld s w.mask then
      if (slot s w.slot).suspReq then suspendSlot w.slot s
      else
        let s1 := forEach (bitsOf 20 w.mask) (fun t s => if (tile s t).st = .shadowRun then setTile t .swapping s else s) s
        modDamask (fun d => { d with swap := some { w with swapping := true } }) s1
    else s

/-- The planes of a tile hold the same content. -/
def sameContent (s : State) (t : Nat) : Bool :=
  let b := planeOr (tile s t).shadow
  (plane s t).idle == b.idle && decide ((plane s t).body = b.body)

/-- The latest boundary of a tile's group. -/
def periodNo (s : State) (t : Nat) : Nat := match tileGroup s t with | some g => (group s g).boundary | none => 0

/-- The action vector of a channel's shadow plane (R67, R75, R212): its trip matrix on the sources as the channel holds them,
where the shadow's filter of a C source is the same. -/
def shadowVec (s : State) (ch : Nat) : Nat :=
  let p := planeOr (tile s (16 + ch)).shadow
  let c : GorseContent := if p.idle then {} else p.gorse
  (List.range 256).foldl (fun v n =>
    let same := isB n || decide (((tlook c.filt n).getD {}).filter = (filtOf s ch n).filter)
    let on := if same then chanHolds s ch n else Config.shadowFiltered ch n (periodNo s (16 + ch))
    if on then v ||| ((tlook c.tm n).getD 0).toNat else v) 0

/-- Whether a tile's shadow outputs matched in the period that ends (R67): within TOL for CTRL and MEAS, exactly for the other
tiles. -/
def shadowMatch (s : State) (t tol : Nat) : Bool :=
  let x := tile s t
  match tileKind t with
  | .ctrl => (List.range 2).all (fun v =>
      let u := 2 * (t - 8) + v
      let c := if v = 0 then (planeOr x.shadow).ctrl.even else (planeOr x.shadow).ctrl.odd
      let m := max (if c.defined then c.m else 0) (unitCfg s u).m
      (List.range m).all (fun j =>
        decide ((iget (munit s u).nu j - tget dZeroI x.shVals (5120 + 64 * v + j)).natAbs ≤ tol)))
  | .gorse => decide (chanVec s (t - 16) = shadowVec s (t - 16))
  | .meas => sameContent s t || Config.measMatches (periodNo s t) tol
  | _ => sameContent s t || Config.shadowMatches t (periodNo s t)

/-- A boundary of the swap's group counts (R67, R68). A swap that fails with 0x15 names the lowest of its tiles that has not
met the condition (R81; DESIGN CHOICE, log entry 131). -/
def swapCount (w : Swap) (s : State) : State :=
  let tiles := bitsOf 20 w.mask
  if w.met || (slot s w.slot).st != .running then s
  else if (slot s w.slot).suspReq then suspendSlot w.slot s
  else if !w.started then modDamask (fun d => { d with swap := some { w with started := true } }) s
  else
    let cmp := tiles.filter (fun t => !tileFaulted s t)
    let bad := cmp.filter (fun t => !shadowMatch s t w.tol)
    let s1 := forEach tiles (fun t s =>
      let ok := cmp.contains t && !bad.contains t
      modTile t (fun x => { x with srCount := x.srCount + b2n (cmp.contains t), srRun := if ok then x.srRun + 1 else 0
                                   srMis := x.srMis + b2n (bad.contains t) }) s) s
    let n := w.count + 1
    let met := if w.accept then decide (w.n ≤ n) else tiles.all (fun t => decide (w.n ≤ (tile s1 t).srRun))
    let s2 := modDamask (fun d => { d with swap := some { w with count := n, bad := w.bad + b2n (!bad.isEmpty), met := met } }) s1
    if !met && !w.accept && decide (w.maxPeriods ≤ n) then
      failSwap 0x15 ((tiles.find? (fun t => decide ((tile s2 t).srRun < w.n))).getD 0xFF) s2
    else s2

/-- The damask part of a boundary of group g before outputs are applied: tiles enter SHADOW-RUN, periods count. -/
def damaskBoundary (g : Nat) (s : State) : State :=
  let s1 := forEach (List.range 20) (fun t s =>
    let x := tile s t
    if x.st = .loading ∧ x.programmed = true ∧ swapTileGroup s t = some g then shadowEnter t s else s) s
  match s1.damask.swap with
  | some w => if swapGroup s1 w.mask = some g ∧ w.swapping = false then swapCount w s1 else s1
  | none => s1

/-- The swap of group g is due at this boundary and not held. -/
def swapNow (s : State) (g : Nat) : Bool :=
  match s.damask.swap with
  | some w => w.swapping && swapGroup s w.mask == some g && !swapHeld s w.mask
  | none => false

/-- A suspended swap starts its count afresh (R70). SR_MISMATCHn counts over the whole swap (R81) and stays (DESIGN CHOICE, log
entry 133). -/
def swapResume (s : State) : State :=
  match s.damask.swap with
  | some w =>
    let s1 := forEach (bitsOf 20 w.mask) (fun t s => modTile t (fun x => { x with srRun := 0, srCount := 0 }) s) s
    modDamask (fun d => { d with swap := some { w with started := false, count := 0, bad := 0, met := false } }) s1
  | none => s

/-! Discards and upsets (R71, R78). -/

/-- A shadow plane in SHADOW-RUN is lost: its tile is ACTIVE-ONLY, and a swap that names it fails. -/
def shadowLost (code t : Nat) (s : State) : State :=
  let s1 := failSwapOf code t s
  let s2 := modDamask (fun d => { d with load := d.load.map (fun ld => { ld with done := ld.done.filter (· != t) }) }) s1
  setTile t .activeOnly (clearShadow t s2)

/-- Row 31: TILE_DISCARD. -/
def doTileDiscard (v : Word) (s : State) : State :=
  forEach (bitsOf 20 v.toNat) (fun t s =>
    match (tile s t).st with
    | .loading => dmkFlag 1 s
    | .swapping => dmkFlag 1 s
    | .shadowRun => shadowLost 0x16 t s
    | _ => clearShadow t s) s

def execTileDiscard (v : Word) (s : State) : Host.Outcome State Fault Refusal := .next (doTileDiscard v (hostAccess s))

/-- One upset (R78). -/
def scrubOne (u : Upset) (s : State) : State :=
  let t := u.tile.val
  if !u.uncorrectable then cntUp aSeuCorr 1 s
  else
    let was := bit (rd s aSeuUncorr) t
    let s1 := stick aSeuUncorr (2 ^ t) none s
    let s2 := if was then s1 else irq 4 s1
    if !u.shadow then (if (tile s2 t).active.isSome then tileFault t s2 else s2)
    else
      match (tile s2 t).st with
      | .shadowRun => modTile t (fun x => { x with shadowUpset := s2.damask.swap.all (fun w => !w.mask.testBit t) })
          (shadowLost 0x17 t s2)
      | .loading => s2
      | .swapping => s2
      | _ => clearShadow t s2

/-- Row 32: a scrub sweep with what it found. -/
def doScrubSweep (found : List Upset) (s : State) : State := found.foldl (fun s u => scrubOne u s) s

def execScrubSweep (found : List Upset) (s : State) : Host.Outcome State Fault Refusal := .next (doScrubSweep found s)

/-! The key hash (R80). -/

/-- Row 33: KEY_PROG. -/
def doKeyProg (v : Word) (s : State) : State :=
  if v ≠ wd 0x4B48 then s
  else
    let ws := (List.range 8).map (tget dZeroW s.damask.keyWr)
    if s.dev == .configWait && s.damask.otpKey.isNone && !(ws.all (· == 0)) then
      modDamask (fun d => { d with otpKey := some ws, keyBusy := true, keyFail := false }) s
    else modDamask (fun d => { d with keyFail := true }) s

def execKeyProg (v : Word) (s : State) : Host.Outcome State Fault Refusal := .next (doKeyProg v (hostAccess s))

/-- Row 34: programming ends. After an attempt that failed OTP holds no key hash, and the host may try again (R80; DESIGN CHOICE,
log entry 134). -/
def doKeyProgDone (ok : Bool) (s : State) : State :=
  if s.damask.keyBusy then
    modDamask (fun d => { d with keyBusy := false, keyFail := !ok, otpKey := if ok then d.otpKey else none }) s
  else s

def execKeyProgDone (ok : Bool) (s : State) : Host.Outcome State Fault Refusal := .next (doKeyProgDone ok s)

/-- Row 35: the QSPI read and the digest end; the image stands in staging from offset 0 (R61). -/
def doQspiReadDone (supported : Bool) (image : List Byte) (s : State) : State :=
  if s.damask.qspiBusy && s.damask.load.isNone && s.dev == .configWait then
    if !supported then bootFail 0x18 s
    else loadStart none 0 0 false (dramPut 0 (image.take 0x1800000) (modDamask (fun d => { d with qspiBusy := false }) s))
  else s

def execQspiReadDone (supported : Bool) (image : List Byte) (s : State) : Host.Outcome State Fault Refusal :=
  .next (doQspiReadDone supported image s)

end Sys2Proof.Machine
end

