-- ==== Sys2Proof/Machine/Commit.lean ====
section
/-! DEFINITION. Period commits (R25 to R32, R171 to R176), the cutoffs and boundaries of a clock group, the mirror copy
and the start of the clock groups (rows 1 to 4, 8, 9, 11). -/

namespace Sys2Proof.Machine

open Sys2Proof

/-! Row 1: COMMIT_REQ. -/

/-- A request for group g is registered (R27, R29): it is late where it misses the cutoff of the coming boundary or of the
coming mid-period instant (R26). -/
def requestCommit (g : Nat) (s : State) : State :=
  let s1 := if (group s g).cut || (group s g).midWait then cntUp aCommitLate 1 s else s
  modGroup g (fun x => { x with req := true }) s1

/-- Row 1: COMMIT_REQ (R27, R29, R31, R46). -/
def doCommitReq (v : Word) (s : State) : State :=
  if s.dev = .configWait then stick aCommitFlags 1 none s
  else forEach (bitsOf 8 v.toNat) (fun g s =>
    if s.present.testBit g then requestCommit g s else stick aCommitFlags 1 none s) s

def execCommitReq (v : Word) (s : State) : Host.Outcome State Fault Refusal := .next (doCommitReq v (hostAccess s))

/-! Pair-lock (R172). -/

/-- The governing host compares of enabled channel groups of g. -/
def governing (s : State) (g : Nat) : List Nat :=
  let ps := (groupPairs s g).filter (pairOn s)
  let cs := (groupCells s g).filter (cellOn s)
  ps.flatMap (fun p =>
    let k := (pairCfg s p).getD {}
    if k.muSrc then [] else aLp p 0 :: (if bit (fo s (aLp p 8)) 0 then [aLp p 4] else []))
  ++ cs.flatMap (fun c =>
    let k := (cellCfg s c).getD {}
    let sw := cellSwitches s c
    let used := fun i => !k.muMask.testBit i &&
      (!isLeg k sw (i / 2) || i % 2 == 0 || bit (fo s (aVc c 0x40)) (16 + i / 2))
    ((List.range sw).filter used).map (fun i => aVc c (4 * i)))

/-- Every governing compare has been written since the last boundary commit (PL_COMPLETE). -/
def plComplete (s : State) (g : Nat) : Bool := (governing s g).all (fun a => (group s g).written.contains a)

/-- Pair-lock holds a staged period of group g. On a follower none ever transfers (R173, hard cases of chapter 6). -/
def plBlocks (s : State) (g : Nat) : Bool :=
  bit (rd s aPairlock) g && s.damask.wzRole != 2 && s.dirty.contains (aCgPeriod g) && !plComplete s g

/-- The period is longer than L_g, as the mirror copy holds it, plus some picoseconds (R151, R163, R400). -/
def longerHeld (s : State) (g p extraPs : Nat) : Bool :=
  decide ((p * 400 : Int) * unitsPerPs > (group s g).lgU + extraPs * unitsPerPs)

/-! Enables (R163). -/

/-- The conditions under which a newly staged enable of group g transfers, with the staged writes taken in. -/
def enableOk (s : State) (g : Nat) : Bool :=
  s.dev == .run && (groupLinks s g).all (fun l => (link s l).st == .linked && (link s l).latValid && !(link s l).rangeNow)
    && (group s g).started && longerHeld s g (comingPeriod s g) 260000
    && s.conv.calBusy == 0 && s.conv.rbConv.isNone

/-- Channel groups that contain a local pair, while bank IO0 is at 1.8 V (R398). -/
def ioBad (s : State) : Nat :=
  if bit (rd s aPwrSticky) 3 then
    maskOf 16 (fun c => (List.range 12).any (fun p => match pairCfg s p with | some k => k.chg == c | none => false))
  else 0

/-- The enable and update bits of group g are taken in; refused enables are cleared (R163, R171). -/
def takeEnables (g : Nat) (s : State) : State :=
  let m := chgMask s g
  let d := s.mod.enDirty &&& m
  let fresh := s.mod.enStaged &&& d &&& (0xFFFF ^^^ (s.mod.en &&& 0xFFFF))
  let bad := if fresh == 0 || enableOk s g then fresh &&& ioBad s else fresh
  let staged := s.mod.enStaged &&& (0xFFFF ^^^ (bad &&& 0xFFFF))
  let du := s.mod.updDirty &&& m
  let s1 := modMod (fun q => { q with
    enStaged := staged, enDirty := q.enDirty &&& (0xFFFF ^^^ (d &&& 0xFFFF))
    updDirty := q.updDirty &&& (0xFFFF ^^^ (du &&& 0xFFFF)) }) s
  let s2 := modGroup g (fun x => { x with takenEn := (d, staged &&& d), takenUpd := (du, s.mod.updStaged &&& du) }) s1
  if bad = 0 then s2 else modStick 2 s2

/-! Row 2: the cutoff. -/

/-- The staged writes of group g are taken in (R27, R172). A follower's period comes from GRID, so a staged one
waits. -/
def takeIn (g : Nat) (s : State) : State :=
  let regs := (stagedOf s g).filter (fun p => !(s.damask.wzRole == 2 && p.1 == aCgPeriod g))
  let s1 := modGroup g (fun x => { x with req := false, taken := true, plHold := false, written := [], takenRegs := regs })
    { s with dirty := s.dirty.filter (fun a => !(regs.any (fun p => p.1 == a))) }
  takeEnables g s1

/-- The commit of group g is judged at its cutoff (R27, R30, R172). -/
def judgeCommit (g : Nat) (s : State) : State :=
  if !(group s g).req then s
  else if swapDue s g then cntUp aCommitDefer 1 s
  else if plBlocks s g then cntUp aPlHoldCnt 1 (modGroup g (fun x => { x with plHold := true }) s)
  else takeIn g s

/-- The group of the step of the safe-stop sequence that acts next, and the channel groups that it disables (R402). -/
def ssHeadGroup (s : State) : Option Nat :=
  if s.gorse.ssRunning && !s.gorse.ssWaiting then
    match s.gorse.ssSteps with
    | .ramp cg _ _ :: _ => some cg
    | .disable cg _ :: _ => some cg
    | .wait cg _ :: _ => some cg
    | [] => none
  else none

def ssHeadOff (s : State) (g : Nat) : Nat :=
  match s.gorse.ssSteps with
  | .disable cg m :: _ => if cg = g ∧ ssHeadGroup s = some g then m else 0
  | _ => 0

/-- Row 2: the cutoff of the coming boundary of group g (R25, R27, R163, R167, R195, R400). -/
def doCutoff (g : Nat) (s : State) : State :=
  if s.present.testBit g && (group s g).started && !(group s g).cut then
    let s1 := if longerHeld s g (periodOf s g) 160000 then s else modStick 7 s
    let s2 := unitsCutoff g (judgeCommit g (swapCutoff g s1))
    let s3 := edgeCompute g (ssHeadOff s2 g) s2
    let s4 := if ssHeadGroup s3 = some g then modGorse (fun q => { q with ssArmed := true }) s3 else s3
    modGroup g (fun x => { x with cut := true }) s4
  else s

def execCutoff (g : GroupNo) (s : State) : Host.Outcome State Fault Refusal := .next (doCutoff g s)

/-! Row 3: the boundary. -/

/-- One committed register takes effect (R14, R27, R202, R260, R290, R296, R314). -/
def applyReg (p : Nat × Word) (s : State) : State :=
  let a := p.1
  let v := p.2
  if isCoef a then s
  else if 0x1C0600 ≤ a ∧ a < 0x1C06C0 ∧ a % 8 = 4 then wcApplyCfg ((a - 0x1C0600) / 8) v s
  else if a = aRecCfg then recApply (fo s a) v (setFo a v s)
  else if a = aPmuCfg then
    let s1 := setFo a v s
    if (v ^^^ fo s a) &&& wd 0x3FE = 0 then s1 else cfgMark s s1
  else if a = aMeterCfg then meterCfgApply v s
  else if 0x200000 ≤ a ∧ a < 0x300000 ∧ a % 0x10000 = 4 then
    let s1 := setFo a (v &&& wd 4) s
    if s1.dirty.contains a then s1 else wr a (v &&& wd 4) s1
  else setFo a v s

/-- The commit that was taken in takes effect (R27, R32). -/
def commitApply (g : Nat) (s : State) : State :=
  let x := group s g
  if x.taken then
    let s1 := banksAt g x.takenRegs (x.takenRegs.foldl (fun s p => applyReg p s) s)
    let s2 := modMod (fun q => { q with en := comingEn s1 g, upd := comingUpd s1 g }) s1
    irq (8 + g) (modGroup g (fun y => { y with
      taken := false, takenRegs := [], takenEn := (0, 0), takenUpd := (0, 0), commitAt := y.boundary % 2 ^ 32 }) s2)
  else banksAt g [] s

/-- The period that opens has no mid-period transfer (R176). -/
def midSkip (g : Nat) (s : State) : State :=
  if (s.mod.upd &&& chgMask s g) != 0 && (group s g).midAt == 0 then
    modStick 4 (cntUp aMidSkipCnt 1 s)
  else s

/-- Reports kept for AGE 1 to 4, with those that may still come for the boundaries ahead (R190). -/
def purgeReports (g k : Nat) (s : State) : State :=
  forEach (groupLinks s g) (fun l s =>
    let keep := fun (r : Nat × Nat × Int) => let d := (k % 256 + 256 - r.1) % 256; decide (d ≤ 4) || decide (250 ≤ d)
    if (link s l).reports.all keep then s else modLink l (fun x => { x with reports := x.reports.filter keep }) s) s

/-- The copy into the mirror begins (R37, R38, R145), with L_g and the links' reports as they stand. -/
def mirrorBegin (g : Nat) (s : State) : State :=
  let rpt := (groupLinks s g).map (fun l => (l, (link s l).rpt0, (link s l).rpt1, (link s l).rpt2))
  modGroup g (fun x => { x with lgU := leadU s g, mirRpt := rpt, mirrorSeq := x.mirrorSeq + 1 + x.mirrorSeq % 2 }) s

/-- The step at the head of the safe-stop sequence ends; after the last the sequence ends (R220, R402). -/
def ssPop (s : State) : State :=
  let rest := s.gorse.ssSteps.drop 1
  let s1 := modGorse (fun q => { q with
    ssSteps := rest, ssStep := q.ssStep + 1, ssWaiting := false, ssArmed := false, ssReady := false }) s
  if rest.isEmpty then ssEnd s1 else s1

/-- A RAMP step in progress ends once every slot it names has latched with r = 0 (R403). -/
def rampDone (s : State) : State :=
  match s.gorse.ssWaiting, s.gorse.ssSteps with
  | true, .ramp _ _ _ :: _ =>
    if s.gorse.ramps.all (fun r => !r.live || r.slots.all r.zeroed.contains) then
      ssPop (modGorse (fun q => { q with ramps := q.ramps.map (fun r => { r with live := false }) }) s)
    else s
  | _, _ => s

/-- Row 3: boundary of group g (R24, R32, R37, R69, R191, R239, R402). -/
def doPeriodBoundary (g : Nat) (s : State) : State :=
  let x := group s g
  if s.present.testBit g && x.started && x.cut then
    let per := comingPeriod s g
    let k := (x.boundary + 1) % 2 ^ 64
    let tap := nextTap s g
    let s1 := x.midRegs.foldl (fun s p => setFo p.1 p.2 s) s
    let s2 := damaskBoundary g (convBoundary g s1)
    let s3 := commitApply g (modGroup g (fun y => { y with
      boundary := k, bAt := s.tick, bTap := tap, gridAt := none, midAt := y.midNext, midNext := 0, period := per, cut := false, midCut := false, midWait := false, midRegs := [] }) s2)
    let s4 := forEach (groupPairs s3 g) (fun p s => pairBoundary p x.period s) s3
    let s5 := forEach (groupCells s4 g) (fun c s =>
      modCell c (cellBoundary (k % 256)) (modVCell c (fun y => { y with waves := y.nextWaves, nextWaves := [] }) s)) s4
    let now := swapNow s5 g
    let s6 := unitsBoundary g (k % 256) (if now then swapPerform else id) s5
    let s7 := rampDone (rampsLatched g s6)
    let s8 := if s7.gorse.ssArmed && ssHeadGroup s7 == some g then modGorse (fun q => { q with ssReady := true }) s7 else s7
    midSkip g (mirrorBegin g (purgeReports g k s8))
  else s

def execPeriodBoundary (g : GroupNo) (s : State) : Host.Outcome State Fault Refusal := .next (doPeriodBoundary g s)

/-- Row 4: the mirror copy ends (R38). -/
def doMirrorCopyEnd (g : Nat) (s : State) : State :=
  if (group s g).mirrorSeq % 2 = 1 then modGroup g (fun x => { x with mirrorSeq := x.mirrorSeq + 1 }) s else s

def execMirrorCopyEnd (g : GroupNo) (s : State) : Host.Outcome State Fault Refusal := .next (doMirrorCopyEnd g s)

/-! Rows 8 and 9: the mid-period update (R174, R175). -/

/-- Staged compares of the mid-update channel groups of g. -/
def midStaged (s : State) (g : Nat) : List (Nat × Word) :=
  (stagedOf s g).filter (fun p =>
    let o := p.1 - 0x100000
    if 0x2000 ≤ o ∧ o < 0x2000 + 0x20 * 12 then
      decide (o % 0x20 < 8) && (match pairCfg s ((o - 0x2000) / 0x20) with | some k => s.mod.upd.testBit k.chg | none => false)
    else if 0x4000 ≤ o ∧ o < 0x4000 + 0x100 * 36 then
      decide (o % 0x100 < 0x30) && (match cellCfg s ((o - 0x4000) / 0x100) with | some k => s.mod.upd.testBit k.chg | none => false)
    else false)

/-- Row 8: the mid cutoff (R26, R174, R176). -/
def doMidCutoff (g : Nat) (s : State) : State :=
  let x := group s g
  if s.present.testBit g && x.started && !x.midCut && !x.cut && (s.mod.upd &&& chgMask s g) != 0 && x.midAt != 0 then
    let s0 := modGroup g (fun y => { y with midCut := true, midWait := true }) s
    if x.req && !x.plHold && !plBlocks s g then
      let ws := midStaged s g
      let chg := ws.filter (fun w => fo s w.1 != w.2)
      let val := fun a => (tlook ws a).getD (fo s a)
      let s1 := modGroup g (fun y => { y with midRegs := ws })
        { s0 with dirty := s0.dirty.filter (fun a => !(ws.any (fun w => w.1 == a))) }
      let s2 := forEach (groupPairs s1 g) (fun q s =>
        if chg.any (fun w => w.1 == aLp q 0 || w.1 == aLp q 4) then pairMid g q x.midAt val s else s) s1
      forEach (groupCells s2 g) (fun c s =>
        if chg.any (fun w => decide (aVc c 0 ≤ w.1) && decide (w.1 < aVc c 0x30)) then
          cellMid g c x.midAt val (fun i => chg.any (fun w => w.1 == aVc c (4 * i))) s
        else s) s2
    else s0
  else s

def execMidCutoff (g : GroupNo) (s : State) : Host.Outcome State Fault Refusal := .next (doMidCutoff g s)

/-- Row 9: the mid-period instant: the compares are in force (R174), and HALF messages act at the cells (R140). -/
def doMidPeriodTransfer (g : Nat) (s : State) : State :=
  let s1 := modGroup g (fun x => { x with midRegs := [], midWait := false }) ((group s g).midRegs.foldl (fun s p => setFo p.1 p.2 s) s)
  forEach (groupCells s1 g) (fun c s => modCell c (cellMidpoint ((group s1 g).boundary % 256)) s) s1

def execMidPeriodTransfer (g : GroupNo) (s : State) : Host.Outcome State Fault Refusal :=
  .next (doMidPeriodTransfer g s)

/-! Row 11: the clock groups start. -/

/-- Group g is created with k as the number of its latest boundary, at tap in true time (R46, R156). -/
def groupCreate (g k tap : Nat) (s : State) : State :=
  modGroup g (fun x => { x with started := true, boundary := k, bAt := s.tick, bTap := tap, lgU := leadU s g }) s

/-- The mid-period instant of period 0 (R174). -/
def midFirst (g : Nat) (s : State) : State :=
  let m := midInstant s g s.mod.upd (periodOf s g)
  modGroup g (fun x => { x with midAt := m }) s

/-- Boundary 0 of group g (R46, R195). The spec gives boundary 0 no cutoff: a request registered between the activation and the
start is taken in at the cutoff of boundary 1 and never counts as late for boundary 0 (DESIGN CHOICE, log entry 130). -/
def groupStart (g : Nat) (s : State) : State :=
  midSkip g (mirrorBegin g (unitsBoundary g 0 id (midFirst g (groupCreate g 0 (100 * s.tick) s))))

/-- Row 11: the first alignment instant, on a standalone device or a leader (R46). -/
def doClockGroupStart (s : State) : State :=
  if s.damask.imageValid && s.damask.wzRole != 2 then
    forEach (bitsOf 8 s.present) (fun g s => if (group s g).started then s else groupStart g s) s
  else s

def execClockGroupStart (s : State) : Host.Outcome State Fault Refusal := .next (doClockGroupStart s)

end Sys2Proof.Machine
end

