-- ==== Sys2Proof/Machine/BrackenCmds.lean ====
section
/-! DEFINITION. Bracken, the bypass meter (R323 to R331): rows 160 to 163, 193, 194. Its totals carry 32 fraction bits. -/

namespace Sys2Proof.Machine

open Sys2Proof

/-- A register of the Bracken domain (R323). -/
def brReg (s : State) (o : Nat) : Word := tget regReset s.bracken.regs (aBr o)
def brWrReg (o : Nat) (v : Word) (s : State) : State :=
  modBr (fun b => { b with regs := tset regReset b.regs (aBr o) v }) s

def brEn (s : State) : Bool := bit (brReg s 0x18) 0
/-- BYPASS_STATE: closed. -/
def bypassClosed (s : State) : Bool := bit (brReg s 0x3C) 0

/-- A record goes into the ring (R329): seven words, without the CRC. -/
def brRecord (ws : List Word) (s : State) : State :=
  let h := s.bracken.head
  let s1 := if s.bracken.unread.testBit h then brStick 3 s else s
  modBr (fun b => { b with ring := tset (fun _ => {}) b.ring h { words := ws }, unread := b.unread ||| 2 ^ h
                           head := (h + 1) % 120 }) s1

/-- The totals go into the slot whose turn it is (R326, R329). -/
def brTotals (s : State) : State :=
  modBr (fun b =>
    let q := b.slotSeq + 1
    let e := [q, b.sec, tget dZero b.ah 0 / 2 ^ 32, tget dZero b.ah 1 / 2 ^ 32, tget dZero b.ah 2 / 2 ^ 32, b.est / 2 ^ 32,
              b.clearCnt]
    let l := (List.range 2).map (fun k => if k = q % 2 then e else b.slots.getD k [])
    { b with slots := l, slotSeq := q }) s

/-- The interval closes: its record, and TAMPER where the record carries it (R326, R327). -/
def brClose (s : State) : State :=
  let b := s.bracken
  let flags := b2n b.ivMainOff + 2 * b2n (!bypassClosed s) + 4 * b2n b.ivTamper
  let mah := fun n => wd (freeDiv 326 (((tget dZero b.ah n : Nat) : Int) - (tget dZero b.ivAh n : Nat)) (2 ^ 32)).toNat
  let s1 := brRecord [wd (1 + 65536 * flags), wd b.ivStart, wd b.sec, mah 0, mah 1, mah 2,
                      wd (freeDiv 326 ((b.est : Int) - b.ivEst) (2 ^ 32)).toNat] s
  let s2 := if b.ivTamper then brStick 2 s1 else s1
  brTotals (modBr (fun b => { b with open_ := false }) s2)

/-- RMS over one second of the current (code − BR_ZEROn) × BR_SCALEn of channel n, in 2^-8 µA (R324). -/
def brRms (s : State) (n : Nat) (codes : List (BitVec 24)) : Nat :=
  let z := fld (brReg s (0x30 + 4 * n)) 0 24
  let scale := (brReg s (0x24 + 4 * n)).toNat
  let sq := codes.foldl (fun a c => a + ((((c.toNat : Int) - (z : Int)) * scale).natAbs) ^ 2) 0
  let cnt := max 1 codes.length
  let r := Nat.sqrt (sq / cnt)
  if r * r * cnt ≠ sq ∧ Config.roundUp 324 (sq : Int) cnt = true then r + 1 else r

/-- The additions of one second (R325): rms in 2^-8 µA. -/
def brAdd (rms : List Nat) (s : State) : State :=
  let v := fld (brReg s 0x1C) 0 16
  let pf := fld (brReg s 0x18) 1 10
  let sum := rms.foldl (· + ·) 0
  let inc := fun (n : Nat) => (freeDiv 325 ((rms.getD n 0 : Nat) * 2 ^ 24 : Nat) 3600000).toNat
  let est := (freeDiv 325 ((sum * 2 ^ 24 * v * pf : Nat) : Int) 3600000000).toNat
  modBr (fun b => { b with
    ah := (List.range 3).foldl (fun (t : Tbl Nat) n => tmod dZero t n (fun x => (x + inc n) % 2 ^ 96)) b.ah
    est := (b.est + est) % 2 ^ 96 }) s

/-- RMS of the three channels; with BR_EN = 0 nothing is measured. -/
def brRmsAll (s : State) (c0 c1 c2 : List (BitVec 24)) : List Nat :=
  if brEn s then [brRms s 0 c0, brRms s 1 c1, brRms s 2 c2] else [0, 0, 0]

/-- Row 160: a crystal second with the codes of each channel (R324 to R326). -/
def doBrackenSecond (c0 c1 c2 : List (BitVec 24)) (s : State) : State :=
  if !s.bracken.running then s
  else
    let rms := brRmsAll s c0 c1 c2
    let flows := rms.any (fun r => decide ((brReg s 0x20).toNat * 256000 < r))
    let b := s.bracken
    let s1 := if flows && !b.open_ then
        modBr (fun b => { b with open_ := true, ivStart := b.sec, ivQuiet := 0, ivAh := b.ah, ivEst := b.est
                                 ivTamper := false, ivMainOff := false }) s
      else s
    let s2 := modBr (fun b => { b with sec := (b.sec + 1) % 2 ^ 32 }) (brAdd rms s1)
    if !s2.bracken.open_ then s2
    else
      let s3 := modBr (fun b => { b with
        ivQuiet := if flows then 0 else b.ivQuiet + 1
        ivTamper := b.ivTamper || (flows && !bypassClosed s2)
        ivMainOff := b.ivMainOff || s.power.mainOff }) s2
      if 10 ≤ s3.bracken.ivQuiet then brClose s3
      else if (s3.bracken.sec - s3.bracken.ivStart) % 60 = 0 then brTotals s3 else s3

def execBrackenSecond (c0 c1 c2 : List (BitVec 24)) (s : State) : Host.Outcome State Fault Refusal :=
  .next (doBrackenSecond c0 c1 c2 s)

/-- An alignment record is due: the first since the main domain powered up, or 24 h of crystal seconds after the last
(R330; DESIGN CHOICE: BR_SEC counts the 24 h, log 151). -/
def alignDue (b : Bracken) : Bool := !b.aligned || decide (86400 ≤ (b.sec + 2 ^ 32 - b.alignBr) % 2 ^ 32)

/-- Row 161: an alignment record, once the servo is in LOCKED or HOLDOVER (R330, R342). -/
def doAlignmentRecord (s : State) : State :=
  if (s.time.servo = .locked ∨ s.time.servo = .holdover) ∧ s.bracken.running = true ∧ alignDue s.bracken = true then
    let b := s.bracken
    let t := s.time.sec
    irq 114 (modBr (fun b => { b with aligned := true, alignBr := b.sec, alignS := t })
      (brRecord [2, wd b.sec, wd t, wd (t / 2 ^ 32 % 65536), 0, 0, 0] s))
  else s

def execAlignmentRecord (s : State) : Host.Outcome State Fault Refusal := .next (doAlignmentRecord s)

/-- Row 162: BR_CLEAR (R331). -/
def doBrClear (v : Word) (s : State) : State :=
  if v = wd 0x4243 ∧ s.dev ≠ .run then
    brTotals (brTotals (modBr (fun b => { b with ah := [], est := 0, clearCnt := (b.clearCnt + 1) % 2 ^ 32 }) s))
  else s

def execBrClear (v : Word) (s : State) : Host.Outcome State Fault Refusal := .next (doBrClear v (hostAccess s))

/-- Totals come back from the slot with the higher SEQ (R329). -/
def brRestore (s : State) : State :=
  let best := s.bracken.slots.foldl (fun a l => if a.getD 0 0 < l.getD 0 0 then l else a) []
  modBr (fun b => { b with
    sec := best.getD 1 0, est := best.getD 5 0 * 2 ^ 32, clearCnt := best.getD 6 0, open_ := false
    ah := (List.range 3).foldl (fun (t : Tbl Nat) n => tset dZero t n (best.getD (2 + n) 0 * 2 ^ 32)) [] }) s

/-- Row 163: VBAT is in range and the crystal runs; after a loss or a stop, a restart record (R323, R329). -/
def doVbatRestart (s : State) : State :=
  if s.bracken.running then s
  else
    let b := s.bracken
    let s1 := if b.vbatLost then brStick 0 (brRestore s) else s
    let s2 := if b.vbatLost || b.oscFailed then
        brRecord [wd (3 + 65536 * (b2n b.vbatLost + 2 * b2n b.oscFailed)), wd s1.bracken.sec, 0, 0, 0, 0, 0] s1
      else s1
    modBr (fun b => { b with running := true, vbatOk := true, oscOk := true, vbatLost := false, oscFailed := false }) s2

def execVbatRestart (s : State) : Host.Outcome State Fault Refusal := .next (doVbatRestart s)

/-- Row 193: VBAT leaves its range. -/
def doVbatLoss (s : State) : State :=
  if s.bracken.vbatOk then
    modBr (fun b => { b with running := false, vbatOk := false, oscOk := false, vbatLost := true, open_ := false }) s
  else s

def execVbatLoss (s : State) : Host.Outcome State Fault Refusal := .next (doVbatLoss s)

/-- Row 194: the crystal stops. -/
def doBrackenCrystalStop (s : State) : State :=
  if s.bracken.running then
    brStick 1 (modBr (fun b => { b with running := false, oscOk := false, oscFailed := true }) s)
  else s

def execBrackenCrystalStop (s : State) : Host.Outcome State Fault Refusal := .next (doBrackenCrystalStop s)

end Sys2Proof.Machine
end

