-- ==== Sys2Proof/Machine/GorseCmds.lean ====
section
/-! DEFINITION. Gorse: desaturation, the channels, safe stop, EN, the brake chopper and the off-state diagnostics (R206
to R236, R402, R403; rows 90 to 108). -/

namespace Sys2Proof.Machine

open Sys2Proof

/-! Desaturation. -/

def dsatUsed (s : State) (p : Nat) : Bool := bit (rd s aDsatUsed) p
/-- A side of pair p is on at its ball; in the tick of a trip, as it was before the trip, since each DSAT source is evaluated on
its own (R209, R226). -/
def pairIsOn (s : State) (p : Nat) : Bool :=
  if s.gorse.snapTick = some s.tick then s.gorse.snapH.testBit p || s.gorse.snapL.testBit p
  else ghLevel s p || glLevel s p

/-- The blanking that runs on pair p, with the stamp of a pending crossing; one that a trip of this tick has ended counts, as its
own end is no later (R221, R226). -/
def blankingOf (s : State) (p : Nat) : Option (Option (Nat × Nat)) :=
  if (pair s p).blanking then some (pair s p).pendingX
  else if s.gorse.snapTick = some s.tick then tlook s.gorse.snapBlank p
  else none

/-- Row 90: a DSAT pin crosses its threshold (R209, R221). -/
def doDsatCrossing (p : Nat) (s : State) : State :=
  if !dsatUsed s p then s
  else
    let s1 := modPair p (fun x => { x with dsatPin := true }) s
    if !pairIsOn s p then s1
    else if (pair s p).blanking then
      modPair p (fun x => { x with pendingX := x.pendingX.or (some (s.time.sec, s.time.ns)) }) s1
    else if (blankingOf s p).isSome then cntSat aBlankPendCnt 1 s1
    else bAssert p none s1

def execDsatCrossing (p : PairNo) (s : State) : Host.Outcome State Fault Refusal := .next (doDsatCrossing p s)

/-- A pending crossing that a trip of this tick dropped acts after all: it is not counted as dropped (R221, R226). -/
def undrop (s : State) : State :=
  let v := rd s aBlankPendCnt
  if v = 0 ∨ v = wd 0xFFFFFFFF then s else wr aBlankPendCnt (v - 1) (noteEvent aBlankPendCnt (· - 1) s)

/-- Row 91: blanking ends and the pin is sampled (R221). -/
def doBlankingEnd (p : Nat) (beyond : Bool) (s : State) : State :=
  match blankingOf s p with
  | none => s
  | some x =>
    let hit := beyond && dsatUsed s p
    let ran := (pair s p).blanking
    let s1 := modGorse (fun g => { g with snapBlank := tdel g.snapBlank p })
      (modPair p (fun y => { y with blanking := false, pendingX := none, dsatPin := hit }) s)
    if hit then bAssert p x (if x.isSome && !ran then undrop s1 else s1)
    else if x.isSome && ran then cntSat aBlankPendCnt 1 s1 else s1

def execBlankingEnd (p : PairNo) (beyond : Bool) (s : State) : Host.Outcome State Fault Refusal :=
  .next (doBlankingEnd p beyond s)

/-! The channels. -/

/-- An action of a vector has class NOTIFY. -/
def notifies (s : State) (ch v : Nat) : Bool := (actsOf s ch v).any (fun d => d.cls == .notify)

/-- A voting channel that held source n before maps it to NOTIFY: its record is written (R236). -/
def notified (s : State) (n : Nat) : Bool :=
  (s.gorse.voteA && s.gorse.inA.testBit n && notifies s 0 (tmOf s 0 n))
    || (s.gorse.voteB && s.gorse.inB.testBit n && notifies s 1 (tmOf s 1 n))

/-- Row 92: channels A and B take a C source as asserted after their filters, or no longer (R208, R212 to R215). -/
def doCSourceFiltered (n : Nat) (a b : Bool) (s : State) : State :=
  if !isC n || srcMasked s n then s
  else
    let s1 := if measCond n then setLive n (a || b) s else s
    if (a || b) && !srcLive s1 n then s
    else
      let s2 := xchk n (modGorse (fun g => { g with inA := setBit g.inA n a, inB := setBit g.inB n b }) s1)
      let va := if a then tmOf s 0 n else 0
      let vb := if b then tmOf s 1 n else 0
      if a || b then
        fabric n false (if s.gorse.voteA then va else 0) (if s.gorse.voteB then vb else 0) (notified s n) none s2
      else s2

def execCSourceFiltered (src : Fin 256) (a b : Bool) (s : State) : Host.Outcome State Fault Refusal :=
  .next (doCSourceFiltered src a b s)

/-- Row 93: replay and CRC checks are done (R216). -/
def doXchkReplayDone (aFails bFails : Bool) (s : State) : State :=
  match s.gorse.mismatch with
  | none => s
  | some (va, vb) =>
    let s1 := modGorse (fun g => { g with mismatch := none }) s
    if aFails || bFails then
      let s2 := if aFails then withdraw 0 s1 else s1
      if bFails then withdraw 1 s2 else s2
    else
      let d := va ^^^ vb
      let a := if va &&& d = 0 then true else if vb &&& d = 0 then false else Config.xchkOther va vb
      gorseStick 3 (withdraw (if a then 0 else 1) s1)

def execXchkReplayDone (aFails bFails : Bool) (s : State) : Host.Outcome State Fault Refusal :=
  .next (doXchkReplayDone aFails bFails s)

/-- Row 94: the background self-test of a channel ends (R66, R216, R218, R363). A failed one takes the tile to TILE-FAULT, whose
response withdraws the channel (R47). -/
def doGorseSelftest (chB pass : Bool) (delayPs : Nat) (s : State) : State :=
  let ch := b2n chB
  let s1 := histFeed 9 ch delayPs (modGorse (fun g => if chB then { g with testB := pass } else { g with testA := pass }) s)
  if !pass then (if (tile s (16 + ch)).active.isSome then tileFault (16 + ch) s1 else withdraw ch s1)
  else if (if chB then s.gorse.joinB else s.gorse.joinA) && tileLive s (16 + ch) && !tileFaulted s (16 + ch) then vote ch s1
  else s1

def execGorseSelftest (chB pass : Bool) (delayPs : Nat) (s : State) : Host.Outcome State Fault Refusal :=
  .next (doGorseSelftest chB pass delayPs s)

/-- Row 95: the single-channel timer reaches SC_LIMIT (R217). -/
def doSingleChLimit (s : State) : State := if scRuns s then bRise 192 s else s

def execSingleChLimit (s : State) : Host.Outcome State Fault Refusal := .next (doSingleChLimit s)

/-! Requests. -/

/-- Row 96: HOST_TRIP. -/
def doHostTrip (v : Word) (s : State) : State := if v = wd 0x5452 then bAssert 185 none s else s

def execHostTrip (v : Word) (s : State) : Host.Outcome State Fault Refusal := .next (doHostTrip v (hostAccess s))

/-- Row 97: HOST_SAFE_STOP (R35, R220). -/
def doHostSafeStop (v : Word) (s : State) : State := if v = wd 0x5353 then bAssert 186 none s else s

def execHostSafeStop (v : Word) (s : State) : Host.Outcome State Fault Refusal := .next (doHostSafeStop v (hostAccess s))

/-- Row 98: SAFE_STOP of the service block (R35, R220). Every write of it raises SVC_ACTION (R342, log entry 33). -/
def doSafeStop (v : Word) (s : State) : State := irq 7 (if v = wd 0x5353 then bAssert 187 none s else s)

def execSafeStop (v : Word) (s : State) : Host.Outcome State Fault Refusal := .next (svcCommand (doSafeStop v) s)

/-! The safe-stop sequence (R402, R403). -/

/-- Row 99: the step at the head acts at the boundary that has come. -/
def doSsStep (s : State) : State :=
  let g := s.gorse
  if g.ssRunning && g.ssReady && !g.ssWaiting then
    let s1 := modGorse (fun q => { q with ssArmed := false, ssReady := false }) s
    match g.ssSteps with
    | [] => s
    | .ramp cg slots us :: _ =>
      let r : Ramp := { slots := slots, b0 := (group s cg).bAt, len := 400 * us }
      rampDone (modGorse (fun q => { q with ramps := q.ramps ++ [r], ssWaiting := true }) s1)
    | .disable _ m :: _ => ssPop (modMod (fun q => { q with en := q.en &&& (0xFFFF ^^^ (m &&& 0xFFFF)) }) s1)
    | .wait _ _ :: _ => modGorse (fun q => { q with ssWaiting := true }) s1
  else s

def execSsStep (s : State) : Host.Outcome State Fault Refusal := .next (doSsStep s)

/-- Row 100: a WAIT step ends. -/
def doSsWaitEnd (s : State) : State :=
  match s.gorse.ssWaiting, s.gorse.ssSteps with
  | true, .wait _ _ :: _ => ssPop s
  | _, _ => s

def execSsWaitEnd (s : State) : Host.Outcome State Fault Refusal := .next (doSsWaitEnd s)

/-- Row 101: SS_MAX has passed (R220). -/
def doSafeStopTimeout (s : State) : State := if s.gorse.ssRunning then bAssert 197 none s else s

def execSafeStopTimeout (s : State) : Host.Outcome State Fault Refusal := .next (doSafeStopTimeout s)

/-- Row 102: a debug halt (R182, R210). -/
def doDebugHalt (s : State) : State := bRise 194 (safeRow 194 false s)

def execDebugHalt (s : State) : Host.Outcome State Fault Refusal := .next (doDebugHalt s)

/-! EN (R222 to R224). -/

/-- Row 103: filtered EN falls (R222, R390). -/
def doEnFall (s : State) : State :=
  if s.gorse.en then bRise 182 (wake 3 0 (modGorse (fun g => { g with en := false, enFallAt := s.tick }) s)) else s

def execEnFall (s : State) : Host.Outcome State Fault Refusal := .next (doEnFall s)

/-- A withdrawn channel may vote again at the edge (R218). -/
def mayRevote (s : State) (ch : Nat) (crc : Bool) : Bool :=
  !votes s ch && tileLive s (16 + ch) && (tile s (16 + ch)).st == .activeOnly
    && (if ch = 0 then s.gorse.testA else s.gorse.testB) && crc && tileLive s (17 - ch) && auxTag s 0 == auxTag s 1

/-- R218 at a qualifying edge. -/
def revote (x : EnLive) (s : State) : State :=
  let a := mayRevote s 0 x.crcA
  let b := mayRevote s 1 x.crcB
  let s1 := if a then vote 0 s else s
  if b then vote 1 s1 else s1

/-- Neighbours that sent K28.6 have reported EN_LOW within the 10 µs before the edge (R158). -/
def wzGone (s : State) : Bool :=
  [36, 37].all (fun l =>
    let x := link s l
    !x.wzTripSeen || (match x.wzEnLowAt with | some t => decide (s.tick - t ≤ 4000) | none => false))

/-- A latched cause counts as gone at a qualifying edge (R223). -/
def causeGone (s : State) (x : EnLive) (n : Nat) : Bool :=
  if n < 12 then x.dsatClear.getLsbD n
  else if 36 ≤ n ∧ n < 72 then (let y := link s (n - 36); y.lastIdle && !y.lastFaultFlag)
  else if 108 ≤ n ∧ n < 144 then (let y := link s (n - 108); y.lastIdle && !y.lastFaultFlag)
  else if 144 ≤ n ∧ n < 160 then decide ((munit s (n - 144)).lateRun < 3)
  else if 160 ≤ n ∧ n < 180 then (tile s (n - 160)).st != .tileFault
  else if n = 180 then x.clkGood
  else if n = 182 ∨ n = 185 ∨ n = 186 ∨ n = 187 ∨ n = 197 then true
  else if n = 183 then !s.host.hostExpired
  else if n = 184 then !s.host.svcExpired
  else if n = 188 ∨ n = 189 then wzGone s
  else if n = 190 ∨ n = 191 then (let y := link s (n - 154); y.st == .linked && y.upLock)
  else if n = 192 ∨ n = 193 then bothVote s
  else if n = 194 then x.haltEnded
  else if n = 198 then !s.gorse.brk
  else !srcLive s n

/-- The causes of the mask clear: FAULT_LATCH drops them, and their records show CLEARED, of whichever trip event (R222,
R236). -/
def clearCauses (m : Nat) (s : State) : State :=
  let rs := (List.range 32).filter (fun r => s.gorse.recUsed.testBit r && m.testBit (fld (recWord s r 0) 16 8))
  let s1 := forEach rs (fun r s => modGorse (fun g => { g with
    recs := tset dZeroW g.recs (8 * r + 7) (recWord s r 7 ||| wd (2 ^ 16)) }) s) s
  let s2 := modGorse (fun g => { g with latch := g.latch - (g.latch &&& m) }) s1
  forEach [36, 37] (fun l s =>
    if m.testBit (152 + l) then modLink l (fun x => { x with wzTripSeen := false }) s else s) s2

/-- The levels whose end is known at an EN edge: CLK_MON and DEBUG_HALT (R207, R223). -/
def liveEnds (x : EnLive) (s : State) : State :=
  onlyIf x.haltEnded (setLive 194 false) (onlyIf x.clkGood (setLive 180 false) s)

/-- The clockless latch lets go of the causes that are gone (R224). -/
def asyncRelease (s : State) : State :=
  modMod (fun q =>
    let rest := q.asyncBy.filter (fun n =>
      if 164 ≤ n ∧ n < 168 then (tile s (n - 160)).st != .activeOnly else decide (n < 256) && s.gorse.latch.testBit n)
    { q with asyncBy := rest, asyncSafe := !rest.isEmpty, edgeLow := q.edgeLow && rest.contains 180 }) s

/-- A qualifying edge: R218, the causes, the latch of R183, and RUN where none remains (R34, R222, R224). -/
def enQualify (x : EnLive) (s : State) : State :=
  let s1 := revote x s
  let m := maskOf 256 (fun n => s1.gorse.latch.testBit n && causeGone s1 x n)
  let s2 := asyncRelease (clearCauses m s1)
  let s3 := forEach (List.range 12) (fun p s =>
    if x.dsatClear.getLsbD p && (pair s p).dsatPin then modPair p (fun y => { y with dsatPin := false }) s else s) s2
  let s4 := modGorse (fun g => { g with eventOpen := false }) s3
  if s4.gorse.latch = 0 ∧ (s4.dev = .tripped ∨ s4.dev = .safeStop) then enterRun s4 else s4

/-- Row 104: filtered EN rises (R157, R222). -/
def doEnRise (x : EnLive) (s : State) : State :=
  if s.gorse.en then s
  else
    let s1 := liveEnds x (setLive 182 false (modGorse (fun g => { g with en := true, enRiseAt := some s.tick }) s))
    if s.tick - s.gorse.enFallAt < 4000 then gorseStick 4 s1 else enQualify x s1

def execEnRise (live : EnLive) (s : State) : Host.Outcome State Fault Refusal := .next (doEnRise live s)

/-! The brake chopper (R229, R230). -/

/-- Row 105: CMPIN0, or the converter assigned, is above BRK_ON. -/
def doBrkTurnOn (s : State) : State :=
  if brkEn s && !s.power.inReset then modGorse (fun g => { g with brk := true }) s else s

def execBrkTurnOn (s : State) : Host.Outcome State Fault Refusal := .next (doBrkTurnOn s)

/-- A change of the brake's settings takes effect, with WC16's part in it (R259). -/
def brkApply (f : State → State) (s : State) : State := wcChanged 16 (wcEnabled s 16) (f s)

/-- Row 106: the voltage is below BRK_OFF: BRK goes low, and settings written meanwhile take effect. -/
def doBrkTurnOff (s : State) : State :=
  let g := s.gorse
  if g.brk then
    let s1 := setLive 198 false (modGorse (fun g => { g with brk := false, brkCfgPend := none, brkThrPend := none }) s)
    brkApply (fun s =>
      let s' := match g.brkCfgPend with | some v => wr aBrkCfg v s | none => s
      match g.brkThrPend with | some v => wr aBrkThr v s' | none => s') s1
  else s

def execBrkTurnOff (s : State) : Host.Outcome State Fault Refusal := .next (doBrkTurnOff s)

/-- A host write of BRK_CFG, not locked: one that clears BRK_EN while BRK is high waits. -/
def brkCfgWrite (v : Word) (s : State) : State :=
  if s.gorse.brk && !bit v 0 then modGorse (fun g => { g with brkCfgPend := some v }) s
  else brkApply (wr aBrkCfg v) (modGorse (fun g => { g with brkCfgPend := none }) s)

/-- A host write of BRK_THR, not locked: one that changes it while BRK is high waits. -/
def brkThrWrite (v : Word) (s : State) : State :=
  if s.gorse.brk && v != rd s aBrkThr then modGorse (fun g => { g with brkThrPend := some v }) s
  else brkApply (wr aBrkThr v) (modGorse (fun g => { g with brkThrPend := none }) s)

/-- Row 107: BRK has been on for longer than BRK_MAX_ON. -/
def doBrkOvertime (s : State) : State := if s.gorse.brk then setLive 198 true s else s

def execBrkOvertime (s : State) : Host.Outcome State Fault Refusal := .next (doBrkOvertime s)

/-! Off-state diagnostics (R231). -/

def diagClear (s : State) (i : Nat) : Bool := bit (param s i 0) 16
def diagPairs (s : State) (i : Nat) : Nat := if diagClear s i then 0 else fld (param s i 0) 0 12
def diagLinks (s : State) (i : Nat) : Nat := (param s i 1).toNat + 2 ^ 32 * fld (param s i 2) 0 4

/-- OFFSTATE_DIAG starts in slot i. -/
def diagStart (i : Nat) (s : State) : State :=
  let ref := maskOf 12 (fun p => (diagPairs s i).testBit p && pairInService s p)
  let s1 := if diagClear s i then s else wr aDiagPairRef (wd ref) s
  let lref := (bitsOf 36 (diagLinks s i)).filter (linkInService s)
  let s2 := if ref = 0 ∧ lref.isEmpty = true then s1 else gorseStick 5 s1
  forEach (bitsOf 36 (diagLinks s i)) (fun l s =>
    if lref.contains l then modLink l (fun x => { x with diagRpt := wd (0xFE * 2 ^ 24), diagWait := false }) s
    else
      let s' := modLink l (fun x => { x with diagWait := true }) s
      if (link s l).st = .linked ∧ (link s l).dck = true then
        dispatch l 0 [.diag (if diagClear s i then 2 else 1) i] s'
      else s') s2

/-- Row 108: the last link has answered or 10 ms have passed; pairRes holds two bits per pair. -/
def doOffstateDiagDone (pairRes : Nat) (s : State) : State :=
  match runSlot s 0x05 with
  | none => s
  | some i =>
    let ref := fld (rd s aDiagPairRef) 0 12
    let named := diagPairs s i
    let tested := maskOf 12 (fun p => named.testBit p && !ref.testBit p)
    let cur := (rd s aDiagPairRes).toNat
    let two := fun p => if !named.testBit p then natFld cur (2 * p) 2 else if ref.testBit p then 0 else natFld pairRes (2 * p) 2
    let all := (List.range 12).foldl (fun a p => a + two p * 4 ^ p) 0
    let s1 := if diagClear s i then s else wr aDiagPairRes (wd all) s
    let ans := maskOf 36 (fun l => (diagLinks s i).testBit l && !(link s l).diagWait && fld (link s l).diagRpt 24 8 != 0xFE)
    let s2 := forEach (bitsOf 36 (diagLinks s i)) (fun l s =>
      if (link s l).diagWait then modLink l (fun x => { x with diagWait := false, diagRpt := wd (0xFF * 2 ^ 24) }) s else s) s1
    endSlot i .completed [0, wd tested, wd ans, wd (ans / 2 ^ 32)] s2

def execOffstateDiagDone (pairRes : BitVec 24) (s : State) : Host.Outcome State Fault Refusal :=
  .next (doOffstateDiagDone pairRes.toNat s)

end Sys2Proof.Machine
end

