-- ==== Sys2Proof/Machine/Thermal.lean ====
section
/-! DEFINITION. HIST_CAPTURE's start, stop and end (R364 to R366, row 177), the thermal channels and on-die sensors with
their limits and the throttle factor (R367 to R372, rows 178, 179), the quadrant rails (R384, row 182). -/

namespace Sys2Proof.Machine

open Sys2Proof

/-! Histogram captures. -/

/-- HIST_CAPTURE of slot i starts (R365). -/
def histStart (i : Nat) (s : State) : State :=
  let es := histEngines s i
  let clear := bit (param s i 4) 0
  let bound := (param s i 2).toNat
  if es.isEmpty then failSlot i 0x60 0xFF s
  else match es.find? (fun e => fld (rd s (aHg e 0)) 0 4 == 0) with
    | some e => failSlot i 0x60 e s
    | none =>
      if bound = 0 ∧ param s i 3 = 0 then failSlot i 0x61 0 s
      else forEach es (fun e s => modHist e (fun h =>
        let h1 := if clear then {} else h
        { h1 with accepting := decide (bound = 0 ∨ h1.count < bound), final := false, got := false }) s)
        (modTherm (fun t => { t with histTicks := 0, histAt := s.tick }) s)

/-- The engines of slot i stop accepting: a suspension or a cancel (R366). -/
def histStop (i : Nat) (s : State) : State :=
  forEach (histEngines s i) (fun e s => modHist e (fun h => { h with accepting := false }) s)
    (modTherm (fun t => { t with histTicks := t.histTicks + (s.tick - t.histAt) }) s)

/-- Acceptance restarts after a suspension, but in engines that have reached the count bound (R365, R366). -/
def histResume (i : Nat) (s : State) : State :=
  let bound := (param s i 2).toNat
  forEach (histEngines s i) (fun e s =>
    modHist e (fun h => { h with accepting := decide (bound = 0 ∨ h.count < bound) }) s)
    (modTherm (fun t => { t with histAt := s.tick }) s)

/-- Running time of a capture that runs, in ticks. -/
def histRun (s : State) : Nat := s.therm.histTicks + (s.tick - s.therm.histAt)

/-- Row 177: every named engine has stopped, or TIME_US of running time have passed (R365, R366). -/
def doHistCaptureEnd (s : State) : State :=
  match runSlot s 0x07 with
  | none => s
  | some i =>
    let es := histEngines s i
    let time := (param s i 3).toNat
    let stopped := es.all (fun e => !(hist s e).accepting)
    if (slot s i).st = .running ∧ (stopped = true ∨ (0 < time ∧ 400 * time ≤ histRun s)) then
      let got := maskOf 64 (fun e => es.contains e && (hist s e).got)
      let s1 := forEach es (fun e s => modHist e (fun h => { h with accepting := false, final := true }) s) s
      endSlot i .completed [0, wd got, wd (got / 2 ^ 32), wd (min (freeDiv 365 (histRun s : Int) 400).toNat 0xFFFFFFFF)] s1
    else s

def execHistCaptureEnd (s : State) : Host.Outcome State Fault Refusal := .next (doHistCaptureEnd s)

/-- A HIST_CAPTURE that names engine e is QUEUED, RUNNING or SUSPENDED (R364). -/
def histNamed (s : State) (e : Nat) : Bool :=
  (List.range 16).any (fun i => (slot s i).op == 0x07 && isBusy (slot s i).st && (histEngines s i).contains e)

/-! Thermal channels (R367, R368). -/

/-- The table of channel n: entries up to the first of resistance 0, resistance and temperature. -/
def tsTableFrom (s : State) (n : Nat) : Nat → Nat → List (Nat × Int)
  | 0, _ => []
  | k + 1, j =>
    let r := (rd s (aTsTbl n j 0)).toNat
    if r = 0 then [] else (r, sgn 16 (fld (rd s (aTsTbl n j 4)) 0 16)) :: tsTableFrom s n k (j + 1)
def tsTable (s : State) (n : Nat) : List (Nat × Int) := tsTableFrom s n 16 0

/-! Natural logarithms, in units of 2^-80: ln(n / d) = k ln 2 + 2 atanh(z), where 2^k brings the quotient between 1/2 and 2 and
so z = (n − d) / (n + d) within 1/3; 28 terms of the series reach the unit. -/

/-- The terms z^(2i+1) / (2i+1) from i on; p is the power in hand, zz the square of z. -/
def atanhTerms (zz : Int) : Nat → Nat → Int → Int
  | 0, _, _ => 0
  | n + 1, i, p => p / (2 * i + 1 : Nat) + atanhTerms zz n (i + 1) (p * zz / 2 ^ 80)

/-- 2 atanh((n − d) / (n + d)). -/
def lnNear (n d : Nat) : Int :=
  let z := ((n : Int) - d) * 2 ^ 80 / (n + d : Nat)
  2 * atanhTerms (z * z / 2 ^ 80) 28 0 z

def ln2 : Int := lnNear 2 1

/-- ln(n / d) for n and d above 0. -/
def lnOf (n d : Nat) : Int :=
  let a := n.log2
  let b := d.log2
  ((a : Int) - b) * ln2 + lnNear (n * 2 ^ b) (d * 2 ^ a)

/-- A rational number in 0.0625 °C as a reading; its rounding is not stated. -/
def readingOf (site : Nat) (x : Rat) : Int := freeDiv site x.num x.den

/-- Kelvin to 0.0625 °C. -/
def fromKelvin (k : Rat) : Rat := 16 * (k - 27315 / 100)

/-- The diode reading before TS_OFS (R368): NF in UQ2.14, d3 is ΔVc in thirds of a nV, q / k in V and K. -/
def diodeTemp (nf : Nat) (d3 : Int) : Int :=
  let qk : Rat := 16021766340 / 1380649
  readingOf 369 (fromKelvin (qk * d3 / 3000000000 / ((nf : Rat) / 16384) / ((2 * ln2 : Int) / (2 ^ 80 : Rat))))

/-- The β-model reading before TS_OFS (R368) of a resistance v / i ohm; T0 in 0.0625 °C. -/
def betaTemp (v i r0 beta : Nat) (t0 : Int) : Int :=
  let inv : Rat := 1 / ((t0 : Rat) / 16 + 27315 / 100) + (lnOf v (r0 * i) : Rat) / 2 ^ 80 / beta
  if inv = 0 then Config.betaPole v i r0 beta t0.toNat else readingOf 370 (fromKelvin (1 / inv))

/-- The table reading between two entries before TS_OFS: linear in the logarithm of the resistance (R368). -/
def tableTemp (v i r1 r2 : Nat) (t1 t2 : Int) : Int :=
  readingOf 371 (t1 + (t2 - t1 : Rat) * lnOf (r1 * i) v / lnOf r1 r2)

/-- A reading with its offset, which stays within 16 bits as far as the spec states it (R367). -/
def withOffset (t ofs : Int) : Int :=
  let v := t + ofs
  if -32768 ≤ v ∧ v ≤ 32767 then v else (Config.tempOver v).toInt

/-- Interpolation between the two entries around R = v / i: the exact temperature at an entry, and beyond the last
one the last. -/
def tsLookup (v i : Nat) : List (Nat × Int) → Int
  | [] => 0
  | [p] => p.2
  | p :: q :: l =>
    if p.1 * i ≤ v then p.2
    else if q.1 * i < v then tableTemp v i p.1 q.1 p.2 q.2
    else tsLookup v i (q :: l)

/-- The bias current of a thermistor in nA: 10 µA, 100 µA or 1 mA. -/
def tsBias (s : State) (n : Nat) : Nat := 10 ^ (4 + fld (rd s (aTs n 0)) 2 2)

/-- The input is open (R367). -/
def tsOpen (mode : Nat) (x : TsInput) : Bool := decide ((if mode = 1 then 1000000000 else 1150000000) < x.v1)

/-- The input is short (R367). -/
def tsShort (mode : Nat) (x : TsInput) : Bool := decide (x.v1 < (if mode = 1 then 150000000 else 1000000))

/-- One measurement in the channel's mode: reading before TS_OFS, if it is defined; RANGE; TS_RAW. The resistance of a
thermistor is V / I_B (R367). -/
def tsMeasure (s : State) (n : Nat) (x : TsInput) : Option Int × Bool × Word :=
  let i := tsBias s n
  let raw := wd (freeDiv 367 x.v1 i).toNat
  match fld (rd s (aTs n 0)) 0 2 with
  | 1 =>
    let dv12 : Int := (x.v4 : Int) - x.v1
    let dv23 : Int := (x.v16 : Int) - x.v4
    let d3 : Int := 4 * dv12 - dv23
    (some (diodeTemp (fld (rd s (aTs n 0x18)) 0 16) d3), false, wdI (freeDiv 368 d3 3000))
  | 2 =>
    let r0 := (rd s (aTs n 0x20)).toNat
    let b := rd s (aTs n 0x1C)
    (some (betaTemp x.v1 i r0 (fld b 0 16) (sgn 16 (fld b 16 16))), false, raw)
  | _ =>
    let t := tsTable s n
    let first := (rd s (aTsTbl n 0 0)).toNat
    let second := (rd s (aTsTbl n 1 0)).toNat
    let last := (t.getLast?.map (·.1)).getD 0
    if second < first then (some (tsLookup x.v1 i t), decide (first * i < x.v1 ∨ x.v1 < last * i), raw)
    else (none, false, raw)

/-- Over-limit with the release 1 °C below the level (R370). -/
def overLevel (was : Bool) (reading level : Int) : Bool := decide (level < reading) || (was && decide (level - 16 ≤ reading))

/-- F of TS_THRn as a factor (R371). -/
def thrFloor (c : Word) : Nat := (divRound (32768 * (fld c 16 16 : Int)) 10000).toNat

/-- The contribution of a channel with THR_EN = 1 (R371). -/
def thrContrib (c : Word) (knee t : Int) (valid : Bool) : Nat :=
  if !valid then thrFloor c
  else if t ≤ knee then 32768
  else max (divRound (32768 * (160000 - (fld c 0 16 : Int) * (t - knee))) 160000).toNat (thrFloor c)

/-- f and the channel that sets it, from the contributions (R371). -/
def thrMin (s : State) : Nat × Nat :=
  (List.range 8).foldl (fun a n => match (chan s n).contrib with
    | some v => if v < a.1 then (v, n) else a
    | none => a) (32768, 0)

/-- f is recomputed after the conversion (R372). -/
def throttle (s : State) : State :=
  let m := thrMin s
  let was := s.therm.f
  let s1 := modTherm (fun t => { t with f := m.1, limiting := m.2 }) s
  if m.1 < 32768 ∧ 32768 ≤ was then thermStick 2 s1 else s1

/-- The over-limit source of channel n after its conversion (R370). -/
def tsOver (n : Nat) (s : State) : State :=
  let c := rd s (aTs n 0)
  let x := chan s n
  let level := sgn 16 (fld (rd s (aTs n 0x0C)) 0 16)
  let on := bit c 4 && (if x.valid then overLevel x.overLim x.temp level else bit c 5 || x.overLim)
  let s1 := modChan n (fun x => { x with overLim := on }) s
  if on && !x.overLim then thermStick 1 s1 else s1

/-- Row 178: channel n converts (R367, R368). A channel in MODE 0 measures nothing, and its settings take effect. -/
def doTsConversion (n : Nat) (x : TsInput) (s : State) : State :=
  let c := rd s (aTs n 0)
  let mode := fld c 0 2
  let s1 :=
    if mode = 0 then s
    else
      let m := tsMeasure s n x
      let ofs := sgn 16 (fld (rd s (aTs n 8)) 0 16)
      match (if tsOpen mode x || tsShort mode x then none else m.1) with
      | some t =>
        let v := withOffset t ofs
        histFeed 10 n v (modChan n (fun q => { q with temp := v, valid := true, isOpen := false, short := false,
                                                      range := m.2.1, raw := m.2.2 }) s)
      | none =>
        thermStick 0 (modChan n (fun q => { q with valid := false, isOpen := m.1.isSome && tsOpen mode x
                                                   short := m.1.isSome && tsShort mode x
                                                   range := false, raw := m.2.2 }) s)
  let s2 := tsOver n s1
  let q := chan s2 n
  let contrib := if bit c 6 then some (thrContrib (rd s (aTs n 0x14)) (sgn 16 (fld (rd s (aTs n 0x10)) 0 16)) q.temp q.valid)
    else none
  throttle (modChan n (fun q => { q with contrib := contrib }) s2)

def execTsConversion (n : Fin 8) (x : TsInput) (s : State) : Host.Outcome State Fault Refusal := .next (doTsConversion n x s)

/-! On-die sensors (R367, R370, R384). -/

/-- Two on-die sensors that have given a reading differ by more than 25 °C (R384). -/
def dieSpread (s : State) : Bool :=
  let l := (bitsOf 4 s.therm.dieValid).map (tget dZeroI s.therm.die)
  l.any (fun a => l.any (fun b => decide (b + 400 < a)))

/-- QUAD_T_SPREAD (R384). -/
def spreadT (s : State) : State :=
  let on := dieSpread s
  let s1 := modPower (fun p => { p with tSpread := on }) s
  if on then pwrFlag 1 s1 else s1

/-- Row 179: on-die sensor d gives a reading. -/
def doDieSensorConversion (d reading : Nat) (s : State) : State :=
  let t := sgn 16 (reading % 65536)
  let was := s.therm.dieOver.testBit d
  let on := overLevel was t (sgn 16 (fld (rd s (aDieTrip d)) 0 16))
  let s1 := modTherm (fun h => { h with
    die := tset dZeroI h.die d t, dieValid := h.dieValid ||| 2 ^ d
    dieOver := if on == was then h.dieOver else h.dieOver ^^^ 2 ^ d }) s
  let s2 := if on && !was then thermStick 1 s1 else s1
  spreadT (histFeed 10 (8 + d) t s2)

def execDieSensorConversion (d : Fin 4) (reading : BitVec 16) (s : State) : Host.Outcome State Fault Refusal :=
  .next (doDieSensorConversion d reading.toNat s)

/-- Row 182: the quadrant rails, in mV (R384). -/
def doQuadRailMeasure (mv : List Nat) (s : State) : State :=
  let l := mv.take 4
  let on := l.any (fun a => l.any (fun b => decide (b + 24 < a)))
  let s1 := modPower (fun p => { p with vSpread := on }) s
  spreadT (if on then pwrFlag 0 s1 else s1)

def execQuadRailMeasure (mv : List Nat) (s : State) : Host.Outcome State Fault Refusal := .next (doQuadRailMeasure mv s)

end Sys2Proof.Machine
end

