-- ==== Sys2Proof/Machine/Opq.lean ====
section
/-! DEFINITION. The operation queue (R349 to R356): submissions (rows 13 to 23), starts (row 24), suspension, resumption
and cancel (rows 26 to 30), the end of MRAM_SCRUB (row 195). -/

namespace Sys2Proof.Machine

open Sys2Proof

/-! Submission (R350). -/

/-- Parameter n of operation op as clamped at submission (R347, R356; the parameter table of chapter 2). -/
def clampParam (s : State) (op n : Nat) (ps : List Word) : Word :=
  let v := ps.getD n 0
  match op, n with
  | 1, 0 => v &&& 0xFFFF
  | 2, 0 => wd (min v.toNat (s.damask.stagingMib * 2 ^ 20 - 1024) / 256 * 256)
  | 2, 1 => v &&& 0xFFFFF
  | 2, 2 => v &&& 1
  | 3, 0 => v &&& 0xFFFFF
  | 3, 1 => v &&& 3
  | 3, 2 => if fld v 0 16 = 0 then putFld v 0 16 1 else v
  | 3, 3 => wd (max v.toNat (max 1 (fld (ps.getD 2 0) 0 16)))
  | 4, 1 => v &&& 0x3F
  | 5, 0 => v &&& 0x10FFF
  | 5, 2 => v &&& 0xF
  | 6, 0 => v &&& 0xFFFFFF
  | 7, 4 => v &&& 1
  | 8, 0 => v &&& 7
  | 9, 0 => v &&& 0x107
  | 9, 1 => v &&& 0xFFFF
  | 10, 0 => v &&& 0xF
  | _, _ => v

/-- A field of the parameter lay outside its range. -/
def paramClamped (op n : Nat) (old new : Word) : Bool := (op == 2 && n == 0 || op == 3 && (n == 2 || n == 3)) && old != new

/-- A write of PARAMi_n. -/
def paramWrite (i n : Nat) (v : Word) (s : State) : State :=
  if isBusy (slot s i).st then opqFlag 0 s else wr (aParam i n) v s

/-- A write of OP_CMDi (R349, R350). -/
def opSubmit (i op : Nat) (s : State) : State :=
  if isBusy (slot s i).st then opqFlag 0 s
  else
    let raw := (List.range 8).map (fun n => rd s (aParam i n))
    let ps := (List.range 8).map (fun n => clampParam s op n raw)
    let s1 := forEach (List.range 8) (fun n s => wr (aParam i n) (ps.getD n 0) s) s
    let s2 := if (List.range 8).any (fun n => paramClamped op n (raw.getD n 0) (ps.getD n 0)) then
        noteClamp false (0x30120 + 0x40 * i) s1 else s1
    let s3 := modHost (fun h => { h with nextOrder := h.nextOrder + 1 }) s2
    let s4 := modSlot i (fun x => {
      st := .queued, gen := if x.gen < 4095 then x.gen + 1 else 1, op := op, ps := ps, order := s2.host.nextOrder }) s3
    if 1 ≤ op ∧ op ≤ 10 then s4 else failSlot i 0xE0 0 s4

/-- The host writes the parameters of an operation and its op code. -/
def opWrite (i op : Nat) (ps : List Word) (s : State) : State :=
  opSubmit i op (ps.zipIdx.foldl (fun s p => paramWrite i p.2 p.1 s) s)

def doSelfCal (i : Nat) (p0 : Word) (s : State) : State := opWrite i 1 [p0] s
def doTileLoad (i : Nat) (p0 p1 p2 : Word) (s : State) : State := opWrite i 2 [p0, p1, p2] s
def doTileSwap (i : Nat) (p0 p1 p2 p3 : Word) (s : State) : State := opWrite i 3 [p0, p1, p2, p3] s
def doLinkTrain (i : Nat) (p0 p1 : Word) (s : State) : State := opWrite i 4 [p0, p1] s
def doOffstateDiag (i : Nat) (p0 p1 p2 : Word) (s : State) : State := opWrite i 5 [p0, p1, p2] s
def doCmpSelftest (i : Nat) (p0 : Word) (s : State) : State := opWrite i 6 [p0] s
def doHistCapture (i : Nat) (p0 p1 p2 p3 p4 : Word) (s : State) : State := opWrite i 7 [p0, p1, p2, p3, p4] s
def doWaveDump (i : Nat) (p0 p1 : Word) (s : State) : State := opWrite i 8 [p0, p1] s
def doTwLocate (i : Nat) (p0 p1 : Word) (s : State) : State := opWrite i 9 [p0, p1] s
def doMramScrub (i : Nat) (p0 : Word) (s : State) : State := opWrite i 10 [p0] s
/-- Row 23: an OP_CMD write whose op code the op table does not list; one it lists is that operation's submission. -/
def doBadOpcode (i op : Nat) (s : State) : State := opSubmit i op s

/-- Row 13. -/
def execSelfCal (i : SlotNo) (p0 : Word) (s : State) : Host.Outcome State Fault Refusal := .next (doSelfCal i p0 (hostAccess s))
/-- Row 14. -/
def execTileLoad (i : SlotNo) (p0 p1 p2 : Word) (s : State) : Host.Outcome State Fault Refusal :=
  .next (doTileLoad i p0 p1 p2 (hostAccess s))
/-- Row 15. -/
def execTileSwap (i : SlotNo) (p0 p1 p2 p3 : Word) (s : State) : Host.Outcome State Fault Refusal :=
  .next (doTileSwap i p0 p1 p2 p3 (hostAccess s))
/-- Row 16. -/
def execLinkTrain (i : SlotNo) (p0 p1 : Word) (s : State) : Host.Outcome State Fault Refusal := .next (doLinkTrain i p0 p1 (hostAccess s))
/-- Row 17. -/
def execOffstateDiag (i : SlotNo) (p0 p1 p2 : Word) (s : State) : Host.Outcome State Fault Refusal :=
  .next (doOffstateDiag i p0 p1 p2 (hostAccess s))
/-- Row 18. -/
def execCmpSelftest (i : SlotNo) (p0 : Word) (s : State) : Host.Outcome State Fault Refusal := .next (doCmpSelftest i p0 (hostAccess s))
/-- Row 19. -/
def execHistCapture (i : SlotNo) (p0 p1 p2 p3 p4 : Word) (s : State) : Host.Outcome State Fault Refusal :=
  .next (doHistCapture i p0 p1 p2 p3 p4 (hostAccess s))
/-- Row 20. -/
def execWaveDump (i : SlotNo) (p0 p1 : Word) (s : State) : Host.Outcome State Fault Refusal := .next (doWaveDump i p0 p1 (hostAccess s))
/-- Row 21. -/
def execTwLocate (i : SlotNo) (p0 p1 : Word) (s : State) : Host.Outcome State Fault Refusal := .next (doTwLocate i p0 p1 (hostAccess s))
/-- Row 22. -/
def execMramScrub (i : SlotNo) (p0 : Word) (s : State) : Host.Outcome State Fault Refusal := .next (doMramScrub i p0 (hostAccess s))
def execBadOpcode (i : SlotNo) (op : Byte) (s : State) : Host.Outcome State Fault Refusal := .next (doBadOpcode i op.toNat (hostAccess s))

/-! Starts (R352). -/

/-- The conflicting kinds. -/
def opConflict (a b : Nat) : Bool :=
  (a == 2 && b == 8) || (a == 8 && b == 2) || (a == 1 && b == 6) || (a == 6 && b == 1) || (a == 4 && b == 5) || (a == 5 && b == 4)

/-- A QUEUED slot that nothing holds back. -/
def opEligible (s : State) (i : Nat) : Bool :=
  let x := slot s i
  x.st == .queued && (List.range 16).all (fun j =>
    let y := slot s j
    j == i || (!(y.op == x.op && y.st == .queued && decide (y.order < x.order))
      && !(y.started && (y.st == .running || y.st == .suspended) && (y.op == x.op || opConflict x.op y.op))))

/-- Operations that need an image (R352). -/
def needsImage (op : Nat) : Bool := op == 3 || op == 5 || op == 8 || op == 9

/-- WAVE_DUMP starts (R298, R356). -/
def dumpStart (i : Nat) (s : State) : State :=
  let g := fld (param s i 0) 0 3
  let o := (param s i 1).toNat
  let cfg := wd (tget dZero s.meas.segCfg g)
  if !s.meas.recFrozen.testBit g then failSlot i 0x51 0 s
  else if s.damask.stagingMib * 2 ^ 20 < o + 64 + recSegBytes s cfg then failSlot i 0x50 0 s
  else s

/-- What the operation does at its start. -/
def opBegin (op i : Nat) (s : State) : State :=
  match op with
  | 1 => calStart i s
  | 2 => loadStart (some i) (param s i 0).toNat (fld (param s i 1) 0 20) (bit (param s i 2) 0) s
  | 3 => swapStart i s
  | 4 => linkTrainStart i s
  | 5 => diagStart i s
  | 6 => cmpTestStart i s
  | 7 => histStart i s
  | 8 => dumpStart i s
  | _ => s

/-- Row 24: an eligible operation starts. -/
def doOpStart (i : Nat) (s : State) : State :=
  if opEligible s i then
    let op := (slot s i).op
    if s.dev = .configWait ∧ needsImage op = true then failSlot i 0xE1 0 s
    else opBegin op i (modSlot i (fun x => { x with st := .running, started := true }) s)
  else s

def execOpStart (i : SlotNo) (s : State) : Host.Outcome State Fault Refusal := .next (doOpStart i s)

/-! Actions (R353, R354). -/

def suspendable (op : Nat) : Bool := op == 2 || op == 3 || op == 7 || op == 8 || op == 10

/-- The running operation of slot i has passed its arbitration point (R354, R356). The other operations reach theirs in
the step that completes them. -/
def opArbitrated (s : State) (i : Nat) : Bool :=
  match (slot s i).op with
  | 2 => (match s.damask.load with | some ld => ld.slot == some i && ld.todo.isEmpty | none => false)
  | 3 => (match s.damask.swap with | some w => w.slot == i && w.swapping | none => false)
  | 4 => trainAll s
  | _ => false

/-- What a cancel undoes of a started operation. -/
def opUndo (op i : Nat) (s : State) : State :=
  match op with
  | 1 => calAbandon s
  | 2 => undoLoad s
  | 3 => modDamask (fun d => { d with swap := none }) s
  | 4 => trainCancel s
  | 5 => forEach (bitsOf 36 (diagLinks s i)) (fun l s =>
      if (link s l).diagWait then modLink l (fun x => { x with diagWait := false }) s else s) s
  | 6 => modConv (fun q => { q with stTested := 0, stRefused := 0 }) s
  | 7 => histStop i s
  | _ => s

/-- The results of an operation that a cancel ends: a TILE_SWAP's counts. -/
def cancelResults (s : State) (i : Nat) : List Word :=
  match (slot s i).op, s.damask.swap with
  | 3, some w => if w.slot = i then [0, wd w.count, wd w.bad, 0] else [0, 0, 0, 0]
  | _, _ => [0, 0, 0, 0]

/-- CANCEL_LATE; CANCEL_SVC tells where the first such cancel came from. -/
def cancelLate (i : Nat) (svc : Bool) (s : State) : State :=
  modSlot i (fun x => if x.cancelLate then x
    else { x with cancelLate := true, cancelSvc := svc, cancelAt := some s.tick }) s

/-- A cancel of slot i whose handle matches. Beside a cancel that counted at this edge, the host's counts (R354). -/
def opCancel (i : Nat) (svc : Bool) (s : State) : State :=
  let x := slot s i
  if x.cancelAt = some s.tick then modSlot i (fun y => { y with cancelSvc := y.cancelSvc && svc }) s
  else match x.st with
  | .completed => cancelLate i svc s
  | .empty => opqFlag 2 s
  | .cancelled => opqFlag 2 s
  | .failed => opqFlag 2 s
  | _ =>
    if x.started && opArbitrated s i then cancelLate i svc s
    else
      let res := if x.started then cancelResults s i else [0, 0, 0, 0]
      let s1 := if x.started then opUndo x.op i s else s
      endSlot i .cancelled res (modSlot i (fun y => { y with cancelSvc := svc, cancelAt := some s.tick }) s1)

/-- An action whose handle matches its slot; otherwise STALE_HANDLE (R349). -/
def withHandle (h : Nat) (f : Nat → State → State) (s : State) : State :=
  if (slot s (h % 16)).gen = h / 16 then f (h % 16) s else opqFlag 1 s

/-- SUSPEND of slot i. -/
def opSuspend (i : Nat) (s : State) : State :=
  let x := slot s i
  if !suspendable x.op then opqFlag 2 s
  else match x.st with
    | .queued => suspendSlot i s
    | .running =>
      if x.op = 3 ∧ opArbitrated s i = true then opqFlag 2 s else modSlot i (fun y => { y with suspReq := true }) s
    | _ => opqFlag 2 s

/-- RESUME of slot i. -/
def opResume (i : Nat) (s : State) : State :=
  let x := slot s i
  match x.st with
  | .running =>
    if x.suspReq then
      (let s1 := modSlot i (fun y => { y with suspReq := false }) s
       if x.op = 2 then loadNext s1 else s1)
    else opqFlag 2 s
  | .suspended =>
    if !x.started then modSlot i (fun y => { y with st := .queued }) s
    else
      let s1 := modSlot i (fun y => { y with st := .running }) s
      (match x.op with
       | 2 => loadNext s1
       | 3 => swapResume s1
       | 7 => histResume i s1
       | _ => s1)
  | _ => opqFlag 2 s

/-- Row 26: OPQ_ACTION SUSPEND. -/
def doSuspend (h : Nat) (s : State) : State := withHandle h opSuspend s
def execSuspend (h : BitVec 16) (s : State) : Host.Outcome State Fault Refusal := .next (doSuspend h.toNat (hostAccess s))

/-- Row 27: OPQ_ACTION RESUME. -/
def doResume (h : Nat) (s : State) : State := withHandle h opResume s
def execResume (h : BitVec 16) (s : State) : Host.Outcome State Fault Refusal := .next (doResume h.toNat (hostAccess s))

/-- Row 28: OPQ_ACTION CANCEL. -/
def doCancel (h : Nat) (s : State) : State := withHandle h (fun i => opCancel i false) s
def execCancel (h : BitVec 16) (s : State) : Host.Outcome State Fault Refusal := .next (doCancel h.toNat (hostAccess s))

/-- A write of OPQ_ACTION (R360). -/
def opqAction (v : Word) (s : State) : State :=
  match fld v 16 2 with
  | 1 => doSuspend (fld v 0 16) s
  | 2 => doResume (fld v 0 16) s
  | 3 => doCancel (fld v 0 16) s
  | _ => s

/-- Row 29: SVC_OP_CANCEL (R354, R361). -/
def doSvcOpCancel (v : Word) (s : State) : State :=
  let h := fld v 0 16
  irq 7 (if (slot s (h % 16)).gen = h / 16 then opCancel (h % 16) true s else stick (aSvc 0x10) 1 none s)
def execSvcOpCancel (v : Word) (s : State) : Host.Outcome State Fault Refusal := .next (svcCommand (doSvcOpCancel v) s)

/-- The running operation of slot i stands at a suspension point (R356): a TILE_LOAD between two sections, a TILE_SWAP
outside SWAPPING, the others anywhere. -/
def opAtPoint (s : State) (i : Nat) : Bool :=
  match (slot s i).op with
  | 2 => (match s.damask.load with
    | some ld => (match ld.todo with | t :: _ => (tile s t).st != .loading | [] => false)
    | none => false)
  | 3 => !opArbitrated s i
  | op => suspendable op

/-- Row 30: SUSP_REQ acts. -/
def doOpSuspensionPoint (i : Nat) (s : State) : State :=
  let x := slot s i
  if x.st == .running && x.suspReq && opAtPoint s i then
    suspendSlot i (if x.op = 7 then histStop i s else s)
  else s
def execOpSuspensionPoint (i : SlotNo) (s : State) : Host.Outcome State Fault Refusal := .next (doOpSuspensionPoint i s)

/-- Records in the named areas whose CRC fails: meter records and user calibration slots whose write was cut (R253, R318,
R356). -/
def scrubBad (s : State) (areas : Word) : Nat :=
  (if bit areas 0 then (s.meter.recs.filter (fun p => !recValid p.2)).length else 0)
    + (if bit areas 2 then (s.conv.ucalSlots.filter (fun l => !l.isEmpty && !ucalValid l)).length else 0)

/-- Row 195: the scrub's result is written (R356); badCrc counts the records that upsets have spoilt. -/
def doMramScrubDone (corrected uncorrectable badCrc : Nat) (s : State) : State :=
  match runSlot s 0x0A with
  | none => s
  | some i =>
    if (slot s i).st = .running then endSlot i .completed [0, wd corrected, wd uncorrectable, wd (scrubBad s (param s i 0) + badCrc)] s else s
def execMramScrubDone (corrected uncorrectable badCrc : Nat) (s : State) : Host.Outcome State Fault Refusal :=
  .next (doMramScrubDone corrected uncorrectable badCrc s)

end Sys2Proof.Machine
end

