-- ==== Sys2Proof/Machine/NetTime.lean ====
section
/-! DEFINITION. Ethernet receive and launch queues (R44, R269 to R271, R280 to R283, R300), synchrophasors (R284 to R290),
travelling waves (R291 to R295): rows 129, 137 to 148, 166, 196, 197. -/

namespace Sys2Proof.Machine

open Sys2Proof

/-! Ports (R44, R300). -/

/-- The MAC address in force. -/
def macOf (s : State) (p : Nat) : Nat := if p = 0 then s.eth.mac0 else s.eth.mac1
/-- The port is enabled: PORT_EN with a non-zero address in force. -/
def portEnabled (s : State) (p : Nat) : Bool := bit (rd s (aEth p 0)) 0 && macOf s p != 0
def ptpIdMissing (s : State) : Bool := rd s aPtpIdLo == 0 && rd s aPtpIdHi == 0
def ptpOn (s : State) (p : Nat) : Bool := portEnabled s p && bit (rd s (aEth p 0)) 2 && !ptpIdMissing s
/-- LINK of the port. -/
def linkUp (s : State) (p : Nat) : Bool := portEnabled s p && (if p = 0 then s.eth.up0 else s.eth.up1)
/-- IDENTITY_MISSING of the port. -/
def ethIdMissing (s : State) (p : Nat) : Bool :=
  let c := rd s (aEth p 0)
  (bit c 0 && macOf s p == 0) || (bit c 2 && ptpIdMissing s)

/-- A port that lacks an identity sets the flag (R44). -/
def ethIdCheck (p : Nat) (s : State) : State := if ethIdMissing s p then timeStick 4 s else s

/-- Row 197: a write of ETH_CFG. -/
def doEthCfgWrite (p : Nat) (v : Word) (s : State) : State :=
  let a := aEth p 0
  ethIdCheck p (wr a (clampReg a v) (clampSeen a v s))

def execEthCfgWrite (p : Fin 2) (v : Word) (s : State) : Host.Outcome State Fault Refusal :=
  .next (doEthCfgWrite p v (hostAccess s))

/-- Row 166: a write of MAC_HI puts the address into force, unless the port is enabled and so locked. -/
def doMacHiWrite (p : Nat) (v : Word) (s : State) : State :=
  if portEnabled s p then s
  else
    let m := (rd s (aEth p 0x08)).toNat + 2 ^ 32 * fld v 0 16
    ethIdCheck p (modEth (fun e => if p = 0 then { e with mac0 := m } else { e with mac1 := m })
      (wr (aEth p 0x0C) (wd (fld v 0 16)) s))

def execMacHiWrite (p : Fin 2) (v : Word) (s : State) : Host.Outcome State Fault Refusal :=
  .next (doMacHiWrite p v (hostAccess s))

/-- Row 196: an Ethernet port's link goes up or down. -/
def doEthLinkChange (p : Nat) (up : Bool) (s : State) : State :=
  modEth (fun e => if p = 0 then { e with up0 := up } else { e with up1 := up }) s

def execEthLinkChange (p : Fin 2) (up : Bool) (s : State) : Host.Outcome State Fault Refusal :=
  .next (doEthLinkChange p up s)

/-! Stamps. -/

/-- Seconds and nanoseconds of the counter plus a latency in ps (R271). -/
def stampWith (s : State) (latPs : Int) : Nat × Nat :=
  let v := (freeDiv 271 (((s.time.sec * 1000000000 + s.time.ns : Nat) : Int) * 1000 * 65536 + (s.time.frac : Int) * 1000
    + latPs * 65536) 65536000).toNat
  (v / 1000000000 % 2 ^ 48, v % 1000000000)

/-! Reception (R271, R289, R294). -/

/-- Travelling-wave fronts, local and remote: the latest 256 (R294). -/
def addFront (f : Front) (s : State) : State :=
  modMeas (fun m => { m with fronts := (m.fronts ++ [f]).drop (m.fronts.length + 1 - 256) }) s

/-- LINE_CFGi is enabled. -/
def lineOn (s : State) (i : Nat) : Bool := decide (i < 8) && bit (rd s (aLineCfg i 0)) 31

/-- A datagram for TW_PORT arrives (R294). -/
def twReceive (payload : List Byte) (s : State) : State :=
  match twRead payload with
  | some r =>
    if lineOn s r.line then
      addFront { event := r.event, comp := r.front % 4, negative := r.front.testBit 2, index := natFld r.front 3 5
                 sec := r.sec, ns := r.ns, frac := r.frac, uncert := r.uncert, peak := r.peak, rise := r.rise
                 servo := r.tq % 8, untrusted := r.tq.testBit 3, station := r.station, line := r.line } s
    else cntUp aTwRxDrop 1 s
  | none => cntUp aTwRxDrop 1 s

/-- The frame is a datagram for the travelling-wave receiver on port p. -/
def twFrame (s : State) (p : Nat) (f : List Byte) : Option (List Byte) :=
  match udpOf f with
  | some (dst, l) => if dst = fld (rd s aTwPort) 0 16 ∧ fld (rd s aTwPort) 16 1 = p then some l else none
  | none => none

/-- The next index of a ring of RXQ_SIZE or LQ_SIZE entries. -/
def ringNext (size i : Nat) : Nat := (i + 1) % max 1 size

/-- The frame is one of PTP on a port where it is in effect, over the port's transport (R269 to R271, R300). -/
def ptpFrame (s : State) (p : Nat) (f : List Byte) : Bool :=
  ptpOn s p && isPtp f && (bit (rd s (aEth p 0)) 3 == (udpOf f).isSome)

/-- What an entry of the receive ring holds in DRAM: the frame, and a PTP frame's stamp after it. -/
def rxEntry (f : List Byte) (st : Option (Nat × Nat)) : List Byte :=
  Config.rxHeader f.length ++ f ++ (match st with | some t => Config.rxStamp t.1 t.2 | none => [])

/-- A frame joins the receive ring of port p, in DRAM, stamped if it is PTP; a full ring drops it. -/
def rxPlace (p : Nat) (f : List Byte) (s : State) : State :=
  let tail := (rd s (aEth p 0x2C)).toNat
  let next := ringNext (rd s (aEth p 0x24)).toNat tail
  if next = (rd s (aEth p 0x28)).toNat then cntSat (aEth p 0x34) 1 s
  else
    let st := if ptpFrame s p f then some (stampWith s (sWord (rd s (aEth p 0x18)))) else none
    let e := (f, (st.getD (0, 0)).1, (st.getD (0, 0)).2)
    irq (106 + p) (wr (aEth p 0x2C) (wd next)
      (dramPut ((rd s (aEth p 0x20)).toNat + Config.rxStride * tail) (rxEntry f st)
        (modEth (fun q => if p = 0 then { q with rx0 := q.rx0 ++ [e] } else { q with rx1 := q.rx1 ++ [e] }) s)))

/-- Row 129: a frame is received on a port that is enabled with its link up. -/
def doEthFrameRx (p : Nat) (f : List Byte) (fcsOk : Bool) (s : State) : State :=
  if !linkUp s p then s
  else if !fcsOk then cntSat (aEth p 0x38) 1 s
  else
    let s1 := cntSat (aEth p 0x30) 1 s
    match twFrame s p f with
    | some l => twReceive l s1
    | none => rxPlace p f s1

def execEthFrameRx (p : Fin 2) (f : List Byte) (fcsOk : Bool) (s : State) : Host.Outcome State Fault Refusal :=
  .next (doEthFrameRx p f fcsOk s)

/-- A write of RXQ_HEAD: the host has consumed the entries up to it. -/
def rxHeadWrite (p : Nat) (v : Word) (s : State) : State :=
  let size := max 1 (rd s (aEth p 0x24)).toNat
  let old := (rd s (aEth p 0x28)).toNat
  let n := (v.toNat % size + size - old % size) % size
  modEth (fun q => if p = 0 then { q with rx0 := q.rx0.drop n } else { q with rx1 := q.rx1.drop n }) (wr (aEth p 0x28) v s)

/-! Launch queues (R280 to R283). -/

def measLive (s : State) : Bool := tileLive s 18
def pmuEn (s : State) : Bool := measLive s && bit (fo s aPmuCfg) 0
def twEn (s : State) : Bool := measLive s && bit (fo s aTwCfg) 0
/-- The device owns the queue. -/
def lqOwned (s : State) (q : Nat) : Bool := (q == 6 && pmuEn s) || (q == 7 && twEn s)

/-- A descriptor comes to the head of queue q now (R281). -/
def lqArrive (q : Nat) (s : State) : State := modEth (fun e => { e with headAt := tset dZero e.headAt q (nowNs s) }) s

/-- Row 137: a write of LQ_TAILq; ignored on a queue that the device owns. Into an empty ring it brings a head. -/
def doLqTailWrite (q : Nat) (v : Word) (s : State) : State :=
  if lqOwned s q then s
  else onlyIf (rd s (aLq q 8) == rd s (aLq q 0xC)) (lqArrive q) (wr (aLq q 8) v s)

def execLqTailWrite (q : Fin 8) (v : Word) (s : State) : Host.Outcome State Fault Refusal :=
  .next (doLqTailWrite q v (hostAccess s))

/-- What stands at the head of a queue: port, launch time in ns or none, arrival there, FLAGS, frame; own: a frame of the
device. -/
structure LqHead where
  port : Nat := 0
  launch : Option Nat := none
  arrived : Nat := 0
  flags : Nat := 0
  frame : List Byte := []
  own : Bool := false
  deriving DecidableEq, Repr, Inhabited

def ownQueue (s : State) (q : Nat) : List (Nat × Option (Nat × Nat) × List Byte) :=
  if q = 6 then s.eth.lq6 else if q = 7 then s.eth.lq7 else []

/-- DRAM offset of the descriptor at the head of queue q. -/
def lqDescAt (s : State) (q : Nat) : Nat := (rd s (aLq q 0)).toNat + 32 * (rd s (aLq q 0xC)).toNat

def lqHead (s : State) (q : Nat) : Option LqHead :=
  if !bit (rd s (aLq q 0x10)) 0 then none
  else match ownQueue s q with
    | (p, t, f) :: _ =>
      some { port := p, launch := t.map (fun x => x.1 * 1000000000 + x.2), arrived := tget dZero s.eth.headAt q
             flags := if t.isNone then 2 else 0, frame := f, own := true }
    | [] =>
      if lqOwned s q || rd s (aLq q 8) == rd s (aLq q 0xC) then none
      else
        let d := readDesc (dramAt s (lqDescAt s q) 32)
        some { port := d.port % 2, flags := d.flags, frame := dramAt s d.buf d.length, arrived := tget dZero s.eth.headAt q
               launch := if d.flags.testBit 1 then none else some (d.sec * 1000000000 + d.ns) }

/-- Time on the wire at 1 Gb/s of a frame with preamble, FCS and inter-frame gap, in ns. -/
def wireNs (f : List Byte) : Nat := 8 * (f.length + 24)

/-- Another queue's head for the same port meets a condition. -/
def otherHead (s : State) (q : Nat) (h : LqHead) (p : Nat → LqHead → Bool) : Bool :=
  (List.range 8).any (fun j => j != q && (match lqHead s j with | some y => y.port == h.port && p j y | none => false))

/-- An IMMEDIATE frame that would overlap the launch time of a scheduled frame at a queue head waits (R283). -/
def lqHeld (s : State) (q : Nat) (h : LqHead) : Bool :=
  h.launch.isNone && otherHead s q h (fun _ y => match y.launch with
    | some t => decide (nowNs s ≤ t) && decide (t < nowNs s + wireNs h.frame)
    | none => false)

/-- The time by which a port takes its next frame: an IMMEDIATE one counts from its arrival at the head (R281). -/
def lqTime (h : LqHead) : Nat := h.launch.getD h.arrived

/-- The frame does not go now: it is held for a scheduled frame, or a head that is not held goes first, by the earlier time
and then the lower queue number (R281, R283). -/
def lqBlocked (s : State) (q : Nat) (h : LqHead) : Bool :=
  lqHeld s q h || otherHead s q h (fun j y =>
    !lqHeld s j y && (decide (lqTime y < lqTime h) || (lqTime y == lqTime h && decide (j < q))))

/-- One-step mode over the frame that leaves (R269, R270): a Sync takes the transmit time as its origin timestamp, a
response its correction; over UDP the checksum is zero. -/
def oneStep (f : List Byte) (sec ns : Nat) : List Byte :=
  let udp := (udpOf f).isSome
  let o := if udp then 22 + 4 * ((byteAt f 14).toNat % 16) else 14
  let put := fun (l : List Byte) (i : Nat) (b : List Byte) => l.take i ++ b ++ l.drop (i + b.length)
  let f1 := if udp then put f (o - 2) [0, 0] else f
  let kind := (byteAt f o).toNat % 16
  if kind = 0 then put f1 (o + 34) (beBytes 6 sec ++ beBytes 4 ns)
  else if kind = 3 ∨ kind = 9 then put f1 (o + 8) ((Config.oneStepCorrection f sec ns).take 8)
  else f1

/-- The head of queue q leaves with a status and transmit stamp: the descriptor is written back, the head advances. -/
def lqAdvance (q : Nat) (h : LqHead) (status sec ns : Nat) (s : State) : State :=
  let s0 := onlyIf h.own
    (modEth (fun e => if q = 6 then { e with lq6 := e.lq6.drop 1 } else { e with lq7 := e.lq7.drop 1 })) (lqArrive q s)
  let s1 := dramPut (lqDescAt s q + 0x14) (descBack status sec ns) s0
  let s2 := wr (aLq q 0xC) (wd (ringNext (rd s (aLq q 4)).toNat (rd s (aLq q 0xC)).toNat)) s1
  if status = 1 then s2 else irq 108 s2

/-- The frame goes out. -/
def lqSend (q : Nat) (h : LqHead) (status : Nat) (s : State) : State :=
  let st := stampWith s (sWord (rd s (aEth h.port 0x1C)))
  let f := if h.flags.testBit 0 && bit (rd s (aEth h.port 0)) 4 && ptpFrame s h.port h.frame then oneStep h.frame st.1 st.2 else h.frame
  lqAdvance q h status st.1 st.2 (modEth (fun e => { e with sent := some { port := h.port, queue := q, bytes := f } }) s)

/-- A data frame late on LQ6 (R301). -/
def pmuLate (q : Nat) (h : LqHead) (s : State) : State :=
  if q = 6 ∧ h.own = true ∧ h.launch.isSome = true then irq 109 (cntUp aPmuLateCnt 1 s) else s

/-- Row 138: queue q's head meets its port (R281, R282). -/
def doFrameLaunch (q : Nat) (portFree : Bool) (s : State) : State :=
  match lqHead s q with
  | none => s
  | some h =>
    let now := nowFine s
    let early := match h.launch with | some t => decide (now + 8 * 65536 < t * 65536) | none => false
    let late := match h.launch with | some t => decide (t * 65536 + 8 * 65536 < now) | none => false
    if early || lqBlocked s q h then s
    else if !linkUp s h.port then lqAdvance q h 8 0 0 (cntSat (aLq q 0x18) 1 s)
    else if !portFree then s
    else if !late then lqSend q h 1 s
    else if bit (rd s (aLq q 0x10)) 1 then lqAdvance q h 4 0 0 (cntSat (aLq q 0x18) 1 (pmuLate q h s))
    else lqSend q h 3 (cntSat (aLq q 0x14) 1 (pmuLate q h s))

def execFrameLaunch (q : Fin 8) (portFree : Bool) (s : State) : Host.Outcome State Fault Refusal :=
  .next (doFrameLaunch q portFree s)

/-- What the device writes of its own descriptor before the launch: STATUS and the stamp stay as they stand, and without a launch
time its fields do too (R280). -/
def ownDesc (q tail port : Nat) (t : Option (Nat × Nat)) (n : Nat) : List Byte :=
  leBytes 4 (Config.ownBuffer q tail).toNat ++ leBytes 2 n ++ leBytes 1 port
    ++ (match t with
      | none => leBytes 1 2
      | some x => leBytes 1 0 ++ leBytes 6 x.1 ++ leBytes 2 0 ++ leBytes 4 x.2)

/-- A frame of the device joins LQ6 or LQ7. -/
def lqPush (q port : Nat) (t : Option (Nat × Nat)) (f : List Byte) (s : State) : State :=
  let tail := (rd s (aLq q 8)).toNat
  wr (aLq q 8) (wd (ringNext (rd s (aLq q 4)).toNat tail))
    (dramPut ((rd s (aLq q 0)).toNat + 32 * tail) (ownDesc q tail port t f.length)
      (modEth (fun e => if q = 6 then { e with lq6 := e.lq6 ++ [(port, t, f)] } else { e with lq7 := e.lq7 ++ [(port, t, f)] })
        (onlyIf (ownQueue s q).isEmpty (lqArrive q) s)))

/-- A UDP/IPv4 datagram of the device in an Ethernet frame of port p, without preamble and FCS (R284, R293, R300). -/
def udpFrame (s : State) (p dest srcPort destPort : Nat) (payload : List Byte) : List Byte :=
  let o := Config.udpOpen dest payload
  beBytes 6 o.destMac.toNat ++ leBytes 6 (macOf s p) ++ beBytes 2 0x0800
    ++ [0x45] ++ beBytes 1 o.service.toNat ++ beBytes 2 (28 + payload.length) ++ beBytes 2 o.ident.toNat
    ++ beBytes 2 o.fragment.toNat ++ beBytes 1 o.ttl.toNat ++ [17] ++ beBytes 2 o.ipSum.toNat
    ++ beBytes 4 (rd s (aEth p 0x10)).toNat ++ beBytes 4 dest
    ++ beBytes 2 srcPort ++ beBytes 2 destPort ++ beBytes 2 (8 + payload.length) ++ beBytes 2 o.udpSum.toNat ++ payload

/-! Synchrophasors (R284 to R290). -/

/-- UTC seconds of the counter (R285). -/
def utcSec (s : State) : Int := (s.time.sec : Int) - sgn 16 (fld (rd s aUtcOffset) 0 16)

/-- SOC, FRACSEC within the second and the counter's nanoseconds of the latest reporting instant. -/
def pmuInstant (s : State) : Nat × Nat × Nat :=
  let r := pmuRate (pmuCfgNow s)
  let k := s.time.ns * r / 1000000000
  (((utcSec s) % 2 ^ 32).toNat, (freeDiv 285 (k * 1000000) r).toNat, (freeDiv 286 (k * 1000000000) r).toNat)

/-- Bits [31:24] of FRACSEC: leap second bits and the message time quality code (R285). -/
def fracTop (s : State) : Nat :=
  let u := rd s aUtcOffset
  timeQuality s + 16 * b2n (bit u 16) + 64 * b2n (bit u 17)

/-- A C37.118.2 frame: SYNC, size, IDCODE, SOC, FRACSEC, body and CHK. -/
def pmuFrame (s : State) (sync soc frac : Nat) (body : List Byte) : List Byte :=
  let f := beBytes 2 sync ++ beBytes 2 (body.length + 16) ++ beBytes 2 (fld (rd s aIdcode) 0 16) ++ beBytes 4 soc
    ++ beBytes 4 (frac + 2 ^ 24 * fracTop s) ++ body
  f ++ beBytes 2 (crc16 f)

/-- Unlocked time code of STAT (R288). -/
def unlockedCode (s : State) : Nat :=
  if s.time.servo = .locked then 0
  else
    let d := s.tick - s.time.unlockedAt
    if d < 4000000000 then 0 else if d < 40000000000 then 1 else if d < 400000000000 then 2 else 3

/-- The latest reporting instant, in counter time. -/
def pmuAt (s : State) : Nat := s.time.sec * 1000000000 + (pmuInstant s).2.2

/-- The instant is one that a step repeats or follows (hard cases of chapter 10). -/
def stepFlag (s : State) : Bool := decide (pmuAt s ≤ s.time.stepUntil)

/-- STAT (R288). -/
def pmuStat (s : State) (flagged : Bool) (trig : Nat) : Nat :=
  let stepped := stepFlag s
  let err := if bit (fo s aPmuCfg) 11 then 2 else b2n flagged
  let tq := match s.time.servo with
    | .locked => 0
    | .holdover => Config.statQuality (hoEstimate s) % 8
    | .acquiring => Config.statAcquiring % 8
    | _ => 7
  2 ^ 14 * err + 2 ^ 13 * b2n (s.time.servo != .locked || stepped) + 2 ^ 11 * b2n (trig.testBit 4) + 2 ^ 10 * b2n s.meas.cfgNotice
    + 2 ^ 6 * tq + 2 ^ 4 * unlockedCode s + (if trig.testBit 4 then trig % 16 else 0)

def pmuPort (s : State) : Nat := fld (fo s aPmuCfg) 10 1

/-- A synchrophasor frame as it stands on LQ6 (R284, R301). -/
def pmuDatagram (s : State) (f : List Byte) : List Byte :=
  udpFrame s (pmuPort s) (rd s aPmuDestIp).toNat (fld (rd s aPmuPorts) 16 16) (fld (rd s aPmuPorts) 0 16) f

/-- PMU_READY_NS less its 100 µs: the half of the measurement window, in ns (R286). -/
def pmuHalfNs (s : State) : Nat :=
  let c := pmuCfgNow s
  if bit c 2 then Config.pmuReadyM (bit c 1) (pmuRate c) else (freeDiv 287 1000000000 (if bit c 1 then 60 else 50)).toNat

/-- A sample within the window of the latest reporting instant carried a flag (R240, R288). -/
def pmuFlagged (s : State) : Bool :=
  match s.meas.flagAt with
  | some t => decide (5 * (s.tick - t) ≤ 2 * (nowNs s - pmuAt s + pmuHalfNs s))
  | none => false

/-- Bytes of phasors, FREQ, DFREQ and the digital word in the formats in force (R284, R301). -/
def pmuBodyLen (s : State) : Nat :=
  let c := pmuCfgNow s
  (plane s 18).meas.phasors * (if bit c 8 then 8 else 4) + (if bit c 9 then 8 else 4) + 2

/-- A list cut or filled with zeros to n bytes. -/
def fitBytes (n : Nat) (l : List Byte) : List Byte := (l ++ List.replicate n 0).take n

/-- Row 139: a data frame for the reporting instant just reached, due PMU_LAUNCH_DELAY after it (R285, R286). -/
def doPmuReport (body : List Byte) (trig : Nat) (s : State) : State :=
  if !(pmuEn s && s.meas.dataRunning) then s
  else if fld (rd s aIdcode) 0 16 = 0 then timeStick 4 s
  else
    let i := pmuInstant s
    let t := pmuAt s + (rd s aPmuDelay).toNat
    lqPush 6 (pmuPort s) (some (t / 1000000000, t % 1000000000))
      (pmuDatagram s (pmuFrame s 0xAA02 i.1 i.2.1
        (beBytes 2 (pmuStat s (pmuFlagged s) trig) ++ fitBytes (pmuBodyLen s) body))) s

def execPmuReport (body : List Byte) (trig : BitVec 5) (s : State) : Host.Outcome State Fault Refusal :=
  .next (doPmuReport body trig.toNat s)

/-- Row 140: a change of CFG-2 takes effect at the UTC second (R290, R342). -/
def doPmuCfgChange (s : State) : State :=
  if s.meas.cfgPending then
    irq 109 (modMeas (fun m => { m with cfgPending := false, cfgNotice := false, cfgCnt := (m.cfgCnt + 1) % 65536 }) s)
  else s

def execPmuCfgChange (s : State) : Host.Outcome State Fault Refusal := .next (doPmuCfgChange s)

/-- Row 141. -/
def doDataOn (s : State) : State := modMeas (fun m => { m with dataRunning := true }) s
def execDataOn (s : State) : Host.Outcome State Fault Refusal := .next (doDataOn (hostAccess s))
/-- Row 142. -/
def doDataOff (s : State) : State := modMeas (fun m => { m with dataRunning := false }) s
def execDataOff (s : State) : Host.Outcome State Fault Refusal := .next (doDataOff (hostAccess s))

/-- An IMMEDIATE frame on LQ6, unless IDCODE is zero (R289). -/
def pmuImmediate (sync : Nat) (body : List Byte) (s : State) : State :=
  if !pmuEn s then s
  else if fld (rd s aIdcode) 0 16 = 0 then timeStick 4 s
  else lqPush 6 (pmuPort s) none
    (pmuDatagram s (pmuFrame s sync ((utcSec s) % 2 ^ 32).toNat (s.time.ns / 1000) body)) s

/-- Build of the MEAS tile whose phasor set the frames follow (R290). -/
def cfgBuild (s : State) : Word := if s.meas.cfgPending then s.meas.buildOld else (plane s 18).buildId

/-- Row 143. -/
def doSendCfg2 (s : State) : State :=
  pmuImmediate 0xAA32 (Config.cfg2Body (cfgBuild s).toNat (pmuCfgNow s).toNat s.meas.cfgCnt) s
def execSendCfg2 (s : State) : Host.Outcome State Fault Refusal := .next (doSendCfg2 (hostAccess s))

/-- The text of PMU_HDR; a zero byte ends it (R301). -/
def pmuHdr (s : State) : List Byte :=
  (((List.range 64).map (fun i => leBytes 4 (rd s (0x1E0400 + 4 * i)).toNat)).flatten).takeWhile (· != 0)

/-- Row 144. -/
def doSendHdr (s : State) : State := pmuImmediate 0xAA12 (pmuHdr s) s
def execSendHdr (s : State) : Host.Outcome State Fault Refusal := .next (doSendHdr (hostAccess s))

/-- A write of PMU_CMD. -/
def pmuCmd (v : Word) (s : State) : State :=
  onlyIf (bit v 3) doSendHdr (onlyIf (bit v 2) doSendCfg2 (onlyIf (bit v 1) doDataOff (onlyIf (bit v 0) doDataOn s)))

/-- Row 145: PMU_NOTICE (R290). -/
def doPmuNotice (v : Word) (s : State) : State := if bit v 0 then modMeas (fun m => { m with cfgNotice := true }) s else s
def execPmuNotice (v : Word) (s : State) : Host.Outcome State Fault Refusal := .next (doPmuNotice v (hostAccess s))

/-! Travelling waves (R291 to R295). -/

/-- UNCERT: 5,000 ps plus TIME_ERR_EST in units of 10 ps (R292). -/
def twUncert (s : State) : Nat := (freeDiv 292 (5000 + (fld (rd s aTimeErr) 0 16 : Int)) 10).toNat

/-- Component α, β or 0 of a sample, scaled by 3, √3 and 3 (R291). -/
def twComp (comp : Nat) (x : TwSample) : Int :=
  if comp = 0 then 2 * x.a - x.b - x.c else if comp = 1 then x.b - x.c else x.a + x.b + x.c

/-- The square of a component's scale, in units of the square of an LSB of Q16.8. -/
def twScale2 (comp : Nat) : Nat := (if comp = 1 then 3 else 9) * 65536

/-- The four-sample differences of a component, newest first, with their samples. -/
def twDiffs (comp : Nat) (l : List TwSample) : List (TwSample × Int) :=
  List.zipWith (fun x y => (x, twComp comp x - twComp comp y)) l (l.drop 4)

/-- A difference exceeds TW_THRESH (R291, R301). -/
def twOver (s : State) (comp : Nat) (d : Int) : Bool := decide (twScale2 comp * fld (fo s (aTwCfg + 4)) 0 16 ^ 2 < d.natAbs ^ 2)

/-- A difference in LSB, of 16 bits; its rounding is not stated. -/
def twAmpl (comp : Nat) (d : Int) : Int :=
  let r := Nat.sqrt (d.natAbs ^ 2 / twScale2 comp)
  let m : Int := if r ^ 2 * twScale2 comp ≠ d.natAbs ^ 2 ∧ Config.roundUp 293 (d.natAbs ^ 2 : Nat) (twScale2 comp) = true
    then r + 1 else r
  clampI (-32768) 32767 (if d < 0 then -m else m)

/-- A peak with its neighbours: the samples before, at and after it with their differences. -/
structure TwPeak where
  at_ : TwSample := {}
  before : Int := 0
  d : Int := 0
  after : Int := 0
  deriving DecidableEq, Repr, Inhabited

/-- The peak among the differences that run belongs to, newest first; x is the difference after the list's first. -/
def twMax (x : Int) : Nat → List (TwSample × Int) → Option TwPeak
  | 0, _ => none
  | _, [] => none
  | _, [_] => none
  | n + 1, p :: q :: l =>
    match twMax p.2 n (q :: l) with
    | some y => if p.2.natAbs ≤ y.d.natAbs then some y else some { at_ := p.1, before := q.2, d := p.2, after := x }
    | none => some { at_ := p.1, before := q.2, d := p.2, after := x }

/-- The front of a component that has just passed: the latest difference is outside the stretch that exceeded the threshold with
one sign past the hold-off; its peak is the largest difference there, the earliest of equal ones (R291). -/
def twFront (s : State) (comp : Nat) : Option TwPeak :=
  match twDiffs comp s.meas.twBuf with
  | x :: p :: l =>
    let inRun := fun (y : TwSample × Int) => twOver s comp y.2 && (decide (y.2 < 0) == decide (p.2 < 0))
      && decide (tget dZero s.meas.twHold comp ≤ y.1.tick)
    if inRun x then none else twMax x.2 ((p :: l).takeWhile inRun).length (p :: l)
  | _ => none

/-- Counter time of a peak by the parabola through the three differences, 5 ns apart, in 2^-16 ns (R291). -/
def twTime (k : TwPeak) : Int :=
  let n := (k.before.natAbs : Int) - k.after.natAbs
  let m := 2 * ((k.before.natAbs : Int) - 2 * k.d.natAbs + k.after.natAbs)
  (k.at_.fine : Int) + (if m = 0 then 0 else freeDiv 290 (-(n * 327680)) (-m).toNat)

/-- TW_WINDOW in ticks. -/
def twWindow (s : State) : Nat := 400 * fld (fo s (aTwCfg + 8)) 0 11

/-- Row 146: a front of component comp is recorded; ch is the channel whose TW_DELAY_TRIM refers its stamp to the sensor
(R291). -/
def doTwFront (comp ch rise : Nat) (s : State) : State :=
  match twFront s comp with
  | none => s
  | some k =>
    let ok := twEn s && bit (fo s aTwCfg) (1 + comp) && (plane s 18).meas.twCh.contains ch
      && (!s.meas.twOpen || (decide (s.meas.twFronts < 32) && decide (k.at_.tick < s.meas.twStart + twWindow s)))
    if !ok then s
    else
      let trim := freeDiv 291 ((fld (rd s (aTwTrim ch)) 0 16 : Int) * 65536) 1000
      let t := (twTime k - trim).toNat
      let s1 := if s.meas.twOpen then s
        else recTrigger 1 (modMeas (fun m => { m with
          twOpen := true, twSeq := (m.twSeq + 1) % 65536, twFronts := 0, twStart := k.at_.tick }) s)
      let f : Front := {
        event := s1.meas.twSeq, comp := comp, negative := decide (k.d < 0), index := s1.meas.twFronts
        sec := t / 65536 / 1000000000, ns := t / 65536 % 1000000000, frac := t % 65536, uncert := twUncert s
        peak := twAmpl comp k.d, rise := rise, servo := servoCode s.time.servo, untrusted := untrusted s
        station := 0, line := fld (rd s aTwLineId) 0 16 }
      addFront f (modMeas (fun m => { m with
        twFronts := m.twFronts + 1, twHold := tset dZero m.twHold comp (k.at_.tick + 400) }) s1)

def execTwFront (comp : Fin 3) (ch : ConvNo) (rise : BitVec 16) (s : State) : Host.Outcome State Fault Refusal :=
  .next (doTwFront comp ch rise.toNat s)

/-- The report of a local front (R293). -/
def twReport (station : Nat) (f : Front) : List Byte :=
  twBytes { station := station, line := f.line, event := f.event, sec := f.sec, ns := f.ns, frac := f.frac
            uncert := f.uncert, front := f.comp + 4 * b2n f.negative + 8 * f.index
            tq := f.servo + 8 * b2n f.untrusted, peak := f.peak, rise := f.rise }

/-- A report as it stands on LQ7. -/
def twDatagram (s : State) (l : List Byte) : List Byte :=
  let w := rd s aTwPort
  udpFrame s (fld w 16 1) (rd s aTwDestIp).toNat (fld w 0 16) (fld w 0 16) l

/-- Row 147: the event's window closes (R293, R342). -/
def doTwEventEnd (s : State) : State :=
  if !(s.meas.twOpen && decide (s.meas.twStart + twWindow s ≤ s.tick)) then s
  else
    let fs := s.meas.fronts.filter (fun f => f.station == 0 && f.event == s.meas.twSeq)
    let mine := fs.drop (fs.length - s.meas.twFronts)
    let s1 := irq 110 (modMeas (fun m => { m with twOpen := false }) s)
    let st := fld (rd s aTwStation) 0 18
    if st = 0 then timeStick 4 s1
    else mine.foldl (fun s f => lqPush 7 (fld (rd s aTwPort) 16 1) none (twDatagram s (twReport st f)) s) s1

def execTwEventEnd (s : State) : Host.Outcome State Fault Refusal := .next (doTwEventEnd s)

/-- Arrival of a front in 2^-16 ns. -/
def frontAt (f : Front) : Int := ((f.sec * 1000000000 + f.ns) * 65536 + f.frac : Nat)

/-- CODE and the three results of a TW_LOCATE. -/
structure TwLoc where
  code : Nat := 0
  r1 : Nat := 0
  r2 : Nat := 0
  r3 : Nat := 0
  deriving DecidableEq, Repr, Inhabited

/-- Quotient rounded upwards. -/
def ceilI (n : Int) (d : Nat) : Int := (n + d - 1) / d

/-- Status of a location at x dm with uncertainty dx dm on a line of len dm (R295). -/
def twStatus (bad amb : Bool) (x dx len : Int) : Nat :=
  if bad then 0x44 else if x + dx < 0 ∨ len + dx < x then 0x42 else if amb then 0x43 else 0

/-- The location of R295. Times in 2^-16 ns, velocity in mm/µs, so v × t has the unit 10^-6 × 2^-16 m. -/
def twLocate (s : State) (line event : Nat) (double : Bool) : TwLoc :=
  let len : Nat := fld (rd s (aLineCfg line 0)) 0 24
  let v : Nat := fld (rd s (aLineCfg line 4)) 0 20
  let eps : Nat := fld (rd s (aLineCfg line 8)) 0 16
  let rem := fld (rd s (aLineCfg line 0xC)) 0 18
  let loc := s.meas.fronts.filter (fun f => f.station == 0 && f.event == event)
  match loc.head? with
  | none => { code := 0x40 }
  | some a =>
    let ta := frontAt a
    if double then
      -- the window l/v + 2 (uA + uB), with l in dm and u in 10 ps, scaled by 100 v
      let near := fun (f : Front) =>
        decide (100 * (v : Int) * ((frontAt f - ta).natAbs : Int)
          ≤ 100 * 65536 * 100000 * (len : Int) + 2 * 65536 * (v : Int) * (a.uncert + f.uncert : Nat))
      match s.meas.fronts.find? (fun f => f.station == rem && f.station != 0 && f.line == line && f.index == 0 && near f) with
      | none => { code := 0x41 }
      | some b =>
        let d := ta - frontAt b
        -- dm: v d × 10 / (10^6 × 65536)
        let x := freeDiv 295 ((len : Int) * 6553600000 + (v : Int) * d) 13107200000
        let dx := ceilI ((v : Int) * (a.uncert + b.uncert : Nat) * 65536 * 1000000
            + 100 * (d.natAbs : Int) * v * eps) (2 * 100 * 65536 * 100000 * 1000000)
        { code := twStatus (a.untrusted || b.untrusted) false x dx len, r1 := unsgn 24 x, r2 := unsgn 24 dx, r3 := rem }
    else
      let cands := (loc.drop 1).filter (fun f => f.negative == a.negative && decide (ta < frontAt f)
        && decide ((v : Int) * (frontAt f - ta) ≤ 2 * 65536 * 100000 * (len : Int)))
      let dist := fun (f : Front) => freeDiv 295 ((v : Int) * (frontAt f - ta)) 13107200000
      match cands with
      | [] => { code := Config.twNoSecond % 256 }
      | b :: more =>
        let d := frontAt b - ta
        let x := dist b
        let dx := ceilI ((v : Int) * 1000 * 65536 * 1000000 + 100 * d * v * eps) (2 * 100 * 65536 * 100000 * 1000000)
        let amb := !more.isEmpty
        let code := twStatus (a.untrusted || b.untrusted) amb x dx len
        { code := code, r1 := unsgn 24 x, r2 := unsgn 24 dx
          r3 := match more with | c :: _ => if code = 0x43 then unsgn 24 (dist c) else rem | [] => rem }

/-- Row 148: the result of a TW_LOCATE is written. -/
def doTwLocateDone (s : State) : State :=
  match runSlot s 0x09 with
  | none => s
  | some i =>
    let r := twLocate s (fld (param s i 0) 0 3) (fld (param s i 1) 0 16) (bit (param s i 0) 8)
    endSlot i .completed [wd r.code, wd r.r1, wd r.r2, wd r.r3] s

def execTwLocateDone (s : State) : Host.Outcome State Fault Refusal := .next (doTwLocateDone s)

end Sys2Proof.Machine
end

