-- ==== Sys2Proof/Machine/Power.lean ====
section
/-! DEFINITION. Resets, reset release and standby (R344, R376, R377, R385 to R390; rows 180, 181, 183 to 189). -/

namespace Sys2Proof.Machine

open Sys2Proof

/-! Resets (R385, R386). -/

/-- The cell ends behind the links stand outside the device. -/
def linksAfterReset (ls : Tbl Link) : Tbl Link :=
  ls.foldl (fun a p => tset dLink a p.1 { cell := p.2.cell }) []

/-- Internal reset in force: State.reset, but for the waiting commands, true time, Bracken, the MRAM areas, OTP, the cell
ends and the level of PFW_N. -/
def resetDevice (s : State) : State :=
  let d := s.damask
  let key := if d.keyBusy then (match d.otpKey with | some ws => Config.keyAfterReset ws | none => none) else d.otpKey
  { State.reset with
    pending := s.pending
    tick := s.tick
    damask := { otpKey := key }
    conv := { ucalSlots := s.conv.ucalSlots }
    meter := { recs := s.meter.recs, recSeq := s.meter.recSeq, clearCnt := s.meter.clearCnt, pfwLow := s.meter.pfwLow }
    bracken := s.bracken
    host := { evlog := s.host.evlog, evHead := s.host.evHead }
    links := linksAfterReset s.links }

/-- Row 183: an undervoltage (R385, R397). -/
def doPowerOnReset (s : State) : State :=
  modBr (fun b => { b with aligned := false }) (resetDevice s)

def execPowerOnReset (s : State) : Host.Outcome State Fault Refusal := .next (doPowerOnReset s)

/-- A block run leaves on every link whose DCK runs: the cell ends behind it block (R136, R386). -/
def blockCells (s : State) : State :=
  forEach (List.range 36) (fun l s =>
    if (link s l).dck = true then modCell l cellOff s else s) s

/-- A reset other than power-on reset takes hold: outputs safe, FINAL save, internal reset; RESET_CAUSE takes a bit and
the shutdown record stays (R386). -/
def resetWarm (b : Nat) (s : State) : State :=
  let s1 := meterFinal (blockCells s)
  let s2 := resetDevice s1
  { s2 with
    power := { s2.power with cause := s1.power.cause ||| 2 ^ b, mainOff := false }
    therm := { s2.therm with shSec := s1.therm.shSec, shNs := s1.therm.shNs, shSensor := s1.therm.shSensor
                             shReading := s1.therm.shReading, shCount := s1.therm.shCount, shValid := s1.therm.shValid } }

/-- Row 184: RESET_N low for 1 µs. During an internal reset it adds nothing. -/
def doResetN (s : State) : State := if s.power.inReset then s else resetWarm 1 s

def execResetN (s : State) : Host.Outcome State Fault Refusal := .next (doResetN s)

/-- Row 180: the comparator of on-die sensor d crosses the shutdown level (R376, R377). -/
def doDieShutdown (d : Nat) (s : State) : State :=
  if s.power.inReset then s
  else
    let s1 := bRise 181 s
    let s2 := modTherm (fun t => { t with
      shSec := s.time.sec, shNs := s.time.ns, shSensor := d, shReading := unsgn 16 (tget dZeroI s.therm.die d)
      shCount := (t.shCount + 1) % 65536, shValid := true }) s1
    modPower (fun p => { p with dieHold := true }) (resetWarm 2 s2)

def execDieShutdown (d : Fin 4) (s : State) : Host.Outcome State Fault Refusal := .next (doDieShutdown d s)

/-- Row 185: PERST_N resets the endpoint (R344, R385): the MSI-X table, the PBA and every vector's pending
state. -/
def doPerstN (s : State) : State :=
  let s1 := { s with regs := tclr s.regs 0x48000 0x48400 }
  let s2 := modHost (fun h => { h with vecPend := 0, pba := 0, msixOn := false, result := .none }) s1
  modPower (fun p => { p with cause := p.cause ||| 8 }) s2

def execPerstN (s : State) : Host.Outcome State Fault Refusal := .next (doPerstN s)

/-- The device comes out of internal reset with the straps and pins given (R60, R222, R387). -/
def releaseReset (x : Straps) (s : State) : State :=
  let m := x.bootMode.toNat
  let s1 := modPower (fun p => { p with inReset := false, mainOff := false, dieHold := false, io3v3 := x.io3v3.toNat }) s
  let s2 := modDamask (fun d => { d with bootMode := m, bootSlot := 0, qspiBusy := m == 1 || m == 2 }) s1
  let s3 := if x.io3v3.getLsbD 0 then s2 else pwrFlag 3 s2
  let s4 := modGorse (fun g => { g with en := x.en, enFallAt := s.tick }) s3
  if x.en then s4 else bRise 182 s4

/-- Row 186: supplies valid with RESET_N high. While no listed REFCLK is detected the internal reset holds (R83). -/
def doResetRelease (x : Straps) (s : State) : State :=
  if s.power.inReset && !s.power.dieHold && !bit (rd s aClkStatus) 5 then releaseReset x s else s

def execResetRelease (x : Straps) (s : State) : Host.Outcome State Fault Refusal := .next (doResetRelease x s)

/-- Row 181: every on-die sensor is below 140 °C. A reset that an unsupported REFCLK holds goes on (R83). -/
def doDieShutdownRelease (x : Straps) (s : State) : State :=
  if s.power.inReset && s.power.dieHold then
    let s1 := releaseReset x s
    if bit (rd s aClkStatus) 5 then modPower (fun p => { p with inReset := true }) s1 else s1
  else s

def execDieShutdownRelease (x : Straps) (s : State) : Host.Outcome State Fault Refusal := .next (doDieShutdownRelease x s)

/-! Standby (R389, R390). -/

/-- OPQ_SUMMARY. -/
def opqSummary (s : State) : Nat := maskOf 16 (fun i => isBusy (slot s i).st)

/-- A write of 0x5342 is accepted. -/
def stbyOk (s : State) : Bool :=
  (s.dev == .configWait || s.dev == .tripped) && s.gorse.en && !s.meter.pfwLow && opqSummary s == 0
    && [36, 37].all (fun l => (link s l).st != .linked)

/-- Standby is entered: the lanes are powered down. -/
def stbyGo (s : State) : State :=
  let m := maskOf 36 (fun l => (link s l).dck)
  let s1 := forEach (bitsOf 36 m) dckOff s
  modPower (fun p => { p with standby := true, waking := false, wakeCause := 0, wakeWc := 0, stbyDck := m }) s1

/-- A write of STBY_CTRL: 0x5342 enters, unless a wake event coincides, which wins; 0x5742 wakes, any other value is ignored. -/
def stbyWrite (v : Word) (s : State) : State :=
  if v = wd 0x5342 then
    (if s.power.standby then s
     else if stbyOk s then
       (match wakeNow s with
        | some e => modPower (fun p => { p with wakeCause := e.1, wakeWc := e.2 }) s
        | none => stbyGo s)
     else pwrFlag 2 s)
  else if v = wd 0x5742 then wake 1 0 s
  else s

/-- Row 187. -/
def doStandbyEnter (v : Word) (s : State) : State := stbyWrite v s
def execStandbyEnter (v : Word) (s : State) : Host.Outcome State Fault Refusal := .next (doStandbyEnter v (hostAccess s))

/-- Row 188. -/
def doStandbyWake (v : Word) (s : State) : State := stbyWrite v s
def execStandbyWake (v : Word) (s : State) : Host.Outcome State Fault Refusal := .next (doStandbyWake v (hostAccess s))

/-- Row 189: the exit completes, and the lanes resume at their rates. -/
def doStandbyExitDone (s : State) : State :=
  if s.power.standby && s.power.waking then
    let s1 := forEach (bitsOf 36 s.power.stbyDck) (fun l s => if (link s l).dck then s else dckOn l s) s
    modPower (fun p => { p with standby := false, waking := false, stbyDck := 0 }) s1
  else s

def execStandbyExitDone (s : State) : Host.Outcome State Fault Refusal := .next (doStandbyExitDone s)

end Sys2Proof.Machine
end

