-- ==== Sys2Proof/Machine/RegRead.lean ====
section
/-! DEFINITION. What every register reads as (R10 to R14 and the map of each chapter): a register whose home is a mode, an
engine or a table of State is a view of it; every other register reads the stored or staged word of the register map. -/

namespace Sys2Proof.Machine

open Sys2Proof

/-- The low and the high word of a 64-bit register (R11). -/
def lo32 (n : Nat) : Word := wd n
def hi32 (n : Nat) : Word := wd (n / 2 ^ 32)

/-- Half w of a 64-bit value: 0 low, otherwise high. -/
def half64 (n w : Nat) : Word := if w = 0 then lo32 n else hi32 n

/-- GLOBAL (R45, R357, R358, R397). -/
def viewGlobal (s : State) (o : Nat) : Option Word :=
  if o = 0x04 then some (wd (devCode s.dev + 8 * b2n s.damask.imageValid + 16 * s.present))
  else if o = 0x1C then
    let run := fun (a : Nat) => s.gorse.everRun && bit (rd s a) 15
    some (wd (b2n (run aHostWdogCfg) + 2 * b2n s.host.hostExpired + 4 * b2n (run aSvcWdogCfg) + 8 * b2n s.host.svcExpired))
  else if o = 0x30 then some (wd s.host.evHead)
  else if o = 0x104 then
    some (wd (maskOf 8 (fun g => (group s g).req || (group s g).taken || (group s g).coefHeld)))
  else if 0x180 ≤ o ∧ o < 0x1C0 then some (half64 (group s ((o - 0x180) / 8)).boundary (o % 8))
  else if 0x1C0 ≤ o ∧ o < 0x1E0 then some (wd (group s ((o - 0x1C0) / 4)).commitAt)
  else if 0x200 ≤ o ∧ o < 0x220 then some (wd (group s ((o - 0x200) / 4)).mirrorSeq)
  else if o = 0x300 then some (wd s.power.cause)
  else if o = 0x304 then some (wd (b2n s.power.vSpread + 2 * b2n s.power.tSpread + 4 * s.power.io3v3))
  else if o = 0x310 then
    some (wd (b2n s.power.standby + 2 * s.power.wakeCause + 256 * s.power.wakeWc))
  else if 0x4000 ≤ o ∧ o < 0x8000 then
    let e := tget (fun _ => (0, 0, 0, 0)) s.host.evlog ((o - 0x4000) / 16)
    some (match o % 16 / 4 with
      | 0 => wd e.2.2.1
      | 1 => wd (e.2.2.1 / 2 ^ 32 % 65536 + 65536 * e.1)
      | 2 => wd e.2.2.2
      | _ => e.2.1)
  else none

/-- Ten tile states, three bits each. -/
def tileStates (s : State) (t0 : Nat) : Word :=
  wd ((List.range 10).foldl (fun a i => a + 8 ^ i * tileCode (tile s (t0 + i)).st) 0)

/-- DAMASK (R81). -/
def viewDamask (s : State) (o : Nat) : Option Word :=
  let d := s.damask
  if o = 0x00 then
    some (wd (b2n d.imageValid + 2 * b2n d.signedActive + 4 * b2n (keyInForce s).isSome + 8 * b2n (tagSplit s)
      + 16 * b2n d.keyBusy + 32 * b2n d.keyFail
      + 64 * b2n (match d.load with | some ld => ld.slot.isSome | none => false) + 128 * b2n d.swap.isSome))
  else if o = 0x04 then
    some (wd (d.bootCode + 256 * d.bootMode + 1024 * d.bootSlot + 2048 * b2n d.fallback + 4096 * b2n d.sigUnchecked))
  else if o = 0x0C then some (wd (d.stagingMib * 2 ^ 20))
  else if o = 0x10 then some (tileStates s 0)
  else if o = 0x14 then some (tileStates s 10)
  else if o = 0x18 then some (wd (maskOf 20 (fun t => (tile s t).prev)))
  else if 0x100 ≤ o ∧ o < 0x100 + 8 * 20 then
    let x := tile s ((o - 0x100) / 8)
    some (if o % 8 = 0 then wd (min x.srRun 65535 + 65536 * min x.srCount 65535) else wd (min x.srMis 0xFFFFFFFF))
  else if 0x200 ≤ o ∧ o < 0x220 then
    some (match keyInForce s with | some ws => ws.getD ((o - 0x200) / 4) 0 | none => 0)
  else if 0x300 ≤ o ∧ o < 0x300 + 4 * 20 then
    some (plane s ((o - 0x300) / 4)).buildId
  else none

/-- OPQ (R360). -/
def viewOpq (s : State) (o : Nat) : Option Word :=
  if o = 0x0C then some (wd (opqSummary s))
  else if 0x100 ≤ o ∧ o < 0x500 then
    let i := (o - 0x100) / 0x40
    let w := (o - 0x100) % 0x40
    let x := slot s i
    if w = 0x24 then
      some (wd (opCode x.st + 8 * b2n (isBusy x.st) + 16 * b2n x.cancelLate + 32 * b2n x.cancelSvc + 64 * b2n x.suspReq
        + 256 * x.op + 65536 * (if x.gen = 0 then 0 else handle i x)))
    else if 0x28 ≤ w ∧ w < 0x38 then some (if isBusy x.st then 0 else x.res.getD ((w - 0x28) / 4) 0)
    else none
  else none

/-- INTC (R344, R359). -/
def viewIntc (s : State) (o : Nat) : Option Word :=
  if o = 0x400 ∨ o = 0x404 then some (half64 s.host.vecPend (o % 8))
  else if o = 0x9000 ∨ o = 0x9004 then some (half64 s.host.pba (o % 8))
  else none

/-- TIME (R299). -/
def viewTime (s : State) (o : Nat) : Option Word :=
  if o = 0x04 then some (wd (servoCode s.time.servo + 8 * b2n (untrusted s) + 16 * timeQuality s))
  else if o = 0x10 then some (wd s.time.ns)
  else if o = 0x14 then some (lo32 s.time.sec)
  else if o = 0x18 then some (wd (s.time.sec / 2 ^ 32 % 65536 + 65536 * s.time.frac))
  else if o = 0x54 then
    some (if s.time.servo = .holdover ∨ s.time.servo = .refLost then wd s.time.holdoverS else 0)
  else if 0x100 ≤ o ∧ o < 0x200 ∧ o % 0x20 = 0x10 then
    let q := (o - 0x100) / 0x20
    some (rd s (0x50000 + o) ||| wd (4 * b2n (lqOwned s q)))
  else none

/-- ETH, port p (R300). -/
def viewEth (s : State) (p o : Nat) : Option Word :=
  if o = 0x04 then some (wd (b2n (linkUp s p) + 2 * b2n (ethIdMissing s p))) else none

/-- FAIL_CODE (R130). -/
def failNum : FailCode → Nat
  | .none => 0 | .noUpstream => 1 | .eyeNarrow => 2 | .capInvalid => 3 | .ber => 4 | .noAck => 5 | .notDefined => 6
  | .inService => 7 | .cancelled => 8 | .clock => 9

/-- A link or Wozin port (R130, R159). -/
def viewLink (s : State) (l o : Nat) : Option Word :=
  let x := link s l
  if o = 0x00C then
    some (wd (ltCode x.st + 16 * x.rate + 64 * b2n x.upLock + 128 * b2n x.rateLimited + 256 * failNum x.fail
      + 4096 * x.slipPos + 65536 * b2n x.markerSeen))
  else if o = 0x014 then some (localCap s l)
  else if o = 0x018 then some x.partnerCap
  else if o = 0x01C then some (wd (x.eyeWidth + 256 * pickNow s l))
  else if o = 0x020 then some (wd (ebufNow s l))
  else if o = 0x040 then some (wd x.partnerErr)
  else if o = 0x108 then
    some (wd (b2n x.latValid + 2 * b2n x.unstableNow + 4 * b2n x.rangeNow + 8 * b2n (x.txBlock || decide (symsBegun s l ≤ x.wzRun))
      + 16 * b2n (x.blk && x.st == .linked && decide (l < 36)) + 32 * b2n x.cellBlocked + 64 * b2n x.cellFault))
  else if o = 0x110 then some (wd x.rttPs)
  else if o = 0x114 then some (wdI (freeDiv 148 x.dU unitsPerPs.toNat))
  else if o = 0x118 then some (wd x.turnPs)
  else if o = 0x11C then some (wd x.launchOfs)
  else if o = 0x130 then some x.rpt0
  else if o = 0x134 then some x.rpt1
  else if o = 0x138 then some x.rpt2
  else if o = 0x13C then some x.diagRpt
  else if o = 0x140 then some (if isWz l then x.wzPeer else 0)
  else none

/-- Three clock-group masks of PL_STATUS (R172, R184). -/
def plStatus (s : State) : Nat :=
  maskOf 8 (fun g => s.dirty.contains (aCgPeriod g)) + 256 * maskOf 8 (fun g => s.present.testBit g && plComplete s g)
    + 65536 * maskOf 8 (fun g => (group s g).plHold)

/-- A channel group's bits in 16. -/
def mod16 (n : Nat) : Word := wd (n % 65536)

/-- LP_STATUSp (R184). -/
def lpStatus (s : State) (p : Nat) : Nat :=
  b2n (ghLevel s p) + 2 * b2n (glLevel s p)
    + 4 * b2n (match pairGroup s p with | some g => overlapNow s g (pair s p).wave | none => false)
    + 8 * fld (fo s (aLp p 8)) 3 1

/-- VC_STATUSc (R184). -/
def vcStatus (s : State) (c : Nat) : Nat :=
  (match cellGroup s c with
    | some g => maskOf 6 (fun j => overlapNow s g (tget dWave (vcell s c).waves j))
    | none => 0)
    + 64 * b2n (cellBoot s (fo s) c) + 128 * fld (link s c).rpt1 9 1

/-- MOD (R184). -/
def viewMod (s : State) (o : Nat) : Option Word :=
  if o = 0x24 then some (mod16 s.mod.enStaged)
  else if o = 0x28 then some (mod16 s.mod.updStaged)
  else if o = 0x2C then some (wd (plStatus s))
  else if 0x80 ≤ o ∧ o < 0xC0 then
    some (match chgCg s ((o - 0x80) / 4) with | some g => wd (g + 8) | none => 0)
  else if 0x1000 ≤ o ∧ o < 0x1200 ∧ o % 8 = 0 then
    let i := (o - 0x1000) / 8
    some (match tlook (modContent s (i / 16)).carriers i with
      | some c => wd (b2n c.sawtooth + 2 * c.cg + 16 * b2n c.defined + 256 * c.autoIndex + 65536 * c.autoDiv)
      | none => 0)
  else if 0x2000 ≤ o ∧ o < 0x2000 + 0x20 * 12 then
    let p := (o - 0x2000) / 0x20
    let w := o % 0x20
    if w = 0x08 then
      some (rd s (aLp p 8) ||| (match pairCfg s p with
        | some k => wd (16 * b2n k.muSrc + 32 * b2n k.cpPresent + 64 * b2n k.bsPresent + 256 * k.chg + 4096 * k.carrier)
        | none => 0))
    else if w = 0x10 then some (match pairCfg s p with | some k => wd k.dtMin | none => 0)
    else if w = 0x1C then some (wd (lpStatus s p))
    else none
  else if 0x4000 ≤ o ∧ o < 0x4000 + 0x100 * 36 then
    let c := (o - 0x4000) / 0x100
    let w := o % 0x100
    if w = 0x48 then some (match cellCfg s c with | some k => wd k.dtMin | none => 0)
    else if w = 0x54 then
      some (match cellCfg s c with
        | some k => wd (k.legs % 64 + 64 * (k.muMask % 4096) + 2 ^ 18 * k.chg)
        | none => 0)
    else if 0x58 ≤ w ∧ w < 0x64 then
      let j := 4 * ((w - 0x58) / 4)
      some (match cellCfg s c with
        | some k => wd ((List.range 4).foldl (fun a i => a + 64 ^ i * (k.carriers.getD (j + i) 0 % 64)) 0)
        | none => 0)
    else if w = 0x64 then some (wd (vcStatus s c))
    else none
  else none

/-- GORSE_STATUS (R36, R237). -/
def gorseStatus (s : State) : Nat :=
  let g := s.gorse
  let run := s.dev == .run
  b2n g.voteA + 2 * b2n g.voteB + 4 * b2n (scRuns s) + 8 * b2n g.ssRunning + 16 * b2n g.blockActive + 32 * b2n g.brk
    + 64 * b2n (run && g.voteA) + 128 * b2n (run && g.voteB) + 256 * b2n s.mod.asyncSafe + 512 * b2n (!run)
    + 1024 * b2n g.en

/-- Words of an action descriptor (R237). -/
def classCode : ActClass → Nat
  | .none => 0 | .trip => 1 | .safeStop => 2 | .block => 3 | .notify => 4
def actWord (d : ActDesc) (w : Nat) : Word :=
  if w = 0 then wd (classCode d.cls) else if w = 1 then lo32 d.links
  else if w = 2 then wd (d.links / 2 ^ 32 % 16 + 65536 * (d.pairs % 4096)) else 0

/-- FILT_Xs. -/
def filtWord (s : State) (ch n : Nat) : Word :=
  if tileLive s (16 + ch) then
    let f := filtOf s ch n
    wd (f.filter % 256 + 65536 * (f.pair % 16) + 2 ^ 20 * (f.sel % 256))
  else 0

/-- GORSE (R237). -/
def viewGorse (s : State) (o : Nat) : Option Word :=
  let g := s.gorse
  if o = 0x00 then some (wd (gorseStatus s))
  else if o = 0x18 then some (wd (scTicks s / 400000))
  else if o = 0x20 then some (wd (g.recHead + 65536 * g.tripId))
  else if o = 0x24 then
    some (wd (g.ssStep % 16 + 16 * b2n g.ssRunning
      + 256 * (if g.ssRunning then min ((s.tick - g.ssAt) / 40000) 0xFFFFFF else 0)))
  else if o = 0x28 then some (g.brkCfgPend.getD (rd s aBrkCfg))
  else if o = 0x2C then some (g.brkThrPend.getD (rd s aBrkThr))
  else if o = 0x84 then some (if tileLive s 16 then auxTag s 0 else 0)
  else if o = 0x88 then some (if tileLive s 17 then auxTag s 1 else 0)
  else if 0x100 ≤ o ∧ o < 0x120 then some (wd (g.latch / 2 ^ (8 * (o - 0x100))))
  else if 0x120 ≤ o ∧ o < 0x140 then
    some (wd (maskOf 32 (fun b => srcLive s (8 * (o - 0x120) + b))))
  else if 0x1000 ≤ o ∧ o < 0x1400 then some (recWord s ((o - 0x1000) / 32) (o % 32 / 4))
  else if 0x2000 ≤ o ∧ o < 0x2400 then some (wd (tmOf s 0 ((o - 0x2000) / 4)))
  else if 0x2400 ≤ o ∧ o < 0x2800 then some (wd (tmOf s 1 ((o - 0x2400) / 4)))
  else if 0x2800 ≤ o ∧ o < 0x2A00 then some (actWord (actOf s 0 ((o - 0x2800) / 16)) (o % 16 / 4))
  else if 0x2A00 ≤ o ∧ o < 0x2C00 then some (actWord (actOf s 1 ((o - 0x2A00) / 16)) (o % 16 / 4))
  else if 0x2C00 ≤ o ∧ o < 0x3000 then some (filtWord s 0 ((o - 0x2C00) / 4))
  else if 0x3000 ≤ o ∧ o < 0x3400 then some (filtWord s 1 ((o - 0x3000) / 4))
  else none

/-- CONV (R264). -/
def viewConv (s : State) (o : Nat) : Option Word :=
  let c := s.conv
  if o = 0x00 then
    some (wd (b2n (refOn s) + 2 * b2n c.refSettled + 4 * b2n (c.calBusy != 0) + 8 * b2n c.ucalDefault + 16 * b2n c.ucalBusy
      + 65536 * c.calValid))
  else if o = 0x700 then some (wd (maskOf 24 (fun k => (cmp s k).above || (cmp s k).below)))
  else if o = 0x704 then some (wd (maskOf 24 (fun k => (cmp s k).above)))
  else if 0x1040 ≤ o ∧ o < 0x10C0 then some (fo s (0x1C0400 + (o - 0x1040)))
  else if 0x1100 ≤ o ∧ o < 0x11C0 then some (fo s (0x1C0600 + (o - 0x1100)))
  else none

/-- MEAS (R301). -/
def viewMeas (s : State) (o : Nat) : Option Word :=
  let m := s.meas
  if o = 0x114 then
    some (if pmuEn s then wd (pmuHalfNs s + 100000) else 0)
  else if o = 0x11C then some (wd (b2n m.dataRunning + 2 * b2n m.cfgNotice + 4 * m.cfgCnt))
  else if o = 0x21C then some (wd (m.twSeq % 65536 + 65536 * (m.twFronts % 64)))
  else if o = 0x310 then some (wd (m.recFrozen % 256 + 256 * m.recSeg))
  else if 0x320 ≤ o ∧ o < 0x3A0 then
    let g := (o - 0x320) / 16
    let w := o % 16
    some (if w = 0 then wd (tget dZero m.trigNs g)
      else if w = 4 then lo32 (tget dZero m.trigSec g)
      else if w = 8 then wd (tget dZero m.trigSec g / 2 ^ 32 % 65536 + 65536 * (tget dZero m.trigSrc g % 2048))
      else wd (tget dZero m.trigIdx g))
  else none

/-- TYPE of a port (R332). -/
def portCode : PortType → Nat
  | .absent => 0 | .three => 1 | .two => 2 | .dc => 3

/-- Fifteen words and their CRC-32 of a Bracken totals slot; an unwritten slot is blank (R329). -/
def brSlotWords (l : List Nat) : List Word :=
  if l.isEmpty then List.replicate 16 0
  else
    let v := fun i => l.getD i 0
    let ws := [wd (v 0), wd (v 1), lo32 (v 2), hi32 (v 2), lo32 (v 3), hi32 (v 3), lo32 (v 4), hi32 (v 4),
               lo32 (v 5), hi32 (v 5), wd (v 6), 0, 0, 0, 0]
    ws ++ [wd (crc32 (ws.flatMap (fun w => leBytes 4 w.toNat)))]

/-- The eight words of a ring record. -/
def brRecWords (r : BrRec) : List Word :=
  if r.words.isEmpty then List.replicate 8 0
  else r.words ++ [wd (crc32 (r.words.flatMap (fun w => leBytes 4 w.toNat)))]

/-- The Bracken registers and MRAM section (R329, R332), by offset from METER's base. -/
def viewBracken (s : State) (o : Nat) : Option Word :=
  let b := s.bracken
  if o = 0x3000 then
    some (wd (b2n b.running + 2 * b2n b.vbatOk + 4 * b2n b.oscOk + 8 * b2n b.open_ + 16 * b2n b.aligned))
  else if o = 0x3008 then some (wd b.sec)
  else if o = 0x300C then some (lo32 b.alignS)
  else if o = 0x3010 then some (wd (b.alignS / 2 ^ 32 % 65536))
  else if o = 0x3014 then some (wd b.alignBr)
  else if o = 0x3004 ∨ (0x3018 ≤ o ∧ o < 0x3040) then some (brReg s (o - 0x3000))
  else if 0x3040 ≤ o ∧ o < 0x3058 then
    some (half64 (tget dZero b.ah ((o - 0x3040) / 8) / 2 ^ 32) (o % 8))
  else if o = 0x3058 then some (lo32 (b.est / 2 ^ 32))
  else if o = 0x305C then some (hi32 (b.est / 2 ^ 32))
  else if o = 0x3064 then some (wd b.clearCnt)
  else if o = 0x3068 then some (wd b.head)
  else if 0x4000 ≤ o ∧ o < 0x4080 then
    some ((brSlotWords (b.slots.getD ((o - 0x4000) / 64) [])).getD (o % 64 / 4) 0)
  else if 0x4080 ≤ o ∧ o < 0x4F80 then
    some ((brRecWords (tget (fun _ => {}) b.ring ((o - 0x4080) / 32))).getD ((o - 0x4080) % 32 / 4) 0)
  else none

/-- METER (R332). -/
def viewMeter (s : State) (o : Nat) : Option Word :=
  let m := s.meter
  let c := meterContent s
  if 0x3000 ≤ o then viewBracken s o
  else if o = 0x00 then
    some (wd (b2n m.metering + 2 * b2n (tileLive s 19 && noLineNow s) + 4 * b2n m.pfwLow + 8 * b2n m.restored))
  else if o = 0x0C then
    some (wd ((List.range 3).foldl (fun a k => a + 256 ^ k * (portCode (portType s k) + 4 * b2n (c.dirs.testBit k))) 0))
  else if o = 0x10 then some (if tileLive s 19 then wd (b2n c.f60 + 2 * c.dec) else 0)
  else if o = 0x14 then some (wd m.lineFreq)
  else if o = 0x18 then some (wd m.latchSeq)
  else if o = 0x1C then some (wd m.latchNs)
  else if o = 0x20 then some (lo32 m.latchSec)
  else if o = 0x24 then some (wd (m.latchSec / 2 ^ 32 % 65536))
  else if o = 0x28 then some (wd m.latchQual)
  else if o = 0x30 then some (wd m.clearCnt)
  else if o = 0x34 ∨ o = 0x38 then some (if o = 0x34 then lo32 m.recShown else hi32 m.recShown)
  else if 0x100 ≤ o ∧ o < 0x180 ∧ o % 16 = 8 then some (wd (tget dZero m.backlog ((o - 0x100) / 16)))
  else if 0x200 ≤ o ∧ o < 0x320 ∧ o % 0x20 = 0 then some (tget dZeroW c.sensCfg ((o - 0x200) / 0x20))
  else if 0x400 ≤ o ∧ o < 0x448 then some (tget dZeroW c.inputMap ((o - 0x400) / 4))
  else if 0x480 ≤ o ∧ o < 0x4C8 then some (tget dZeroW c.vratio ((o - 0x480) / 4))
  else if 0x1000 ≤ o ∧ o < 0x1600 then some (half64 (tget dZero m.energy ((o - 0x1000) / 8) / 2 ^ 32) (o % 8))
  else if 0x1800 ≤ o ∧ o < 0x1B00 then some (wd (tget dZero m.energyWrap ((o - 0x1800) / 4)))
  else none

/-- KIND of SLOT_MAPs (R189). -/
def kindCode : SlotKind → Nat
  | .unused => 0 | .conv => 1 | .cellVdc => 2 | .cellTemp => 3 | .ownPrev => 4 | .host => 5 | .chain => 6
def isCellKind (k : SlotKind) : Bool := k == .cellVdc || k == .cellTemp

/-- Shadow outputs and states of unit u show only while its tile is in SHADOW-RUN (R67). -/
def shadowShown (s : State) (u k : Nat) : Word :=
  let x := tile s (8 + u / 2)
  if x.st = .shadowRun then wdI (iget x.shVals k) else 0

/-- CTRL, unit u (R205). -/
def viewCtrl (s : State) (u o : Nat) : Option Word :=
  let x := munit s u
  let c := unitCfg s u
  let m := fun i => x.mir.getD i 0
  if o = 0x00 then some (wd (c.n + 256 * c.m + 65536 * c.p + 2 ^ 24 * c.q + 2 ^ 30 * b2n c.defined))
  else if o = 0x08 then
    some (wd (x.lateRun % 4 + 4 * b2n (holdOn s u) + 8 * b2n x.bank + 16 * b2n x.copying))
  else if o = 0x10 then some (wd (computeCyc c))
  else if o = 0x14 then some (wdI x.budget)
  else if o = 0x18 then some (wd x.coefSeq)
  else if 0x180 ≤ o ∧ o < 0x200 then
    some (match tlook c.slots ((o - 0x180) / 4) with
      | some t => wd (kindCode t.kind + 16 * t.index + 1024 * t.srcUnit
          + (if isCellKind t.kind then 2 ^ 14 * (t.age - 1) + 2 ^ 16 * t.shift else 0))
      | none => 0)
  else if o = 0xA000 then
    some (wd (b2n x.lateNow + 2 * b2n x.satNow + 4 * b2n x.limitNow + 8 * b2n x.staleNow + 16 * m 7 + 32 * m 6
      + 64 * (m 5 % 4) + 256 * b2n x.presetNow))
  else if o = 0xA004 then some (wdI x.slack)
  else if 0xA008 ≤ o ∧ o < 0xA01C then some (wd (m ((o - 0xA008) / 4)))
  else if 0xA080 ≤ o ∧ o < 0xA100 then some (wdI (iget x.x ((o - 0xA080) / 4)))
  else if 0xA100 ≤ o ∧ o < 0xA140 then some (wdI (iget x.u ((o - 0xA100) / 4)))
  else if 0xA140 ≤ o ∧ o < 0xA1C0 then some (wdI (iget x.ins ((o - 0xA140) / 4)))
  else if 0xA1C0 ≤ o ∧ o < 0xA200 then some (shadowShown s u (1024 + 64 * (u % 2) + (o - 0xA1C0) / 4))
  else if 0xA200 ≤ o ∧ o < 0xA280 then some (shadowShown s u (64 * (u % 2) + (o - 0xA200) / 4))
  else if 0xB000 ≤ o ∧ o < 0xE800 then some (fo s (aMu u (0x4000 + (o - 0xB000))))
  else if 0xE800 ≤ o ∧ o < 0xF600 then some (fo s (aMu u (0x8000 + (o - 0xE800))))
  else none

/-- MON (R379). -/
def viewMon (s : State) (o : Nat) : Option Word :=
  if o = 4 ∨ o = 8 then
    some (wd (maskOf 32 (fun b => (hist s (32 * (o / 8) + b)).accepting)))
  else if 0x1000 ≤ o ∧ o < 0x2000 then
    let h := hist s ((o - 0x1000) / 0x40)
    let w := o % 0x40
    if w = 0x08 then some (wd (b2n h.accepting + 2 * b2n h.final + 4 * b2n h.binFull + 8 * b2n h.sumFull))
    else if w = 0x0C then some (wdI h.min)
    else if w = 0x10 then some (wdI h.max)
    else if w = 0x18 ∨ w = 0x1C then some (half64 h.count (w % 8))
    else if w = 0x20 ∨ w = 0x24 then some (half64 (unsgn 64 h.sum) (w % 8))
    else none
  else if 0x10000 ≤ o ∧ o < 0x20000 then
    some (wd (tget dZero (hist s ((o - 0x10000) / 0x400)).bins (o % 0x400 / 4)))
  else none

/-- THERM (R380). -/
def viewTherm (s : State) (o : Nat) : Option Word :=
  let t := s.therm
  if o = 0x00 then
    some (wd (b2n (decide (t.f < 32768))
      + 2 * b2n ((List.range 8).any (fun n => fld (rd s (aTs n 0)) 0 2 != 0 && !(chan s n).valid))
      + 4 * b2n (t.dieOver != 0 || (List.range 8).any (fun n => (chan s n).overLim))))
  else if o = 0x08 then some (wd (t.f + 65536 * t.limiting))
  else if o = 0x10 then some (wd t.shNs)
  else if o = 0x14 then some (lo32 t.shSec)
  else if o = 0x18 then some (wd (t.shSec / 2 ^ 32 % 65536 + 65536 * t.shSensor + 2 ^ 18 * b2n t.shValid))
  else if o = 0x1C then some (wd (t.shReading + 65536 * t.shCount))
  else if 0x40 ≤ o ∧ o < 0x50 then
    let d := (o - 0x40) / 4
    some (wd (unsgn 16 (tget dZeroI t.die d) + 65536 * b2n (t.dieValid.testBit d)))
  else if 0x100 ≤ o ∧ o < 0x300 ∧ o % 0x40 = 0x04 then
    let x := chan s ((o - 0x100) / 0x40)
    some (wd (unsgn 16 x.temp + 2 ^ 16 * b2n x.valid + 2 ^ 17 * b2n x.isOpen + 2 ^ 18 * b2n x.short + 2 ^ 19 * b2n x.range))
  else if 0x100 ≤ o ∧ o < 0x300 ∧ o % 0x40 = 0x24 then some (chan s ((o - 0x100) / 0x40)).raw
  else if o = 0x850 then some (wdI t.hoCorr)
  else if 0x900 ≤ o ∧ o < 0x940 then some (wd (unitCfg s ((o - 0x900) / 4)).thrMap)
  else none

/-- The view of a register that has one. -/
def regView (s : State) (a : Nat) : Option Word :=
  let b := blockOf a
  let o := a - b.2
  match b.1 with
  | 0 => viewGlobal s o
  | 2 => viewDamask s o
  | 3 => viewOpq s o
  | 4 => viewIntc s o
  | 5 => viewTime s o
  | 6 => viewEth s (o / 0x1000) (o % 0x1000)
  | 7 => viewLink s (o / 0x1000) (o % 0x1000)
  | 8 => viewLink s (36 + o / 0x1000) (o % 0x1000)
  | 9 => viewMod s o
  | 10 => viewGorse s o
  | 11 => viewConv s o
  | 12 => viewMeas s o
  | 13 => viewMeter s o
  | 14 => viewCtrl s (o / 0x10000) (o % 0x10000)
  | 15 => viewMon s o
  | 16 => viewTherm s o
  | 17 => if o = 0 then some (rd s 0) else none
  | _ => none

/-- The word that a read of aligned address a returns, before captures (R11) and without side effects (R13). -/
def readWord (s : State) (a : Nat) : Word :=
  match regView s a with
  | some w => w
  | none => if (regInfo a).acc = .wo then 0 else rd s a

end Sys2Proof.Machine
end

