-- ==== Sys2Proof/Machine/HostRead.lean ====
section
/-! DEFINITION. Reads with their side effects (R11, R13, R236, R243, R244, R262, R267, R279, R329, R335, R336): rows 37, 110,
113, 121, 124, 125, 165. -/

namespace Sys2Proof.Machine

open Sys2Proof

/-! The service map (R341). -/

/-- The service port holds address a: a mirrored register or the service block. -/
def svcHolds (a : Nat) : Bool := a % 4 == 0 && svcMirrored a

/-! Captures (R11, R267). -/

/-- Low word of a 64-bit register. -/
def is64Low (a : Nat) : Bool :=
  let b := blockOf a
  let o := a - b.2
  match b.1 with
  | 0 => hit o 0x180 8 8
  | 7 => o % 0x1000 == 0x38
  | 8 => o % 0x1000 == 0x38
  | 13 => o == 0x34 || hit o 0x1000 8 192 || hit o 0x3040 8 4
  | 15 => hit o 0x1018 0x40 64 || hit o 0x1020 0x40 64
  | _ => false

/-- Captures are private to an interface: those of the service port stand 2^24 higher. -/
def capKey (i : Iface) (a : Nat) : Nat := a + (match i with | .host => 0 | .svc => 2 ^ 24)

def dCap (_ : Nat) : Option Word := none

/-- The interface takes a capture of the register at a. -/
def capSet (i : Iface) (a : Nat) (w : Word) (s : State) : State :=
  modHost (fun h => { h with caps := tset dCap h.caps (capKey i a) (some w) }) s

/-- The captures that a read of address a takes. -/
def captures (i : Iface) (a : Nat) (s : State) : State :=
  if a = aTimeNs then capSet i 0x50018 (readWord s 0x50018) (capSet i 0x50014 (readWord s 0x50014) s)
  else if is64Low a then capSet i (a + 4) (readWord s (a + 4)) s
  else s

/-- A register that captures are of: the high word of a 64-bit register, TIME_S_LO and TIME_S_HI. -/
def isCaptured (a : Nat) : Bool := a == 0x50014 || a == 0x50018 || (decide (4 ≤ a) && is64Low (a - 4))

/-- The captured word of address a, if the interface holds one. -/
def captured (i : Iface) (a : Nat) (s : State) : Option Word :=
  if isCaptured a then tget dCap s.host.caps (capKey i a) else none


/-! Side effects. -/

/-- Bits that a read clears, beside whole RC registers: NEW of a spot value, a capture, a PPS_IN stamp. -/
def rcBits (a : Nat) : Word :=
  if (regInfo a).acc = .rc then wd 0xFFFFFFFF
  else if hit a 0x1C0100 4 16 then wd 0x10000
  else if hit a 0x1C0808 16 8 then wd 0x400000
  else if a = aPpsInHi then wd 0x10000
  else 0

/-- The OVR bit beside a NEW bit that a read clears (R243, R262, R279). -/
def ovrBit (a : Nat) : Word :=
  if hit a 0x1C0100 4 16 then wd 0x20000
  else if hit a 0x1C0808 16 8 then wd 0x800000
  else if a = aPpsInHi then wd 0x20000
  else 0

/-- The live word that a read of a returns: where an event of this tick coincides with a read that clears, the word from
before it (R15, R244). -/
def readLive (a : Nat) (s : State) : Word :=
  match eventNow s a with
  | some e => if rcBits a = 0 then readWord s a else e.before
  | none => readWord s a

/-- What a read returns. -/
def readData (i : Iface) (a : Nat) (s : State) : Word := (captured i a s).getD (readLive a s)

/-- What a read leaves of a register: the events of this tick come after it, so a count of theirs stays, NEW stays set, and
OVR does not set for the value that was read (R15, R244). -/
def afterRead (a : Nat) (s : State) : Word :=
  match eventNow s a with
  | none => rd s a &&& ~~~(rcBits a)
  | some e =>
    (rd s a &&& ~~~(rcBits a) &&& ~~~(if e.count ≤ 1 then ovrBit a else 0)) ||| (e.set &&& rcBits a)
      ||| (e.before &&& ovrBit a)

/-- The entry of a trip record or of the Bracken ring counts as read (R236, R329). -/
def readMarks (i : Iface) (a : Nat) (s : State) : State :=
  if hit a 0x18101C 32 32 then
    modGorse (fun g => { g with recRead := g.recRead ||| 2 ^ ((a - 0x18101C) / 32) }) s
  else if i = .host ∧ hit a 0x1F409C 32 120 = true then
    let k := (a - 0x1F409C) / 32
    modBr (fun b => { b with unread := if b.unread.testBit k then b.unread ^^^ 2 ^ k else b.unread }) s
  else s

/-- A read of the register at a by an interface. -/
def readReg (i : Iface) (a : Nat) (s : State) : State :=
  let s1 := captures i a s
  let s2 := if (captured i a s).isSome then
      modHost (fun h => { h with caps := tset dCap h.caps (capKey i a) none }) s1
    else s1
  let s3 := if rcBits a = 0 then s2 else wr a (afterRead a s2) s2
  readMarks i a s3

/-! BAR0 (R335). -/

/-- A refused or discarded BAR0 access. -/
def accessErr (s : State) : State := globalStick 0 (cntSat aAccessErrCnt 1 s)

def setResult (r : BusResult) (s : State) : State := modHost (fun h => { h with result := r }) s

/-- The addressed byte lanes of a word. -/
def lanes (w : Word) (o len : Nat) : Word := wd (natFld w.toNat (8 * o) (8 * len))

/-- A word of the configuration header (R334): Vendor and Device ID; Revision ID and class code; the subsystem IDs. -/
def cfgWord (o : Nat) : Word :=
  if o = 0x00 then wd (0x1F6B + 65536 * 0x3616)
  else if o = 0x08 then wd (partKind % 256 + 256 * 0x118000)
  else if o = 0x2C then 0
  else Config.cfgOther o

/-- A configuration read. It reaches no register and restarts no watchdog (R346). -/
def cfgRead (o len : Nat) (s : State) : State :=
  if o % 4 + len ≤ 4 then setResult (.data (lanes (cfgWord (o - o % 4)) (o % 4) len)) s else s

/-- A BAR0 read of len bytes at addr. Addresses from 0x40_0000 are not in BAR0: those up to 0x40_0FFF stand for the offsets of
configuration space (R334). -/
def hostRead (addr len : Nat) (s : State) : State :=
  if 0x401000 ≤ addr then s
  else if 0x400000 ≤ addr then cfgRead (addr - 0x400000) len s
  else if len = 0 ∨ 4 < addr % 4 + len then setResult .unsupported (accessErr s)
  else
    let a := addr - addr % 4
    setResult (.data (lanes (readData .host a s) (addr % 4) len)) (readReg .host a s)

/-- A service read with a valid CRC: performed where the map holds the address, otherwise ADDR_SEEN (R340, R341, R346). -/
def svcReadAt (a : Nat) (s : State) : State :=
  let s0 := svcAccess s
  if svcHolds a then svcDone (readReg .svc a s0) else stick (aSvc 0x10) 4 none s0

/-- A read of a whole register by an interface; the service port reads only what its map holds. -/
def ifaceRead (i : Iface) (a : Nat) (s : State) : State :=
  match i with
  | .host => hostRead a 4 s
  | .svc => svcReadAt a s

/-- Row 110: word 7 of trip record r is read. -/
def doTripRecRead (i : Iface) (r : Nat) (s : State) : State := ifaceRead i (0x18101C + 32 * r) s

def execTripRecRead (i : Iface) (r : Fin 32) (s : State) : Host.Outcome State Fault Refusal := .next (doTripRecRead i r s)

/-- Row 113: ADCn_DATA is read; a capture that lands in the same cycle comes after the read and sets no OVR (R244). -/
def doAdcDataRead (n : Nat) (landing : Option (BitVec 22)) (s : State) : State :=
  let s1 := hostRead (aAdcData n) 4 s
  match landing with
  | none => s1
  | some d => landWord (aAdcData n) (wd 0x10000) ((rd s1 (aAdcData n) &&& wd 0x20000) ||| wd (d.toNat &&& 0x3CFFFF) ||| wd 0x10000) s1

def execAdcDataRead (n : ConvNo) (landing : Option (BitVec 22)) (s : State) : Host.Outcome State Fault Refusal :=
  .next (doAdcDataRead n landing s)

/-- Row 121: CAPk_S_HI is read. -/
def doCapRead (i : Iface) (k : Nat) (s : State) : State := ifaceRead i (aCap k 8) s

def execCapRead (i : Iface) (k : Fin 8) (s : State) : Host.Outcome State Fault Refusal := .next (doCapRead i k s)

/-- Row 124: the low word of a 64-bit register is read. -/
def doReg64LowRead (i : Iface) (addr : Nat) (s : State) : State := if is64Low addr then ifaceRead i addr s else s

def execReg64LowRead (i : Iface) (addr : BitVec 24) (s : State) : Host.Outcome State Fault Refusal :=
  .next (doReg64LowRead i addr.toNat s)

/-- Row 125: TIME_NS is read. The service map does not hold it. -/
def doTimeNsRead (i : Iface) (s : State) : State := ifaceRead i aTimeNs s

def execTimeNsRead (i : Iface) (s : State) : Host.Outcome State Fault Refusal := .next (doTimeNsRead i s)

/-- Row 165: a register is read, RC or other. -/
def doRcRead (i : Iface) (addr len : Nat) (s : State) : State :=
  match i with
  | .host => hostRead addr len s
  | .svc => ifaceRead .svc addr s

def execRcRead (i : Iface) (addr : BitVec 24) (len : Nat) (s : State) : Host.Outcome State Fault Refusal :=
  .next (doRcRead i addr.toNat len s)

/-! BAR2 (R336). -/

/-- Row 37: a BAR2 read, through ECC. -/
def doBar2Read (off len : Nat) (ecc : Ecc) (s : State) : State :=
  match ecc with
  | .clean => setResult (.bytes (dramAt s off (min len (dramSize - off)))) s
  | .corrected =>
    globalStick 1 (cntSat aDramCeCnt 1 (setResult (.bytes (dramAt s off (min len (dramSize - off)))) s))
  | .uncorrectable => globalStick 2 (setResult .poisoned s)

def execBar2Read (off : BitVec 27) (len : Nat) (ecc : Ecc) (s : State) : Host.Outcome State Fault Refusal :=
  .next (doBar2Read off.toNat len ecc s)

end Sys2Proof.Machine
end

