-- ==== Sys2Proof/Machine/TwillProto.lean ====
section
/-! DEFINITION. Twill and Wozin operating superframes, latency, block runs and the cascade (R131 to R159; rows 58, 72 to
78, 84 to 86). -/

namespace Sys2Proof.Machine

open Sys2Proof

/-! K28.3 and K28.6. -/

/-- Row 77: K28.3 is received on a link (R137, R210, R211). -/
def doK283Rx (l : Nat) (s : State) : State :=
  bAssert (36 + l) none (setLive (36 + l) true (protoStick l 2 s))

def execK28_3Rx (l : TwillNo) (s : State) : Host.Outcome State Fault Refusal := .next (doK283Rx l s)

/-- The 16 µs after the device's own EN rising edge (R157). -/
def wzHoldOff (s : State) : Bool := match s.gorse.enRiseAt with | some t => decide (s.tick - t < 6400) | none => false

/-- Row 85: K28.6 on a Wozin port (R157). -/
def doWzTrip (port : Nat) (s : State) : State :=
  if wzHoldOff s then s
  else bAssert (188 + port) none
    (setLive (188 + port) true (modLink (36 + port) (fun x => { x with wzTripSeen := true }) s))

def execWzTrip (port : Fin 2) (s : State) : Host.Outcome State Fault Refusal := .next (doWzTrip port s)

/-- Row 86: DCK is lost on a LINKED Wozin port, or UP_LOSS sets (R157). -/
def doWzLink (port : Nat) (s : State) : State :=
  if (link s (36 + port)).st = .linked then bRise (190 + port) s else s

def execWzLink (port : Fin 2) (s : State) : Host.Outcome State Fault Refusal := .next (doWzLink port s)

/-- Upstream symbols of a link reach a receiver that takes them in: not in the near-end loops, and with DCK running (R124, R127). -/
def hears (x : Link) : Bool := x.dck && !nearLoop x && (inBringUp x.st || x.st == .linked || x.st == .loopback)

/-- Row 58: K28.3 at any position of it is received like any other (R137). -/
def execTrainingBlockRx (l : LinkNo) (groups : List (BitVec 10)) (s : State) : Host.Outcome State Fault Refusal :=
  let x := link s l
  let k3 := (rxSyms x groups).1.any (fun y => symK y == some .k28_3)
  let s1 := doTrainingBlockRx l groups s
  .next (if k3 && decide (l.val < 36) && x.upLock && hears x then doK283Rx l s1 else s1)

/-! Row 72: a downstream superframe starts. -/

/-- ASYM_TRIM moves d_n by the difference (R159). -/
def trimApply (l : Nat) (s : State) : State :=
  match (link s l).trimPend with
  | some t => rangeUpdate (modLink l (fun x => { x with dU := x.dU + (t - x.trim) * unitsPerPs, trim := t, trimPend := none }) s)
  | none => s

/-- Position of the symbol 0 that begins now, in taps on the clock that carries the link: the nearest one that lies LAUNCH_OFS DCK cycles
before an instant of the arrival grid, whose instants are 512 ns apart from the divider release (R150). -/
def launchPos (s : State) (l : Nat) : Int :=
  let x := link s l
  let base : Int := 100 * s.clock.releaseAt - x.launchOfs * dckTaps x.rate
  base + 20480 * roundQ ((linkPhase s l (100 * s.tick) - base) / 20480)

/-- A true time, as a position in taps after the arrival of symbol 0 of the superframe that follows the one at launch, on the clock that
the other end sees (R91, R139, R156). -/
def offsetOf (s : State) (l : Nat) (launch : Int) (b : Nat) : Int :=
  roundQ (linkPhase s l (b - latTaps s l)) - (launch + frameTaps (link s l).rate)

/-- OFFSET and OFINE. An instant before that arrival has no code (DESIGN CHOICE, log entry 21). -/
def offsetCode (i : Int) : Nat := if 0 ≤ i then i.toNat % 2 ^ 28 else Config.offsetBefore i % 2 ^ 28

/-- The training block that this end sends (R115, R119 to R121, R123, R125). An inbound port accepts a TARGET with ACK; REQ stays set
during the countdown, and COUNTDOWN is 0 outside it (DEDUCED, log entry 139). -/
def blockOut (s : State) (l : Nat) : TrainBlock :=
  let x := link s l
  let inb := wzInbound s l && x.st != .loopback
  let switching := x.st == .rateSwitch && (x.stage == .request || x.stage == .countdown)
  let ack := inb && x.stage == .countdown
  { state := ltCode x.st, rate := x.rate
    target := if ack || (switching && !inb) then x.target else x.rate
    flags := b2n (switching && !inb) + 2 * b2n ack + 4 * b2n (x.st == .check) + 8 * b2n (x.st == .loopback && x.loop == 3)
      + 16 * (if inb then 0 else x.countdown.getD 0)
    cap := localCap s l, errs := x.checkErr, seq := x.txSeq }

/-- GRID of clock group g: its next boundary and the period from there (R156). -/
def gridOf (s : State) (g : Nat) : GridMsg × Nat :=
  ({ cg := g, bcount := ((group s g).boundary + 1) % 2 ^ 32, period := comingPeriod s g }, nextTap s g)

/-- The groups of a rotation: those whose period changes at the next boundary come first (R156). -/
def gridRotation (s : State) : List Nat :=
  let gs := (List.range 8).filter (fun g => s.present.testBit g && (group s g).started)
  let new := fun (g : Nat) => comingPeriod s g != periodOf s g
  gs.filter new ++ gs.filter (fun g => !new g)

/-- A GRID message timed for the superframe at launch (R156). -/
def gridTimed (s : State) (l : Nat) (launch : Int) (m : GridMsg × Nat) : GridMsg :=
  let o := offsetCode (offsetOf s l launch m.2)
  { m.1 with offset := o / 16, ofine := o % 16 }

/-- The GRID of one superframe of an outbound Wozin port: a leader sends its groups in rotation, a follower relays (R156). -/
def gridSend (l : Nat) (launch : Int) (s : State) : State :=
  let x := link s l
  if isWz l && !wzInbound s l && x.st == .linked then
    (if s.damask.wzRole = 1 ∧ s.damask.imageValid = true then
      match (if x.gridTodo.isEmpty then gridRotation s else x.gridTodo) with
      | g :: rest => modLink l (fun y => { y with gridTodo := rest, gridOut := some (gridTimed s l launch (gridOf s g)) }) s
      | [] => modLink l (fun y => { y with gridTodo := [], gridOut := none }) s
    else
      modLink l (fun y => { y with gridq := y.gridq.drop 1, gridOut := y.gridq.head?.map (gridTimed s l launch) }) s)
  else modLink l (fun y => { y with gridTodo := [], gridOut := none }) s

/-- A queued message timed for the superframe at launch: BOUNDARY takes its OFFSET from it (R139, R150). -/
def msgTimed (s : State) (l : Nat) (launch : Int) (m : TxMsg) : Msg :=
  match m.msg with
  | .boundary t k _ _ d f => let o := offsetCode (offsetOf s l launch m.atTap); .boundary t k (o / 16) (o % 16) d f
  | y => y

/-- Symbol 1 of an operating superframe (R36, R128, R131, R157). -/
def controlSym (s : State) (l : Nat) : KCode :=
  let block := if isWz l then s.dev == .tripped else (link s l).outside || !outputsLive s
  if block then .k28_6 else .k28_0

/-- FLAGS of a downstream header, and header bytes 5 to 7 of a Wozin port: POSITION, STATE, EN_LOW and TRIP_LATCHED, which shows that
FAULT_LATCH holds a source (R132, R155; log entry 139). -/
def headOut (s : State) (l : Nat) : List Byte :=
  let x := link s l
  if isWz l then
    headerBytes x.txSeq x.peerSeq 0 [byt s.damask.wzPosition, byt (devCode s.dev), byt (b2n (!s.gorse.en) + 2 * b2n (s.gorse.latch != 0))]
  else headerBytes x.txSeq x.peerSeq (b2n (x.blk || x.outside) + 2 * b2n (bit (rd s (aLink l 0x100)) 0)) []

/-- The operating superframe at launch: a message to a payload group, eight at most (R131, R134, R142). -/
def opOut (s : State) (l : Nat) (launch : Int) : List Sym :=
  let x := link s l
  opFrame (controlSym s l) (headOut s l)
    (if isWz l then x.gridOut.toList.map gridBytes
     else (x.txq.take 8).map (fun m => msgBytes (bit x.partnerCap 14) (msgTimed s l launch m)))

/-- The symbols of the superframe that begins: those of a block run (R136), of the rest of a Wozin block run and an operating superframe
after it (R157), of an operating superframe in LINKED, else of a training superframe (R114). An inbound port in a far-end loop returns
what it received last (R125). -/
def frameOut (s : State) (l : Nat) (launch : Int) (prbs : List Byte) : List Sym :=
  let x := link s l
  if x.txBlock then blockFrame
  else if x.st = .linked then
    (let f := opOut s l launch
     if x.wzRun = 0 then f else blockFrame.take x.wzRun ++ f.drop x.wzRun)
  else if x.farLoop then x.lastRx
  else trainFrame (if wzInbound s l && x.st != .loopback then .k28_0 else .k28_6) (blockBytes (blockOut s l)) prbs

/-- The counters of a link move to the superframe that begins (R112, R121, R133, R136, R157). -/
def frameCount (l : Nat) (s : State) : State :=
  modLink l (fun x => { x with
    downSlip := (x.downSlip + x.downSlipPend) % 10, downSlipPend := 0, wzRun := x.wzRun - 256, runFrames := x.runFrames + 1
    frames := x.frames + 1
    countdown := if x.st == .rateSwitch && x.stage == .countdown then some (match x.countdown with | some n => n - 1 | none => 15)
      else x.countdown }) s

/-- The superframe that begins is formed and sent (R103, R114, R131, R150). -/
def frameSend (l : Nat) (s0 : State) : State :=
  let launch := launchPos s0 l
  let s := gridSend l launch s0
  let prbs := prbsRun 238 (link s l).prbsTx
  let f := frameOut s l launch prbs.1
  modLink l (fun x => { x with
    frame := f, frameRd := x.txRd, txRd := (lineOf x.txRd f).2, frameAt := s.tick, launchM := launch, prbsTx := prbs.2
    txSeq := (x.txSeq + 1) % 65536, ownCheck := x.ownCheck || x.st == .check
    txq := if x.st = .linked ∧ x.txBlock = false then x.txq.drop 8 else [] }) s

/-- The groups of the superframe on the line (R109). -/
def frameGroups (x : Link) : List (BitVec 10) := (lineOf x.frameRd x.frame).1

/-- Row 72 (R103, R112, R114, R117, R121, R124, R131 to R136, R150, R153, R156, R157, R159): the superframe is sent, a near-end loop
receives it, and a cell end whose DCK runs takes it in. -/
def doDownstreamSuperframeStart (l : Nat) (s : State) : State :=
  let s0 := trimApply l s
  let x := link s0 l
  if x.dck || x.st == .loopback then
    let s1 := frameSend l (frameCount l s0)
    let f := (link s1 l).frame
    if nearLoop x then (let r := trainRx l f s1; loopRx l r.1 r.2)
    else if isWz l then s1
    else modCell l (cellFrame (x.st != .linked && !x.txBlock) f) s1
  else s0

def execDownstreamSuperframeStart (l : LinkNo) (s : State) : Host.Outcome State Fault Refusal :=
  .next (doDownstreamSuperframeStart l s)

/-! Row 73: an upstream superframe. -/

/-- A CELL_REPORT is accepted (R143, R145, R190, R363). -/
def cellReport (l : Nat) (b : List Byte) (s : State) : State :=
  let tag := (byteAt b 1).toNat
  let vdc := leAt b 2 2
  let st := (byteAt b 6).toNat
  let s1 := modLink l (fun x => { x with
    cell := { x.cell with cmdMiss := false, lateHalf := false }
    rpt0 := wd (leAt b 2 4), rpt1 := wd (tag + 256 * st + 65536 * (leAt b 7 2 % 4096)), rpt2 := wd (byteAt b 9).toNat
    reports := (tag, vdc, sgn 16 (leAt b 4 2)) :: x.reports.filter (fun r => r.1 != tag) }) s
  histFeed 8 l vdc (if st.testBit 3 || st.testBit 4 then protoStick l 4 s1 else s1)

/-- A GRID message on a port (R156). It is received as the next superframe arrives, from which its OFFSET counts (DEDUCED, log entry
139): the boundary lies there in true time. -/
def doGrid (port cg bcount off period : Nat) (s : State) : State :=
  let l := 36 + port
  let g := group s cg
  let at_ := 100 * s.tick + off
  if s.damask.wzRole != 2 || !s.damask.imageValid || !wzInbound s l then s
  else
    let relay := fun (s : State) => if port = 1 ∧ (link s 36).st = .linked ∧ wzInbound s 36 = false then
        modLink 36 (fun x => { x with gridq := x.gridq ++ [({ cg := cg, bcount := bcount, period := period }, at_)] }) s else s
    let last := (bcount + 2 ^ 32 - 1) % 2 ^ 32
    if !s.present.testBit cg then relay s
    else if g.started then
      relay (modGroup cg (fun x => { x with
        gridPeriod := some period, gridAt := some at_, boundary := x.boundary / 2 ^ 32 * 2 ^ 32 + last }) s)
    else if g.gridBad then relay s
    else if period = fld (fo s (aCgPeriod cg)) 0 24 then
      relay (modGroup cg (fun x => { x with gridPeriod := some period, gridAt := some at_ }) (groupCreate cg last (at_ - 16 * period) s))
    else relay (protoStick l 6 (modGroup cg (fun x => { x with gridBad := true }) s))

def execGrid (port : Fin 2) (cg : GroupNo) (bcount : Word) (offset : BitVec 24) (ofine : Fin 16) (period : BitVec 24)
    (s : State) : Host.Outcome State Fault Refusal :=
  .next (doGrid port cg bcount.toNat (16 * offset.toNat + ofine.val) period.toNat s)

/-- A message of a payload group (R144, R145, R156). -/
def upMsg (l : Nat) (m : UpMsg) (s : State) : State :=
  match m with
  | .cellReport b => cellReport l b s
  | .diagResult b => modLink l (fun x => { x with
      cell := { x.cell with diagOut := x.cell.diagOut.drop 1 }
      diagRpt := wd (leAt b 4 3 + 2 ^ 24 * (byteAt b 3).toNat), diagWait := false }) s
  | .grid b => doGrid (l - 36) (leAt b 1 1 % 8) (leAt b 2 4) (16 * leAt b 6 3 + leAt b 9 1 % 16) (leAt b 10 3) s

/-- One payload group (R134). -/
def payloadGroup (l : Nat) (syms : List Sym) (j : Nat) (s : State) : State :=
  match readStretch syms (16 + 30 * j) 30 with
  | .preempt => cntSat (aLink l 0x128) 1 s
  | .crcBad => cntSat (aLink l 0x120) 1 s
  | .good b => (groupMsgs (isWz l) 28 b).foldl (fun s m => upMsg l m s) s

/-- The header (R132, R133, R155). -/
def headerRx (l : Nat) (syms : List Sym) (s : State) : State :=
  match readStretch syms 3 13 with
  | .preempt => s
  | .crcBad => cntSat (aLink l 0x120) 1 s
  | .good b =>
    let seq := leAt b 0 2
    let f := byteAt b 4
    let gap := match (link s l).rxSeq with | some p => (seq + 131071 - p) % 65536 | none => 0
    let s1 := if gap = 0 then s else cntSat (aLink l 0x124) gap s
    let s2 := modLink l (fun x => { x with
      rxSeq := some seq, peerSeq := seq, cellBlocked := f.getLsbD 0 && !isWz l, cellFault := f.getLsbD 1 && !isWz l
      lastFaultFlag := f.getLsbD 1, lastIdle := kAt syms 1 .k28_0 }) s1
    if isWz l then
      let en := (byteAt b 7).toNat
      let pos := (byteAt b 5).toNat
      let s3 := modLink l (fun x => { x with
        wzPos := pos, wzPeer := wd (pos % 8 + 16 * ((byteAt b 6).toNat % 8) + 256 * (en % 4))
        wzEnLowAt := if en.testBit 0 then some s.tick else x.wzEnLowAt }) s2
      if s.damask.imageValid && (wzPosBad s3 s.damask.wzPosition).contains l then protoStick l 5 s3 else s3
    else s2

/-- The true time of TURNAROUND in taps, of the phase that the cell end saw (R91, R147). The superframe that is received left t8
eighths of a ps and 254 symbols ago. An inbound port declares a turnaround of 0 (R154). -/
def turnTaps (s : State) (l t8 : Nat) : Rat :=
  let x := link s l
  trueSpan s l (100 * s.tick - 254 * symTaps x.rate - mkRat t8 200) (fld x.partnerCap 16 8 * symTaps x.rate : Nat)

/-- Symbol 2: an echo gives a sample of T_n, or is missing (R147, R363). -/
def echoRx (l : Nat) (syms : List Sym) (t8 : Nat) (s : State) : State :=
  if kAt syms 2 .k28_1 then
    let more := (link s l).tCnt < 2 ^ fld (rd s (aLink l 0x100)) 4 4
    let tau := turnTaps s l t8
    histFeed 1 l (freeDiv 363 t8 8) (modLink l (fun x => { x with
      tSum := if more then x.tSum + t8 else x.tSum, tauSum := if more then x.tauSum + tau else x.tauSum
      tCnt := if more then x.tCnt + 1 else x.tCnt, echoMiss := 0 }) s)
  else modLink l (fun x => { x with echoMiss := x.echoMiss + 1 }) (cntSat (aLink l 0x12C) 1 s)

/-- A header with a valid CRC stands in symbols 3 to 15. -/
def headGood (syms : List Sym) : Bool := match readStretch syms 3 13 with | .good _ => true | _ => false

/-- The symbols of an operating superframe on a link that hears: errors, K-codes, header, echo and payload groups (R109, R131 to R137,
R143 to R147, R155, R157). -/
def opRx (l : Nat) (syms : List Sym) (t8 : Nat) (s : State) : State :=
  let wz := isWz l
  let s1 := modLink l (fun x => { x with
    markerRun := if kAt syms 0 .k28_5 then 0 else x.markerRun, cell := { x.cell with k3Run := 0 } })
    (countCodes l (codeErrs wz syms) (dispErrs syms) s)
  let hit := syms.any (fun y => symK y == some (if wz then .k28_6 else .k28_3))
  let s2 := if wz then (if hit then doWzTrip (l - 36) s1 else setLive (152 + l) false s1)
    else if hit then doK283Rx l s1 else setLive (36 + l) false s1
  forEach (List.range 8) (payloadGroup l syms) (echoRx l syms t8 (headerRx l syms s2))

/-- Row 73; an inbound Wozin port is LINKED from the first operating superframe on. -/
def doUpstreamSuperframeRx (l : Nat) (groups : List (BitVec 10)) (t8 : Nat) (s0 : State) : State :=
  if nearLoop (link s0 l) then s0
  else
    let y := rxSyms (link s0 l) groups
    let s1 := markerMark l (kAt y.1 0 .k28_5) s0
    let s := if wzInbound s1 l && inBringUp (link s1 l).st && headGood y.1 then enterLinked false l s1 else s1
    let x := link s l
    if x.st = .linked ∧ x.upLock = true ∧ x.dck = true then opRx l y.1 t8 (modLink l (fun x => { x with rxRd := some y.2 }) s)
    else s

def execUpstreamSuperframeRx (l : LinkNo) (groups : List (BitVec 10)) (t8 : Nat) (s : State) :
    Host.Outcome State Fault Refusal := .next (doUpstreamSuperframeRx l groups t8 s)

/-! Latency: rows 74 to 76. -/

/-- Row 74: 64 echoes in a row are missing (R149). -/
def doEchoLoss (l : Nat) (s : State) : State := if 64 ≤ (link s l).echoMiss then latClear true l s else s

def execEchoLoss (l : LinkNo) (s : State) : Host.Outcome State Fault Refusal := .next (doEchoLoss l s)

/-- τ_n in units of 1/64,000,000,000 ps: the mean of its true times over the samples of the average (R91, R147). -/
def tauU (s : State) (l : Nat) : Int :=
  let x := link s l
  (x.tauSum * 25 * unitsPerPs / x.tCnt).floor

def avgCount (s : State) (l : Nat) : Nat := 2 ^ fld (rd s (aLink l 0x100)) 4 4

/-- The estimate of R148 from a complete average. -/
def estimate (s : State) (l : Nat) : Int :=
  ((link s l).tSum * unitsPerPs / (8 * (link s l).tCnt : Int) - tauU s l) / 2 + (link s l).trim * unitsPerPs

/-- Acquisition: four estimates in a row within 400 ps of each other (R148, R150). -/
def latAcquire (l : Nat) (est : Int) (s : State) : State :=
  let es := (est :: (link s l).ests).take 4
  if es.length = 4 ∧ es.foldl max est - es.foldl min est ≤ 400 * unitsPerPs then
    let d := es.foldl (· + ·) 0 / 4
    let dck := 6400 / 2 ^ (link s l).rate
    modLink l (fun x => { x with
      dU := d, latValid := true, ests := [], unstableRun := 0, unstableNow := false, latAt := s.tick
      launchOfs := if x.launchOfs = 0 then ((d + dck * unitsPerPs - 1) / (dck * unitsPerPs)).toNat % 65536 else x.launchOfs }) s
  else modLink l (fun x => { x with ests := es }) s

/-- Tracking, with the slew limit of 50 ps/s (R148). -/
def latTrack (l : Nat) (est : Int) (s : State) : State :=
  let x := link s l
  let lim : Int := 8000 * (s.tick - x.latAt : Nat)
  let d := x.dU + clampI (-lim) lim (est - x.dU)
  let off := decide ((est - d).natAbs > (400 * unitsPerPs).toNat)
  let run := if off then x.unstableRun + 1 else 0
  if 16 ≤ run then
    protoStick l 0 (modLink l (fun x => { x with dU := est, unstableRun := 0, unstableNow := false, latAt := s.tick }) s)
  else modLink l (fun x => { x with dU := d, unstableRun := run, unstableNow := off, latAt := s.tick }) s

/-- Row 75 (R147 to R150). -/
def doLatencyUpdate (l : Nat) (s : State) : State :=
  let x := link s l
  if x.st = .linked ∧ x.dck = true ∧ avgCount s l ≤ x.tCnt then
    let est := estimate s l
    let s1 := if x.latValid then latTrack l est s else latAcquire l est s
    let s2 := modLink l (fun y => { y with
      tSum := 0, tauSum := 0, tCnt := 0, rttPs := (freeDiv 147 x.tSum (8 * x.tCnt)).toNat
      turnPs := (freeDiv 148 (tauU s l) 64000000000).toNat }) s1
    rangeUpdate s2
  else s

def execLatencyUpdate (l : LinkNo) (s : State) : Host.Outcome State Fault Refusal := .next (doLatencyUpdate l s)

/-- Row 76: a write of ASYM_TRIM (R159). -/
def doAsymTrimWrite (l : Nat) (v : Word) (s : State) : State :=
  let a := aLink l 0x104
  let w := clampReg a v
  modLink l (fun x => { x with trimPend := some (sgn 16 (fld w 0 16)) }) (wr a w (clampSeen a v s))

def execAsymTrimWrite (l : LinkNo) (v : Word) (s : State) : Host.Outcome State Fault Refusal :=
  .next (doAsymTrimWrite l v (hostAccess s))

/-- Row 78: DCK stops at the end of the first superframe that has begun since the block run did, and so ends at least 256 symbols after
its beginning (R105, R127, R136). -/
def doDckStop (l : Nat) (s : State) : State :=
  let x := link s l
  if x.dck && x.stopDue && x.runFrames != 0 then dckOff l s else s

def execDckStop (l : LinkNo) (s : State) : Host.Outcome State Fault Refusal := .next (doDckStop l s)

end Sys2Proof.Machine
end

