-- ==== Sys2Proof/Machine/HostWrite.lean ====
section
/-! DEFINITION. Writes of registers by the host and the service port, BAR2 writes, service-port transactions, vectors and
watchdogs (R12 to R17, R27, R171, R335, R336, R338 to R348): rows 36, 164, 167 to 176. -/

namespace Sys2Proof.Machine

open Sys2Proof

/-! Vectors (R343, R344). -/

/-- An enabled source routed to vector v has its status bit set. -/
def vecWaits (s : State) (v : Nat) : Bool :=
  (List.range 118).any (fun n => bit (rd s (aSrcStatus (n / 32))) (n % 32) && bit (rd s (aSrcEn (n / 32))) (n % 32)
    && fld (rd s (aSrcRoute n)) 0 6 == v)

/-- Nanoseconds from the vector's stamp to now. -/
def stampAge (s : State) (v : Nat) : Int :=
  let w := fun (o : Nat) => (rd s (0x50800 + 16 * v + o)).toNat
  ((s.time.sec * 1000000000 + s.time.ns : Nat) : Int) - (((w 4 + 2 ^ 32 * (w 8 % 65536)) * 1000000000 + w 0 : Nat) : Int)

/-- VEC_ACK of vector v: the episode ends, the PBA bit clears, the stamp is rearmed; with a source still set the vector
is pending again at once (R343, R363). -/
def vecAckOne (v : Nat) (s : State) : State :=
  let was := s.host.vecPend.testBit v
  let s0 := if was then histFeed 4 v (stampAge s v) s else s
  let s1 := modTime (fun t => { t with stampHeld := t.stampHeld &&& (2 ^ 64 - 1 - 2 ^ v) }) s0
  let s2 := modHost (fun h => { h with vecPend := h.vecPend &&& (2 ^ 64 - 1 - 2 ^ v)
                                       pba := h.pba &&& (2 ^ 64 - 1 - 2 ^ v) }) s1
  if was && vecWaits s2 v then vecRaise v s2 else s2

/-- Row 171: a write of VEC_ACK_LO or VEC_ACK_HI. -/
def doVecAck (hi : Bool) (v : Word) (s : State) : State :=
  forEach (bitsOf 32 v.toNat) (fun b s => vecAckOne (b + 32 * b2n hi) s) s

def execVecAck (hi : Bool) (v : Word) (s : State) : Host.Outcome State Fault Refusal := .next (doVecAck hi v (hostAccess s))

/-- A pending vector that is unmasked sends the message that its PBA bit held back. -/
def vecSend (v : Nat) (s : State) : State :=
  if s.host.msixOn && s.host.pba.testBit v && !bit (rd s (aMsixCtl v)) 0 then
    modHost (fun h => { h with pba := h.pba &&& (2 ^ 64 - 1 - 2 ^ v), msgs := tmod dZero h.msgs v (· + 1) }) s
  else s

/-- Row 172: the host enables MSI-X; vectors of set and enabled sources become pending (R344). -/
def doMsixEnable (s : State) : State :=
  forEach (List.range 64) (fun v s =>
    if !s.host.vecPend.testBit v && vecWaits s v then vecRaise v s else vecSend v s)
    (modHost (fun h => { h with msixOn := true }) s)

def execMsixEnable (s : State) : Host.Outcome State Fault Refusal := .next (doMsixEnable s)

/-- A write of the MSI-X table. -/
def msixWrite (a : Nat) (v : Word) (s : State) : State :=
  let s1 := wr a (clampReg a v) s
  if a % 16 = 12 then vecSend ((a - 0x48000) / 16) s1 else s1

/-! Watchdogs (R346). -/

def keyKick : Word := wd 0x4B43

/-- Row 175: HOST_WDOG_KICK. -/
def doHostWdogKick (v : Word) (s : State) : State :=
  if v = keyKick ∧ bit (rd s aHostWdogCfg) 14 = true then hostRestart s else s

def execHostWdogKick (v : Word) (s : State) : Host.Outcome State Fault Refusal := .next (doHostWdogKick v (hostAccess s))

/-- Row 176: SVC_WDOG_KICK. -/
def doSvcWdogKick (v : Word) (s : State) : State :=
  if v = keyKick ∧ bit (rd s aSvcWdogCfg) 14 = true then svcRestart s else s

def execSvcWdogKick (v : Word) (s : State) : Host.Outcome State Fault Refusal := .next (svcCommand (doSvcWdogKick v) s)

/-- A watchdog runs: EN = 1, from the first entry to RUN. -/
def wdogRuns (s : State) (svc : Bool) : Bool :=
  s.gorse.everRun && bit (rd s (if svc then aSvcWdogCfg else aHostWdogCfg)) 15

/-- n halves of the watchdog's TIMEOUT have passed since its last restart, in ticks (R346). -/
def wdogPast (s : State) (svc : Bool) (n : Nat) : Bool :=
  decide ((if svc then s.host.svcKickAt else s.host.hostKickAt)
    + 200000 * n * fld (rd s (if svc then aSvcWdogCfg else aHostWdogCfg)) 0 14 ≤ s.tick)

/-- Row 173: a watchdog expires, TIMEOUT after its last restart (R207, R346, R357). -/
def doWatchdogExpire (svc : Bool) (s : State) : State :=
  if wdogRuns s svc && wdogPast s svc 2 && !(if svc then s.host.svcExpired else s.host.hostExpired) then
    let s1 := modHost (fun h => if svc then { h with svcExpired := true } else { h with hostExpired := true }) s
    bRise (if svc then 184 else 183) (logEv 7 (if svc then 2 else 1) s1)
  else s

def execWatchdogExpire (svc : Bool) (s : State) : Host.Outcome State Fault Refusal := .next (doWatchdogExpire svc s)

/-- Row 174: a watchdog passes half its timeout (R342). -/
def doWdogWarn (svc : Bool) (s : State) : State := if wdogRuns s svc && wdogPast s svc 1 then irq 5 s else s

def execWdogWarn (svc : Bool) (s : State) : Host.Outcome State Fault Refusal := .next (doWdogWarn svc s)

/-! Register writes. -/

/-- The lock of an RWL register (R16): the first entry to RUN, or for a MAC address the port's being enabled. -/
def rwlLocked (s : State) (a : Nat) : Bool :=
  if (blockOf a).1 = 6 then portEnabled s ((a - 0x60000) / 0x1000) else s.gorse.everRun

/-- A W1C write: each 1 clears its bit. -/
def clearBits (a : Nat) (v : Word) (s : State) : State := clearWord a (v &&& wd (regInfo a).mask) s

/-- The compares of pairs and cells (R172). -/
def isCompare (a : Nat) : Bool :=
  hit a 0x102000 0x20 12 || hit a 0x102004 0x20 12
    || (decide (0x104000 ≤ a) && decide (a < 0x104000 + 0x100 * 36) && decide (a % 0x100 < 0x30))

/-- A write of an RWS register: staged, and noted for pair-lock where it is a compare. -/
def stageWrite (a : Nat) (v : Word) (s : State) : State :=
  let s1 := stage a (clampState s a v) (clampSeen a v s)
  if isCompare a then
    match rwsGroup s a with
    | some g => modGroup g (fun x => { x with written := if x.written.contains a then x.written else a :: x.written }) s1
    | none => s1
  else s1

/-- A write of a register with no behaviour of its own, by its access code (R13). -/
def plainWrite (a : Nat) (v : Word) (s : State) : State :=
  match (regInfo a).acc with
  | .ro => s
  | .wo => s
  | .rc => s
  | .w1c => clearBits a v s
  | .rw => wr a (clampState s a v) (clampSeen a v s)
  | .rwl => if rwlLocked s a then s else wr a (clampState s a v) (clampSeen a v s)
  | .rws => stageWrite a v s

/-- A write of LINK_CFG: WZ_DIR is locked outside CONFIG-WAIT, and a change of LOOP follows R124. -/
def linkCfgWrite (l : Nat) (v : Word) (s : State) : State :=
  let a := aLink l 0
  let old := rd s a
  let w := clampState s a v
  let w1 := if isWz l && s.dev != .configWait then putFld w 11 1 (fld old 11 1) else w
  let s1 := wr a (putFld w1 9 2 (fld old 9 2)) (clampSeen a v s)
  if fld w1 9 2 = fld old 9 2 then s1 else doLoopWrite l (fld w1 9 2) s1

/-- A write of BITSLIP acts on one lane (R112); on the upstream one where both bits are 1 (DESIGN CHOICE, log entry 141). -/
def bitslipWrite (l : Nat) (v : Word) (s : State) : State :=
  if bit v 0 then doBitslipUp l s else onlyIf (bit v 1) (doBitslipDown l) s

def writeGlobal (o : Nat) (v : Word) (s : State) : State :=
  if o = 0x14 then doHostWdogKick v s
  else if o = 0x100 then doCommitReq v s
  else if o = 0x300 then modPower (fun p => { p with cause := (wd p.cause &&& ~~~v).toNat }) s
  else if o = 0x30C then stbyWrite v s
  else plainWrite o v s

def writeClock (o : Nat) (v : Word) (s : State) : State :=
  if o = 0x04 then clkReassert (clearBits aClkSticky v s)
  else if o = 0x08 then doRefSelWrite v s
  else if o = 0x10 then doSscApply v s
  else plainWrite (0x10000 + o) v s

def writeDamask (o : Nat) (v : Word) (s : State) : State :=
  if o = 0x1C then doTileDiscard v s
  else if hit o 0x220 4 8 then modDamask (fun d => { d with keyWr := tset dZeroW d.keyWr ((o - 0x220) / 4) v }) s
  else if o = 0x240 then doKeyProg v s
  else plainWrite (0x20000 + o) v s

def writeOpq (o : Nat) (v : Word) (s : State) : State :=
  if o = 0 then opqAction v s
  else if 0x100 ≤ o ∧ o < 0x500 ∧ (o - 0x100) % 0x40 < 0x20 then
    paramWrite ((o - 0x100) / 0x40) ((o - 0x100) % 0x40 / 4) v s
  else if 0x100 ≤ o ∧ o < 0x500 ∧ (o - 0x100) % 0x40 = 0x20 then opSubmit ((o - 0x100) / 0x40) (fld v 0 8) s
  else plainWrite (0x30000 + o) v s

def writeIntc (o : Nat) (v : Word) (s : State) : State :=
  if o = 0x408 then doVecAck false v s
  else if o = 0x40C then doVecAck true v s
  else if 0x8000 ≤ o ∧ o < 0x8400 then msixWrite (0x40000 + o) v s
  else plainWrite (0x40000 + o) v s

/-- A write of PPS_CFG: PPS_OUT is low while PPS_OUT_EN is 0 (R278). -/
def ppsCfgWrite (v : Word) (s : State) : State :=
  let s1 := plainWrite aPpsCfg v s
  if bit (rd s1 aPpsCfg) 0 then s1 else modTime (fun t => { t with ppsOut := false }) s1

def writeTime (o : Nat) (v : Word) (s : State) : State :=
  if o = 0x00 then doTimeCtrlWrite v s
  else if o = 0x20 then doAddendWrite false v s
  else if o = 0x24 then doAddendWrite true v s
  else if o = 0x28 then doTimeAdj v s
  else if o = 0x34 then doTimeSet v s
  else if o = 0x60 then ppsCfgWrite v s
  else if o = 0x80 ∨ o = 0x84 then ethIdCheck 1 (ethIdCheck 0 (plainWrite (0x50000 + o) v s))
  else if hit o 0x108 0x20 8 then doLqTailWrite ((o - 0x108) / 0x20) v s
  else plainWrite (0x50000 + o) v s

def writeEth (p o : Nat) (v : Word) (s : State) : State :=
  if o = 0x00 then doEthCfgWrite p v s
  else if o = 0x0C then doMacHiWrite p v s
  else if o = 0x28 then rxHeadWrite p v s
  else plainWrite (aEth p o) v s

def writeLink (l o : Nat) (v : Word) (s : State) : State :=
  if o = 0x00 then linkCfgWrite l v s
  else if o = 0x08 then bitslipWrite l v s
  else if o = 0x104 then doAsymTrimWrite l v s
  else plainWrite (aLink l o) v s

def writeMod (o : Nat) (v : Word) (s : State) : State :=
  if o = 0x24 then modMod (fun m => { m with enStaged := fld v 0 16, enDirty := 0xFFFF }) s
  else if o = 0x28 then modMod (fun m => { m with updStaged := fld v 0 16, updDirty := 0xFFFF }) s
  else plainWrite (0x100000 + o) v s

def writeGorse (o : Nat) (v : Word) (s : State) : State :=
  if o = 0x08 then doHostTrip v s
  else if o = 0x0C then doHostSafeStop v s
  else if o = 0x28 then (if s.gorse.everRun then s else brkCfgWrite (clampReg aBrkCfg v) s)
  else if o = 0x2C then
    (if s.gorse.everRun then s else brkThrWrite (clampReg aBrkThr v) (clampSeen aBrkThr v s))
  else plainWrite (0x180000 + o) v s

def writeConv (o : Nat) (v : Word) (s : State) : State :=
  if o = 0x04 then doRefEnWrite v s
  else if o = 0x0C then doUcalSave v s
  else if o = 0x10 then doSpotTrig v s
  else if o = 0x14 then doRbCtrl v s
  else plainWrite (0x1C0000 + o) v s

def writeMeas (o : Nat) (v : Word) (s : State) : State :=
  if o = 0x118 then pmuCmd v s
  else if o = 0x120 then doPmuNotice v s
  else if o = 0x308 then doRecForce v s
  else if o = 0x30C then doRecRelease v s
  else plainWrite (0x1E0000 + o) v s

def writeMeter (o : Nat) (v : Word) (s : State) : State :=
  let a := 0x1F0000 + o
  if o = 0x2C then doEnergyClear v s
  else if o = 0x3060 then doBrClear v s
  else if o = 0x3004 then brWrReg 4 (brReg s 4 &&& ~~~(v &&& wd (regInfo a).mask &&& ~~~(eventSet s a))) s
  else if 0x3018 ≤ o ∧ o < 0x3040 then brWrReg (o - 0x3000) (clampState s a v) (clampSeen a v s)
  else plainWrite a v s

/-- CTRL: while LATE_RUN of a unit is 3 it sets LATE_TRIP, so a W1C of MU_STICKY does not hold it clear (R197). -/
def writeCtrl (a : Nat) (v : Word) (s : State) : State :=
  let u := (a - 0x200000) / 0x10000
  let s1 := plainWrite a v s
  if a = aMu u 0x0C ∧ (munit s u).lateRun = 3 then muStick u 2 s1 else s1

/-- HG_CFG and HG_ORIGIN of an engine that a capture names are refused (R364). -/
def writeMon (o : Nat) (v : Word) (s : State) : State :=
  if 0x1000 ≤ o ∧ o < 0x2000 ∧ o % 0x40 < 8 then
    (if histNamed s ((o - 0x1000) / 0x40) then monStick 2 s else plainWrite (0x300000 + o) v s)
  else plainWrite (0x300000 + o) v s

def writeTherm (o : Nat) (v : Word) (s : State) : State :=
  if o = 0x18 then (if bit v 18 then modTherm (fun t => { t with shValid := false }) s else s)
  else plainWrite (0x380000 + o) v s

/-- A registered BAR0 write of v at aligned address a. -/
def hostWriteAt (a : Nat) (v : Word) (s : State) : State :=
  let b := blockOf a
  let o := a - b.2
  match b.1 with
  | 0 => writeGlobal o v s
  | 1 => writeClock o v s
  | 2 => writeDamask o v s
  | 3 => writeOpq o v s
  | 4 => writeIntc o v s
  | 5 => writeTime o v s
  | 6 => writeEth (o / 0x1000) (o % 0x1000) v s
  | 7 => writeLink (o / 0x1000) (o % 0x1000) v s
  | 8 => writeLink (36 + o / 0x1000) (o % 0x1000) v s
  | 9 => writeMod o v s
  | 10 => writeGorse o v s
  | 11 => writeConv o v s
  | 12 => writeMeas o v s
  | 13 => writeMeter o v s
  | 14 => writeCtrl a v s
  | 15 => writeMon o v s
  | 16 => writeTherm o v s
  | _ => s

/-- A BAR0 write request (R335). Addresses from 0x40_0000 are not in BAR0. -/
def hostWrite (addr len be : Nat) (v : Word) (s : State) : State :=
  if 0x400000 ≤ addr then s
  else if len = 4 ∧ addr % 4 = 0 ∧ be = 15 then hostWriteAt addr v (hostAccess s)
  else accessErr s

/-- The writable registers of the service block (R340, R361). -/
def svcWritable (a : Nat) : Bool :=
  a == aSvc 0x04 || a == aSvc 0x08 || a == aSvc 0x0C || a == aSvc 0x10 || hit a (aSvc 0x20) 4 8

/-- A performed service write. -/
def svcWriteAt (a : Nat) (v : Word) (s : State) : State :=
  if a = aSvc 0x04 then doSafeStop v s
  else if a = aSvc 0x08 then doSvcWdogKick v s
  else if a = aSvc 0x0C then doSvcOpCancel v s
  else plainWrite a v s

/-- A service write with a valid CRC: performed on a writable register, otherwise refused (R340, R346). -/
def svcWriteReg (a : Nat) (v : Word) (s : State) : State :=
  let s0 := svcAccess s
  if svcWritable a then svcDone (svcWriteAt a v s0) else s0

/-- Row 164: a register write at an interface. -/
def doRegisterWrite (i : Iface) (addr len be : Nat) (v : Word) (s : State) : State :=
  match i with
  | .host => hostWrite addr len be v s
  | .svc => svcWriteReg addr v s

def execRegisterWrite (i : Iface) (addr : BitVec 24) (len : Nat) (be : BitVec 4) (v : Word) (s : State) :
    Host.Outcome State Fault Refusal := .next (doRegisterWrite i addr.toNat len be.toNat v s)

/-! BAR2 writes (R65, R336). -/

/-- A TILE_LOAD runs or is suspended: staging is locked. -/
def stagingLocked (s : State) : Bool := match s.damask.load with | some ld => ld.slot.isSome | none => false

/-- Row 36: bytes to DRAM; those for a locked staging region are dropped. -/
def doBar2Write (off : Nat) (data : List Byte) (s : State) : State :=
  let edge := s.damask.stagingMib * 2 ^ 20
  if stagingLocked s && decide (off < edge) && !data.isEmpty then
    dmkFlag 0 (dramPut edge (data.drop (edge - off)) s)
  else dramPut off data s

def execBar2Write (off : BitVec 27) (data : List Byte) (s : State) : Host.Outcome State Fault Refusal :=
  .next (doBar2Write off.toNat data s)

/-! The service port (R338 to R341, R404). -/

/-- STATUS with the SEQ that stands after the transaction. -/
def svcStatus (s : State) (bits : Nat) : Nat := bits + 16 * (s.host.svcSeq % 16)

/-- A byte that carries no In content. -/
def sdoHigh : Byte := byt 0xFF

/-- SVC_SDO over n clocked bytes: In content from byte k on. -/
def sdoBytes (n k : Nat) (inn : List Byte) : List Byte :=
  (List.replicate k sdoHigh ++ inn ++ List.replicate (n - k - inn.length) sdoHigh).take n

def setSdo (l : List Byte) (s : State) : State := modHost (fun h => { h with sdo := l }) s

/-- A CRC failure. -/
def svcCrcErr (s : State) : State := stick (aSvc 0x10) 2 none (cntSat (aSvc 0x14) 1 s)

/-- DATA, STATUS and CRC of a read. -/
def svcReply (data status : Nat) : List Byte :=
  let l := beBytes 4 data ++ [byt status]
  l ++ [byt (crc8 l)]

/-- Row 167: a write transaction of ten bytes. -/
def doSpiWrite (out : List Byte) (s : State) : State :=
  if byteAt out 0 ≠ 2 ∨ out.length < 10 then s
  else if !svcWriteCrcGood out then
    let s1 := svcCrcErr s
    setSdo (sdoBytes out.length 9 [byt (svcStatus s1 2)]) s1
  else
    let s1 := svcWriteReg (svcAddr out) (svcData out) s
    setSdo (sdoBytes out.length 9 [byt (svcStatus s1 (if svcWritable (svcAddr out) then 1 else 8))]) s1

def execSpiWrite (out : List Byte) (s : State) : Host.Outcome State Fault Refusal := .next (doSpiWrite out s)

/-- Row 168: a read transaction of thirteen bytes; its side effects follow the last byte. -/
def doSpiRead (out : List Byte) (s : State) : State :=
  if byteAt out 0 ≠ 3 ∨ out.length < 13 then s
  else if !svcReadCrcGood out then
    let s1 := svcCrcErr s
    setSdo (sdoBytes out.length 7 (svcReply 0 (svcStatus s1 2))) s1
  else
    let a := svcAddr out
    let s1 := svcReadAt a s
    if svcHolds a then
      setSdo (sdoBytes out.length 7 (svcReply (readData .svc a (svcAccess s)).toNat (svcStatus s1 1))) s1
    else setSdo (sdoBytes out.length 7 (svcReply 0 (svcStatus s1 4))) s1

def execSpiRead (out : List Byte) (s : State) : Host.Outcome State Fault Refusal := .next (doSpiRead out s)

/-- Row 169: a CMD other than 0x02 and 0x03. -/
def doSpiBadCommand (cmd : Byte) (len : Nat) (s : State) : State :=
  if cmd = 2 ∨ cmd = 3 then s else setSdo (List.replicate len sdoHigh) (cntSat (aSvc 0x18) 1 s)

def execSpiBadCommand (cmd : Byte) (len : Nat) (s : State) : Host.Outcome State Fault Refusal :=
  .next (doSpiBadCommand cmd len s)

/-- What a read that is cut short would have answered (R404). -/
def svcPeek (out : List Byte) (s : State) : List Byte :=
  if !svcReadCrcGood out then svcReply 0 (svcStatus s 2)
  else if svcHolds (svcAddr out) then
    svcReply (readData .svc (svcAddr out) s).toNat (1 + 16 * ((s.host.svcSeq + 1) % 16))
  else svcReply 0 (svcStatus s 4)

/-- Row 170: SVC_CS_N rises before the last byte: nothing is performed. -/
def doSpiAbort (out : List Byte) (s : State) : State :=
  if byteAt out 0 = 2 ∧ out.length < 10 then setSdo (List.replicate out.length sdoHigh) s
  else if byteAt out 0 = 3 ∧ out.length < 13 then setSdo (sdoBytes out.length 7 (svcPeek out s)) s
  else s

def execSpiAbort (out : List Byte) (s : State) : Host.Outcome State Fault Refusal := .next (doSpiAbort out s)

end Sys2Proof.Machine
end

