-- ==== Sys2Proof/Machine/Dispatch.lean ====
section
/-! DEFINITION. The dispatch: one arm per command. -/

namespace Sys2Proof.Machine

open Sys2Proof

def exec (i : Instr) (s : State) : Host.Outcome State Fault Refusal :=
  match i with
  | .commitReq v => Sys2Proof.Machine.execCommitReq v s
  | .cutoff g => Sys2Proof.Machine.execCutoff g s
  | .periodBoundary g => Sys2Proof.Machine.execPeriodBoundary g s
  | .mirrorCopyEnd g => Sys2Proof.Machine.execMirrorCopyEnd g s
  | .coefCopyDone u => Sys2Proof.Machine.execCoefCopyDone u s
  | .muComputeStart u => Sys2Proof.Machine.execMuComputeStart u s
  | .muComputeDone u => Sys2Proof.Machine.execMuComputeDone u s
  | .midCutoff g => Sys2Proof.Machine.execMidCutoff g s
  | .midPeriodTransfer g => Sys2Proof.Machine.execMidPeriodTransfer g s
  | .gateEdge p high => Sys2Proof.Machine.execGateEdge p high s
  | .clockGroupStart => Sys2Proof.Machine.execClockGroupStart s
  | .imageActivation => Sys2Proof.Machine.execImageActivation s
  | .selfCal slot p0 => Sys2Proof.Machine.execSelfCal slot p0 s
  | .tileLoad slot p0 p1 p2 => Sys2Proof.Machine.execTileLoad slot p0 p1 p2 s
  | .tileSwap slot p0 p1 p2 p3 => Sys2Proof.Machine.execTileSwap slot p0 p1 p2 p3 s
  | .linkTrain slot p0 p1 => Sys2Proof.Machine.execLinkTrain slot p0 p1 s
  | .offstateDiag slot p0 p1 p2 => Sys2Proof.Machine.execOffstateDiag slot p0 p1 p2 s
  | .cmpSelftest slot p0 => Sys2Proof.Machine.execCmpSelftest slot p0 s
  | .histCapture slot p0 p1 p2 p3 p4 => Sys2Proof.Machine.execHistCapture slot p0 p1 p2 p3 p4 s
  | .waveDump slot p0 p1 => Sys2Proof.Machine.execWaveDump slot p0 p1 s
  | .twLocate slot p0 p1 => Sys2Proof.Machine.execTwLocate slot p0 p1 s
  | .mramScrub slot p0 => Sys2Proof.Machine.execMramScrub slot p0 s
  | .badOpcode slot op => Sys2Proof.Machine.execBadOpcode slot op s
  | .opStart slot => Sys2Proof.Machine.execOpStart slot s
  | .sectionProgramDone tile readbackOk => Sys2Proof.Machine.execSectionProgramDone tile readbackOk s
  | .suspend handle => Sys2Proof.Machine.execSuspend handle s
  | .resume handle => Sys2Proof.Machine.execResume handle s
  | .cancel handle => Sys2Proof.Machine.execCancel handle s
  | .svcOpCancel v => Sys2Proof.Machine.execSvcOpCancel v s
  | .opSuspensionPoint slot => Sys2Proof.Machine.execOpSuspensionPoint slot s
  | .tileDiscard v => Sys2Proof.Machine.execTileDiscard v s
  | .scrubSweep found => Sys2Proof.Machine.execScrubSweep found s
  | .keyProg v => Sys2Proof.Machine.execKeyProg v s
  | .keyProgDone ok => Sys2Proof.Machine.execKeyProgDone ok s
  | .qspiReadDone supported image => Sys2Proof.Machine.execQspiReadDone supported image s
  | .bar2Write off data => Sys2Proof.Machine.execBar2Write off data s
  | .bar2Read off len ecc => Sys2Proof.Machine.execBar2Read off len ecc s
  | .refclkDetect hz => Sys2Proof.Machine.execRefclkDetect hz s
  | .rootLock => Sys2Proof.Machine.execRootLock s
  | .mLock => Sys2Proof.Machine.execMLock s
  | .dividerRelease => Sys2Proof.Machine.execDividerRelease s
  | .refLoss => Sys2Proof.Machine.execRefLoss s
  | .wzRefLoss => Sys2Proof.Machine.execWzRefLoss s
  | .rootLol => Sys2Proof.Machine.execRootLol s
  | .mLol => Sys2Proof.Machine.execMLol s
  | .fineCalFail gen => Sys2Proof.Machine.execFineCalFail gen s
  | .lockReacquired mBranch => Sys2Proof.Machine.execLockReacquired mBranch s
  | .sscApply v => Sys2Proof.Machine.execSscApply v s
  | .profileOrigin => Sys2Proof.Machine.execProfileOrigin s
  | .refSelWrite v => Sys2Proof.Machine.execRefSelWrite v s
  | .clkMon edgeClk => Sys2Proof.Machine.execClkMon edgeClk s
  | .phaseAcquired l eye => Sys2Proof.Machine.execPhaseAcquired l eye s
  | .upLock l => Sys2Proof.Machine.execUpLock l s
  | .alignTimeout l => Sys2Proof.Machine.execAlignTimeout l s
  | .markerErr l => Sys2Proof.Machine.execMarkerErr l s
  | .phaseLimit l => Sys2Proof.Machine.execPhaseLimit l s
  | .ebufErr l => Sys2Proof.Machine.execEbufErr l s
  | .trainingBlockRx l groups => Sys2Proof.Machine.execTrainingBlockRx l groups s
  | .capTimeout l => Sys2Proof.Machine.execCapTimeout l s
  | .checkWindowDone l => Sys2Proof.Machine.execCheckWindowDone l s
  | .ackTimeout l => Sys2Proof.Machine.execAckTimeout l s
  | .countdownEnd l => Sys2Proof.Machine.execCountdownEnd l s
  | .dckRestart l => Sys2Proof.Machine.execDckRestart l s
  | .fallbackConfirm l => Sys2Proof.Machine.execFallbackConfirm l s
  | .linkTrainDone => Sys2Proof.Machine.execLinkTrainDone s
  | .bitslipUp l => Sys2Proof.Machine.execBitslipUp l s
  | .bitslipDown l => Sys2Proof.Machine.execBitslipDown l s
  | .alignModeChange l => Sys2Proof.Machine.execAlignModeChange l s
  | .loopWrite l loop => Sys2Proof.Machine.execLoopWrite l loop s
  | .loopFail l => Sys2Proof.Machine.execLoopFail l s
  | .ddtSkewApply l => Sys2Proof.Machine.execDdtSkewApply l s
  | .downstreamSuperframeStart l => Sys2Proof.Machine.execDownstreamSuperframeStart l s
  | .upstreamSuperframeRx l groups t8 => Sys2Proof.Machine.execUpstreamSuperframeRx l groups t8 s
  | .echoLoss l => Sys2Proof.Machine.execEchoLoss l s
  | .latencyUpdate l => Sys2Proof.Machine.execLatencyUpdate l s
  | .asymTrimWrite l v => Sys2Proof.Machine.execAsymTrimWrite l v s
  | .k28_3Rx l => Sys2Proof.Machine.execK28_3Rx l s
  | .dckStop l => Sys2Proof.Machine.execDckStop l s
  | .edge l ptag sw start half coarse fine => Sys2Proof.Machine.execEdge l ptag sw start half coarse fine s
  | .boundary l ptag swMask offset ofine mid mfine => Sys2Proof.Machine.execBoundary l ptag swMask offset ofine mid mfine s
  | .sample l ptag offset => Sys2Proof.Machine.execSample l ptag offset s
  | .supply l ptag bootstrap => Sys2Proof.Machine.execSupply l ptag bootstrap s
  | .diag l op tag result causeGone => Sys2Proof.Machine.execDiag l op tag result causeGone s
  | .grid port cg bcount offset ofine period => Sys2Proof.Machine.execGrid port cg bcount offset ofine period s
  | .wzTrip port => Sys2Proof.Machine.execWzTrip port s
  | .wzLink port => Sys2Proof.Machine.execWzLink port s
  | .cellBlock l dckLoss => Sys2Proof.Machine.execCellBlock l dckLoss s
  | .cellFaultLatch l faults dsat => Sys2Proof.Machine.execCellFaultLatch l faults dsat s
  | .incompletePeriod l => Sys2Proof.Machine.execIncompletePeriod l s
  | .dsatCrossing p => Sys2Proof.Machine.execDsatCrossing p s
  | .blankingEnd p beyond => Sys2Proof.Machine.execBlankingEnd p beyond s
  | .cSourceFiltered src chA chB => Sys2Proof.Machine.execCSourceFiltered src chA chB s
  | .xchkReplayDone aFails bFails => Sys2Proof.Machine.execXchkReplayDone aFails bFails s
  | .gorseSelftest chB pass delayPs => Sys2Proof.Machine.execGorseSelftest chB pass delayPs s
  | .singleChLimit => Sys2Proof.Machine.execSingleChLimit s
  | .hostTrip v => Sys2Proof.Machine.execHostTrip v s
  | .hostSafeStop v => Sys2Proof.Machine.execHostSafeStop v s
  | .safeStop v => Sys2Proof.Machine.execSafeStop v s
  | .ssStep => Sys2Proof.Machine.execSsStep s
  | .ssWaitEnd => Sys2Proof.Machine.execSsWaitEnd s
  | .safeStopTimeout => Sys2Proof.Machine.execSafeStopTimeout s
  | .debugHalt => Sys2Proof.Machine.execDebugHalt s
  | .enFall => Sys2Proof.Machine.execEnFall s
  | .enRise live => Sys2Proof.Machine.execEnRise live s
  | .brkTurnOn => Sys2Proof.Machine.execBrkTurnOn s
  | .brkTurnOff => Sys2Proof.Machine.execBrkTurnOff s
  | .brkOvertime => Sys2Proof.Machine.execBrkOvertime s
  | .offstateDiagDone pairRes => Sys2Proof.Machine.execOffstateDiagDone pairRes s
  | .cmpSelftestDone res => Sys2Proof.Machine.execCmpSelftestDone res s
  | .tripRecRead itf r => Sys2Proof.Machine.execTripRecRead itf r s
  | .spotTrig v => Sys2Proof.Machine.execSpotTrig v s
  | .spotPeriodicCapture n => Sys2Proof.Machine.execSpotPeriodicCapture n s
  | .adcDataRead n landing => Sys2Proof.Machine.execAdcDataRead n landing s
  | .refEnWrite v => Sys2Proof.Machine.execRefEnWrite v s
  | .refSettled => Sys2Proof.Machine.execRefSettled s
  | .selfCalCommit found => Sys2Proof.Machine.execSelfCalCommit found s
  | .ucalSave v => Sys2Proof.Machine.execUcalSave v s
  | .ucalSaveDone => Sys2Proof.Machine.execUcalSaveDone s
  | .wcCrossing c x => Sys2Proof.Machine.execWcCrossing c x s
  | .wcSettled c uV => Sys2Proof.Machine.execWcSettled c uV s
  | .capRead itf k => Sys2Proof.Machine.execCapRead itf k s
  | .rbCtrl v => Sys2Proof.Machine.execRbCtrl v s
  | .readbackDone levels => Sys2Proof.Machine.execReadbackDone levels s
  | .reg64LowRead itf addr => Sys2Proof.Machine.execReg64LowRead itf addr s
  | .timeNsRead itf => Sys2Proof.Machine.execTimeNsRead itf s
  | .timeAdj v => Sys2Proof.Machine.execTimeAdj v s
  | .timeSet v => Sys2Proof.Machine.execTimeSet v s
  | .addendWrite fine v => Sys2Proof.Machine.execAddendWrite fine v s
  | .ethFrameRx port frame fcsOk => Sys2Proof.Machine.execEthFrameRx port frame fcsOk s
  | .servoMeasurement x => Sys2Proof.Machine.execServoMeasurement x s
  | .holdoverEntry => Sys2Proof.Machine.execHoldoverEntry s
  | .holdoverCorrection => Sys2Proof.Machine.execHoldoverCorrection s
  | .ppsOutRise => Sys2Proof.Machine.execPpsOutRise s
  | .ppsOutFall => Sys2Proof.Machine.execPpsOutFall s
  | .ppsInEdge => Sys2Proof.Machine.execPpsInEdge s
  | .ppsInMissing => Sys2Proof.Machine.execPpsInMissing s
  | .lqTailWrite q v => Sys2Proof.Machine.execLqTailWrite q v s
  | .frameLaunch q portFree => Sys2Proof.Machine.execFrameLaunch q portFree s
  | .pmuReport body trig => Sys2Proof.Machine.execPmuReport body trig s
  | .pmuCfgChange => Sys2Proof.Machine.execPmuCfgChange s
  | .dataOn => Sys2Proof.Machine.execDataOn s
  | .dataOff => Sys2Proof.Machine.execDataOff s
  | .sendCfg2 => Sys2Proof.Machine.execSendCfg2 s
  | .sendHdr => Sys2Proof.Machine.execSendHdr s
  | .pmuNotice v => Sys2Proof.Machine.execPmuNotice v s
  | .twFront comp ch rise => Sys2Proof.Machine.execTwFront comp ch rise s
  | .twEventEnd => Sys2Proof.Machine.execTwEventEnd s
  | .twLocateDone => Sys2Proof.Machine.execTwLocateDone s
  | .recForce v => Sys2Proof.Machine.execRecForce v s
  | .recFreeze => Sys2Proof.Machine.execRecFreeze s
  | .recRelease v => Sys2Proof.Machine.execRecRelease v s
  | .waveDumpDone => Sys2Proof.Machine.execWaveDumpDone s
  | .lineCycleEnd samples durPs freqMhz => Sys2Proof.Machine.execLineCycleEnd samples durPs freqMhz s
  | .pulseEnd k => Sys2Proof.Machine.execPulseEnd k s
  | .periodicRecord => Sys2Proof.Machine.execPeriodicRecord s
  | .noLine present => Sys2Proof.Machine.execNoLine present s
  | .pfwNFall => Sys2Proof.Machine.execPfwNFall s
  | .finalRepeat => Sys2Proof.Machine.execFinalRepeat s
  | .energyClear v => Sys2Proof.Machine.execEnergyClear v s
  | .brackenSecond codes0 codes1 codes2 => Sys2Proof.Machine.execBrackenSecond codes0 codes1 codes2 s
  | .alignmentRecord => Sys2Proof.Machine.execAlignmentRecord s
  | .brClear v => Sys2Proof.Machine.execBrClear v s
  | .vbatRestart => Sys2Proof.Machine.execVbatRestart s
  | .registerWrite itf addr len be v => Sys2Proof.Machine.execRegisterWrite itf addr len be v s
  | .rcRead itf addr len => Sys2Proof.Machine.execRcRead itf addr len s
  | .macHiWrite port v => Sys2Proof.Machine.execMacHiWrite port v s
  | .spiWrite out => Sys2Proof.Machine.execSpiWrite out s
  | .spiRead out => Sys2Proof.Machine.execSpiRead out s
  | .spiBadCommand cmd len => Sys2Proof.Machine.execSpiBadCommand cmd len s
  | .spiAbort out => Sys2Proof.Machine.execSpiAbort out s
  | .vecAck hi v => Sys2Proof.Machine.execVecAck hi v s
  | .msixEnable => Sys2Proof.Machine.execMsixEnable s
  | .watchdogExpire svc => Sys2Proof.Machine.execWatchdogExpire svc s
  | .wdogWarn svc => Sys2Proof.Machine.execWdogWarn svc s
  | .hostWdogKick v => Sys2Proof.Machine.execHostWdogKick v s
  | .svcWdogKick v => Sys2Proof.Machine.execSvcWdogKick v s
  | .histCaptureEnd => Sys2Proof.Machine.execHistCaptureEnd s
  | .tsConversion n x => Sys2Proof.Machine.execTsConversion n x s
  | .dieSensorConversion d reading => Sys2Proof.Machine.execDieSensorConversion d reading s
  | .dieShutdown d => Sys2Proof.Machine.execDieShutdown d s
  | .dieShutdownRelease x => Sys2Proof.Machine.execDieShutdownRelease x s
  | .quadRailMeasure mv => Sys2Proof.Machine.execQuadRailMeasure mv s
  | .powerOnReset => Sys2Proof.Machine.execPowerOnReset s
  | .resetN => Sys2Proof.Machine.execResetN s
  | .perstN => Sys2Proof.Machine.execPerstN s
  | .resetRelease x => Sys2Proof.Machine.execResetRelease x s
  | .standbyEnter v => Sys2Proof.Machine.execStandbyEnter v s
  | .standbyWake v => Sys2Proof.Machine.execStandbyWake v s
  | .standbyExitDone => Sys2Proof.Machine.execStandbyExitDone s
  | .referenceReturn => Sys2Proof.Machine.execReferenceReturn s
  | .timeCtrlWrite v => Sys2Proof.Machine.execTimeCtrlWrite v s
  | .pfwNRise => Sys2Proof.Machine.execPfwNRise s
  | .vbatLoss => Sys2Proof.Machine.execVbatLoss s
  | .brackenCrystalStop => Sys2Proof.Machine.execBrackenCrystalStop s
  | .mramScrubDone corrected uncorrectable badCrc => Sys2Proof.Machine.execMramScrubDone corrected uncorrectable badCrc s
  | .ethLinkChange port up => Sys2Proof.Machine.execEthLinkChange port up s
  | .ethCfgWrite port v => Sys2Proof.Machine.execEthCfgWrite port v s
  | .converterSample codes => Sys2Proof.Machine.execConverterSample codes s

end Sys2Proof.Machine
end

