-- ==== Sys2Proof/Machine/Pins.lean ====
section
/-! DEFINITION. The output balls as functions of the state (R18, R105, R129, R230, R234, R235, R278, R317, R345, R388). -/

namespace Sys2Proof.Machine

open Sys2Proof

/-- What an output ball does. A differential pair is driven while its symbols or its clock run, and at differential low
otherwise. -/
inductive BallState where
  | highZ | low | high | released | diffLow | driven
  deriving DecidableEq, Repr

/-- A single-ended output. -/
def levelOf (b : Bool) : BallState := if b then .high else .low

/-- An open-drain output: driven low, or released. -/
def openDrain (b : Bool) : BallState := if b then .low else .released

/-- A ball whose supply is there, and what it does otherwise. -/
def powered (s : State) (x : BallState) : BallState := if s.power.mainOff then .highZ else x

/-- A ball out of internal reset, with its reset state. -/
def outOfReset (s : State) (r x : BallState) : BallState := powered s (if s.power.inReset then r else x)

/-- GHp and GLp (R388); ghLevel and glLevel hold them low in reset. -/
def ballGh (s : State) (p : Nat) : BallState := powered s (levelOf (ghLevel s p))
def ballGl (s : State) (p : Nat) : BallState := powered s (levelOf (glLevel s p))

/-- BRK (R229, R230). -/
def ballBrk (s : State) : BallState := outOfReset s .low (levelOf s.gorse.brk)

/-- TLn_DCK and TLn_DDT, and those of an outbound Wozin port; an inbound port's are high-impedance (R105, R129). -/
def ballLink (s : State) (l : Nat) : BallState :=
  if isWz l then outOfReset s .highZ (if wzInbound s l then .highZ else if (link s l).dck then .driven else .diffLow)
  else outOfReset s .diffLow (if (link s l).dck then .driven else .diffLow)

/-- PERMIT_A and PERMIT_B: low only in RUN while the channel votes (R36, R234). -/
def ballPermit (s : State) (ch : Nat) : BallState := outOfReset s .released (openDrain (s.dev == .run && votes s ch))

/-- FAULT_N: released in RUN alone (R36, R235). -/
def ballFault (s : State) : BallState := outOfReset s .low (openDrain (s.dev != .run))

/-- SVC_INT_PEND AND SVC_INT_EN is not zero (R345). -/
def svcInt (s : State) : Bool := (List.range 4).any (fun r => rd s (aSvc (0x30 + 4 * r)) &&& rd s (aSvc (0x20 + 4 * r)) != 0)

/-- INT_N. -/
def ballInt (s : State) : BallState := outOfReset s .released (openDrain (svcInt s))

/-- PULSEk and PPS_OUT. -/
def ballPulse (s : State) (k : Nat) : BallState := outOfReset s .low (levelOf (s.meter.pulse.testBit k))
def ballPps (s : State) : BallState := outOfReset s .low (levelOf s.time.ppsOut)

/-- QSPI_CS_N, QSPI_SCK and QSPI_IO: driven out of reset (R61). -/
def ballQspi (s : State) : BallState := outOfReset s .highZ .driven

end Sys2Proof.Machine
end

