-- ==== Sys2Proof/Safety.lean ====
section
/-! DEFINITION. What claims mean by a safe state: the canonical form of the block's memories, the safe state of the outputs
(R36), and the parts of State that a command leaves as they are. -/

namespace Sys2Proof.Machine

open Sys2Proof

/-- DRAM is canonical: addresses strictly rising, no zero byte listed, and every address below 128 MiB (R336). -/
def dramOk (s : State) : Prop := twf dZeroB s.dram = true ∧ ∀ p ∈ s.dram, p.1 < dramSize

/-- The register map is canonical: stored words and words in force are listed only where they differ from their reset
values (R17). -/
def regsOk (s : State) : Prop := twf regReset s.regs = true ∧ twf regReset s.force = true

/-- Every memory of the block is in its canonical form. -/
def memoryOk (s : State) : Prop := dramOk s ∧ regsOk s

/-- Every gate output is low (R36). -/
def gatesLow (s : State) : Prop := ∀ p, p < 12 → ghLevel s p = false ∧ glLevel s p = false

/-- The fields of State, as names. -/
inductive Part where
  | pending | tick | regs | events | force | dirty | dram | dev | groups | present | damask | clock | links | mod | units | gorse
  | conv | time | eth | meas | meter | bracken | host | therm | power
  deriving DecidableEq, Repr

/-- The field named p is the same in both states. -/
def samePart (p : Part) (s t : State) : Prop :=
  match p with
  | .pending => t.pending = s.pending
  | .tick => t.tick = s.tick
  | .regs => t.regs = s.regs
  | .events => t.events = s.events
  | .force => t.force = s.force
  | .dirty => t.dirty = s.dirty
  | .dram => t.dram = s.dram
  | .dev => t.dev = s.dev
  | .groups => t.groups = s.groups
  | .present => t.present = s.present
  | .damask => t.damask = s.damask
  | .clock => t.clock = s.clock
  | .links => t.links = s.links
  | .mod => t.mod = s.mod
  | .units => t.units = s.units
  | .gorse => t.gorse = s.gorse
  | .conv => t.conv = s.conv
  | .time => t.time = s.time
  | .eth => t.eth = s.eth
  | .meas => t.meas = s.meas
  | .meter => t.meter = s.meter
  | .bracken => t.bracken = s.bracken
  | .host => t.host = s.host
  | .therm => t.therm = s.therm
  | .power => t.power = s.power

/-- Every field but those of the list is unchanged: the frame of a command. -/
def unchangedBut (l : List Part) (s t : State) : Prop := ∀ p, p ∉ l → samePart p s t

/-- The registers that an interrupt event writes: SRC_STATUS, STATUS of the service interrupts, stamps and their overrun
bits (R342 to R345). -/
def intReg (a : Nat) : Prop :=
  (0x40000 ≤ a ∧ a < 0x40010) ∨ (0x50800 ≤ a ∧ a < 0x50C08) ∨ (0x400030 ≤ a ∧ a < 0x400040)

/-- Every register but those of A, and those that an interrupt event writes, holds the word it held: the frame of a
command within the register map. -/
def regsBut (A : Nat → Prop) (s t : State) : Prop := ∀ a, ¬ A a → ¬ intReg a → rd t a = rd s a

/-- Every field but the queue and true time. -/
def allParts : List Part :=
  [.regs, .events, .force, .dirty, .dram, .dev, .groups, .present, .damask, .clock, .links, .mod, .units, .gorse, .conv,
    .time, .eth, .meas, .meter, .bracken, .host, .therm, .power]

/-- The fields of State that a command may write (its effect, the flags and interrupts that the effect raises, and, for
a command that the host writes, the host watchdog). A reset writes all but the queue and true time. -/
def parts (c : Instr) : List Part :=
  match c with
  | .commitReq _ => [.regs, .events, .groups, .gorse, .time, .host]
  | .cutoff _ => [.regs, .events, .dirty, .groups, .damask, .links, .mod, .units, .gorse, .time, .host, .therm]
  | .periodBoundary _ => [.regs, .events, .force, .dirty, .groups, .damask, .links, .mod, .units, .gorse, .conv,
      .time, .meas, .meter, .host, .therm, .power]
  | .mirrorCopyEnd _ => [.groups]
  | .coefCopyDone _ => [.regs, .units]
  | .muComputeStart _ => [.units]
  | .muComputeDone _ => [.regs, .events, .units, .time, .host, .therm]
  | .midCutoff _ => [.regs, .events, .dirty, .groups, .links, .mod, .time, .host]
  | .midPeriodTransfer _ => [.force, .groups, .links]
  | .gateEdge _ _ => [.regs, .events, .mod]
  | .clockGroupStart => [.regs, .events, .groups, .damask, .units, .time, .host]
  | .imageActivation => [.regs, .events, .force, .dirty, .dev, .groups, .present, .damask, .links, .mod, .units,
      .gorse, .conv, .time, .eth, .meas, .meter, .host, .power]
  | .selfCal _ _ => [.regs, .events, .gorse, .time, .host]
  | .tileLoad _ _ _ _ => [.regs, .events, .gorse, .time, .host]
  | .tileSwap _ _ _ _ _ => [.regs, .events, .gorse, .time, .host]
  | .linkTrain _ _ _ => [.regs, .events, .gorse, .time, .host]
  | .offstateDiag _ _ _ _ => [.regs, .events, .gorse, .time, .host]
  | .cmpSelftest _ _ => [.regs, .events, .gorse, .time, .host]
  | .histCapture _ _ _ _ _ _ => [.regs, .events, .gorse, .time, .host]
  | .waveDump _ _ _ => [.regs, .events, .gorse, .time, .host]
  | .twLocate _ _ _ => [.regs, .events, .gorse, .time, .host]
  | .mramScrub _ _ => [.regs, .events, .gorse, .time, .host]
  | .badOpcode _ _ => [.regs, .events, .gorse, .time, .host]
  | .opStart _ => [.regs, .events, .force, .dirty, .damask, .links, .mod, .units, .gorse, .conv, .time, .meas,
      .meter, .host, .therm, .power]
  | .sectionProgramDone _ _ => [.regs, .events, .damask, .time, .host]
  | .suspend _ => [.regs, .events, .gorse, .time, .host]
  | .resume _ => [.regs, .events, .damask, .gorse, .time, .host, .therm]
  | .cancel _ => [.regs, .events, .dirty, .damask, .links, .gorse, .conv, .time, .host, .therm]
  | .svcOpCancel _ => [.regs, .events, .dirty, .damask, .links, .gorse, .conv, .time, .host, .therm]
  | .opSuspensionPoint _ => [.regs, .events, .time, .host, .therm]
  | .tileDiscard _ => [.regs, .events, .damask, .gorse, .time, .host]
  | .scrubSweep _ => [.regs, .events, .dirty, .dev, .groups, .damask, .links, .mod, .gorse, .time, .meas, .meter,
      .host, .power]
  | .keyProg _ => [.damask, .gorse, .host]
  | .keyProgDone _ => [.damask]
  | .qspiReadDone _ _ => [.regs, .events, .dram, .damask, .time, .host]
  | .bar2Write _ _ => [.regs, .events, .dram, .time, .host]
  | .bar2Read _ _ _ => [.regs, .events, .time, .host]
  | .refclkDetect _ => [.regs, .events, .clock, .time, .host, .power]
  | .rootLock => [.regs, .events, .clock]
  | .mLock => [.regs, .events, .clock]
  | .dividerRelease => [.regs, .clock]
  | .refLoss => [.regs, .events, .clock, .time, .host]
  | .wzRefLoss => [.regs, .events, .clock, .time, .host]
  | .rootLol => [.regs, .events, .time, .host]
  | .mLol => [.regs, .events, .dirty, .links, .time, .host]
  | .fineCalFail _ => [.regs, .events, .clock, .time, .host]
  | .lockReacquired _ => [.regs, .events, .clock]
  | .sscApply _ => [.clock, .gorse, .host]
  | .profileOrigin => [.regs, .clock]
  | .refSelWrite _ => [.regs, .events, .clock, .gorse, .time, .host]
  | .clkMon _ => [.regs, .events, .dev, .groups, .links, .mod, .gorse, .time, .meas, .host, .power]
  | .phaseAcquired _ _ => [.links]
  | .upLock _ => [.regs, .events, .dirty, .links, .gorse]
  | .alignTimeout _ => [.regs, .dirty, .links]
  | .markerErr _ => [.regs, .events, .dev, .groups, .links, .mod, .gorse, .time, .meas, .host, .power]
  | .phaseLimit _ => [.regs, .events, .links, .time, .host]
  | .ebufErr _ => [.regs, .events, .links, .time, .host]
  | .trainingBlockRx _ _ => [.regs, .events, .dirty, .dev, .groups, .links, .mod, .gorse, .time, .meas, .host, .power]
  | .capTimeout _ => [.regs, .dirty, .links]
  | .checkWindowDone _ => [.regs, .dirty, .links]
  | .ackTimeout _ => [.regs, .dirty, .links]
  | .countdownEnd _ => [.regs, .dirty, .links]
  | .dckRestart _ => [.regs, .dirty, .links]
  | .fallbackConfirm _ => [.regs, .dirty, .links]
  | .linkTrainDone => [.regs, .events, .links, .time, .host]
  | .bitslipUp _ => [.regs, .events, .links, .gorse, .time, .host]
  | .bitslipDown _ => [.regs, .events, .links, .gorse, .time, .host]
  | .alignModeChange _ => [.links]
  | .loopWrite _ _ => [.regs, .events, .links, .gorse, .time, .host]
  | .loopFail _ => [.regs, .events, .time, .host]
  | .ddtSkewApply _ => [.links]
  | .downstreamSuperframeStart _ => [.regs, .events, .links, .time, .host]
  | .upstreamSuperframeRx _ _ _ => [.regs, .events, .dirty, .dev, .groups, .links, .mod, .gorse, .time, .meas, .host,
      .therm, .power]
  | .echoLoss _ => [.regs, .events, .links, .time, .host]
  | .latencyUpdate _ => [.regs, .events, .links, .time, .host]
  | .asymTrimWrite _ _ => [.regs, .events, .links, .gorse, .time, .host]
  | .k28_3Rx _ => [.regs, .events, .dev, .groups, .links, .mod, .gorse, .time, .meas, .host, .power]
  | .dckStop _ => [.regs, .events, .links, .time, .host]
  | .edge _ _ _ _ _ _ _ => [.links]
  | .boundary _ _ _ _ _ _ _ => [.links]
  | .sample _ _ _ => [.links]
  | .supply _ _ _ => [.links]
  | .diag _ _ _ _ _ => [.links]
  | .grid _ _ _ _ _ _ => [.regs, .events, .groups, .links, .time, .host]
  | .wzTrip _ => [.regs, .events, .dev, .groups, .links, .mod, .gorse, .time, .meas, .host, .power]
  | .wzLink _ => [.regs, .events, .dev, .groups, .links, .mod, .gorse, .time, .meas, .host, .power]
  | .cellBlock _ _ => [.links]
  | .cellFaultLatch _ _ _ => [.links]
  | .incompletePeriod _ => [.links]
  | .dsatCrossing _ => [.regs, .events, .dev, .groups, .links, .mod, .gorse, .time, .meas, .host, .power]
  | .blankingEnd _ _ => [.regs, .events, .dev, .groups, .links, .mod, .gorse, .time, .meas, .host, .power]
  | .cSourceFiltered _ _ _ => [.regs, .events, .dev, .groups, .links, .mod, .gorse, .time, .meas, .host, .power]
  | .xchkReplayDone _ _ => [.regs, .events, .dev, .groups, .damask, .links, .mod, .gorse, .time, .meas, .host, .power]
  | .gorseSelftest _ _ _ => [.regs, .events, .dirty, .dev, .groups, .damask, .links, .mod, .gorse, .time, .meas,
      .meter, .host, .therm, .power]
  | .singleChLimit => [.regs, .events, .dev, .groups, .links, .mod, .gorse, .time, .meas, .host, .power]
  | .hostTrip _ => [.regs, .events, .dev, .groups, .links, .mod, .gorse, .time, .meas, .host, .power]
  | .hostSafeStop _ => [.regs, .events, .dev, .groups, .links, .mod, .gorse, .time, .meas, .host, .power]
  | .safeStop _ => [.regs, .events, .dev, .groups, .links, .mod, .gorse, .time, .meas, .host, .power]
  | .ssStep => [.regs, .events, .groups, .links, .mod, .gorse, .time, .host]
  | .ssWaitEnd => [.regs, .events, .groups, .links, .mod, .gorse, .time, .host]
  | .safeStopTimeout => [.regs, .events, .dev, .groups, .links, .mod, .gorse, .time, .meas, .host, .power]
  | .debugHalt => [.regs, .events, .dev, .groups, .links, .mod, .gorse, .time, .meas, .host, .power]
  | .enFall => [.regs, .events, .dev, .groups, .links, .mod, .gorse, .time, .meas, .host, .power]
  | .enRise _ => [.regs, .events, .dev, .links, .mod, .gorse, .time, .host]
  | .brkTurnOn => [.gorse]
  | .brkTurnOff => [.regs, .events, .gorse, .conv, .time, .meas, .host, .power]
  | .brkOvertime => [.gorse]
  | .offstateDiagDone _ => [.regs, .events, .links, .time, .host]
  | .cmpSelftestDone _ => [.regs, .events, .conv, .time, .host]
  | .tripRecRead _ _ => [.regs, .events, .gorse, .time, .bracken, .host]
  | .spotTrig _ => [.gorse, .conv, .host]
  | .spotPeriodicCapture _ => [.regs, .events]
  | .adcDataRead _ _ => [.regs, .events, .gorse, .time, .bracken, .host]
  | .refEnWrite _ => [.regs, .events, .gorse, .conv, .time, .host]
  | .refSettled => [.conv]
  | .selfCalCommit _ => [.regs, .events, .conv, .time, .host]
  | .ucalSave _ => [.gorse, .conv, .host]
  | .ucalSaveDone => [.conv]
  | .wcCrossing _ _ => [.regs, .events, .conv, .time, .meas, .host, .power]
  | .wcSettled _ _ => [.regs, .events, .conv, .time, .meas, .host, .power]
  | .capRead _ _ => [.regs, .events, .gorse, .time, .bracken, .host]
  | .rbCtrl _ => [.regs, .events, .gorse, .conv, .time, .host]
  | .readbackDone _ => [.regs, .conv]
  | .reg64LowRead _ _ => [.regs, .events, .gorse, .time, .bracken, .host]
  | .timeNsRead _ => [.regs, .events, .gorse, .time, .bracken, .host]
  | .timeAdj _ => [.regs, .events, .gorse, .time, .host]
  | .timeSet _ => [.regs, .events, .gorse, .time, .host]
  | .addendWrite _ _ => [.regs, .events, .gorse, .time, .host]
  | .ethFrameRx _ _ _ => [.regs, .events, .dram, .time, .eth, .meas, .host]
  | .servoMeasurement _ => [.regs, .events, .time, .host, .therm]
  | .holdoverEntry => [.regs, .events, .time, .host, .therm]
  | .holdoverCorrection => [.regs, .events, .time, .host, .therm]
  | .ppsOutRise => [.time]
  | .ppsOutFall => [.time]
  | .ppsInEdge => [.regs, .events, .time, .host, .therm]
  | .ppsInMissing => [.regs, .events, .time, .host]
  | .lqTailWrite _ _ => [.regs, .gorse, .eth, .host]
  | .frameLaunch _ _ => [.regs, .events, .dram, .time, .eth, .host]
  | .pmuReport _ _ => [.regs, .events, .dram, .time, .eth, .host]
  | .pmuCfgChange => [.regs, .events, .time, .meas, .host]
  | .dataOn => [.gorse, .meas, .host]
  | .dataOff => [.gorse, .meas, .host]
  | .sendCfg2 => [.regs, .events, .dram, .gorse, .time, .eth, .host]
  | .sendHdr => [.regs, .events, .dram, .gorse, .time, .eth, .host]
  | .pmuNotice _ => [.gorse, .meas, .host]
  | .twFront _ _ _ => [.meas]
  | .twEventEnd => [.regs, .events, .dram, .time, .eth, .meas, .host]
  | .twLocateDone => [.regs, .events, .time, .host]
  | .recForce _ => [.gorse, .meas, .host]
  | .recFreeze => [.regs, .events, .time, .meas, .host]
  | .recRelease _ => [.gorse, .meas, .host]
  | .waveDumpDone => [.regs, .events, .dram, .time, .host]
  | .lineCycleEnd _ _ _ => [.regs, .events, .time, .meter, .host]
  | .pulseEnd _ => [.meter]
  | .periodicRecord => [.meter]
  | .noLine _ => [.meter]
  | .pfwNFall => [.meter, .power]
  | .finalRepeat => [.meter]
  | .energyClear _ => [.regs, .events, .gorse, .time, .meter, .host]
  | .brackenSecond _ _ _ => [.regs, .events, .time, .bracken, .host]
  | .alignmentRecord => [.regs, .events, .time, .bracken, .host]
  | .brClear _ => [.gorse, .bracken, .host]
  | .vbatRestart => [.regs, .events, .time, .bracken, .host]
  | .registerWrite _ _ _ _ _ => [.regs, .events, .dirty, .dram, .dev, .groups, .damask, .clock, .links, .mod, .gorse,
      .conv, .time, .eth, .meas, .meter, .bracken, .host, .therm, .power]
  | .rcRead _ _ _ => [.regs, .events, .gorse, .time, .bracken, .host]
  | .macHiWrite _ _ => [.regs, .events, .gorse, .time, .eth, .host]
  | .spiWrite _ => [.regs, .events, .dirty, .dev, .groups, .damask, .links, .mod, .gorse, .conv, .time, .meas, .host,
      .therm, .power]
  | .spiRead _ => [.regs, .events, .gorse, .time, .bracken, .host]
  | .spiBadCommand _ _ => [.regs, .events, .host]
  | .spiAbort _ => [.host]
  | .vecAck _ _ => [.regs, .events, .gorse, .time, .host, .therm]
  | .msixEnable => [.regs, .time, .host]
  | .watchdogExpire _ => [.regs, .events, .dev, .groups, .links, .mod, .gorse, .time, .meas, .host, .power]
  | .wdogWarn _ => [.regs, .events, .time, .host]
  | .hostWdogKick _ => [.gorse, .host]
  | .svcWdogKick _ => [.gorse, .host]
  | .histCaptureEnd => [.regs, .events, .time, .host, .therm]
  | .tsConversion _ _ => [.regs, .events, .time, .host, .therm]
  | .dieSensorConversion _ _ => [.regs, .events, .time, .host, .therm, .power]
  | .dieShutdown _ => allParts
  | .dieShutdownRelease _ => [.regs, .events, .dev, .groups, .damask, .links, .mod, .gorse, .time, .meas, .host,
      .power]
  | .quadRailMeasure _ => [.regs, .events, .time, .host, .power]
  | .powerOnReset => allParts
  | .resetN => allParts
  | .perstN => [.regs, .host, .power]
  | .resetRelease _ => [.regs, .events, .dev, .groups, .damask, .links, .mod, .gorse, .time, .meas, .host, .power]
  | .standbyEnter _ => [.regs, .events, .links, .gorse, .time, .host, .power]
  | .standbyWake _ => [.regs, .events, .links, .gorse, .time, .host, .power]
  | .standbyExitDone => [.links, .power]
  | .referenceReturn => [.regs, .events, .clock, .time, .host]
  | .timeCtrlWrite _ => [.regs, .events, .gorse, .time, .host]
  | .pfwNRise => [.meter]
  | .vbatLoss => [.bracken]
  | .brackenCrystalStop => [.regs, .events, .time, .bracken, .host]
  | .mramScrubDone _ _ _ => [.regs, .events, .time, .host]
  | .ethLinkChange _ _ => [.eth]
  | .ethCfgWrite _ _ => [.regs, .events, .gorse, .time, .host]
  | .converterSample _ => [.regs, .events, .dram, .conv, .time, .meas, .meter, .host, .therm]

/-- The commands that bring enables into force, enter RUN or reset the device. -/
def beyond (c : Instr) : Bool :=
  match c with
  | .periodBoundary _ => true
  | .imageActivation => true
  | .enRise _ => true
  | .dieShutdown _ => true
  | .powerOnReset => true
  | .resetN => true
  | _ => false

/-- The registers that note a clamped write to block b (R348): CLAMP_LAST, the flags of GLOBAL, the block's count. -/
def clampNote (b a : Nat) : Prop := a = aClampLast ∨ a = aGlobalSticky ∨ a = aSvc (0x100 + 4 * b)

/-- Slot i holds a new submission (R349, R350): QUEUED, the op code, the next generation, results cleared, each parameter
that the host gives with it as its range allows; the other slots are as they were. -/
def submitted (i op : Nat) (ps : List Word) (s t : State) : Prop :=
  (slot t i).st = .queued ∧ (slot t i).op = op ∧ (slot t i).res = [] ∧ (slot t i).started = false
    ∧ (slot t i).gen = (if (slot s i).gen < 4095 then (slot s i).gen + 1 else 1)
    ∧ (slot t i).order = s.host.nextOrder ∧ (slot t i).cancelLate = false ∧ (slot t i).suspReq = false
    ∧ (∀ n, n < ps.length → (slot t i).ps.getD n 0 = clampParam s op n ps)
    ∧ (∀ j, j ≠ i → slot t j = slot s j)
    ∧ regsBut (fun a => (∃ n, n < 8 ∧ a = aParam i n) ∨ clampNote 3 a) s t

end Sys2Proof.Machine
end

