-- ==== Sys2Proof/Certificates/Slice0/Obligations.lean ====
section
/-! DEFINITION. The statements for the provers. Unless a statement says otherwise it is about every state, whether or
not a run reaches it. A host-written command first restarts the host watchdog in MODE 0 (R346): its effect is stated
from `hostAccess s`. -/

open Sys2Proof Sys2Proof.Machine

/-! The machine as a whole. -/

/-- A step takes the command at the front of the queue and runs it on the state with the queue's rest. -/
def Obligations.StepRunsFront : Prop :=
  ∀ (c : Instr) (rest : List Instr) (s : State),
    step { s with pending := c :: rest } = exec c { s with pending := rest }

/-- With no command waiting one CORE_CLK cycle passes and nothing but true time and the time counter changes (the model's choice,
log entry 1; R9). -/
def Obligations.IdleTick : Prop :=
  ∀ s : State, s.pending = [] → ∃ t, step s = .next t ∧ t.tick = s.tick + 1 ∧ unchangedBut [.tick, .time] s t

/-- What reset leaves (R17, R34, R36, R46): CONFIG-WAIT, the memories canonical, every register at its reset value in staging and
in force, the outputs low, no clock group started, no command waiting.
Where the spec's words leave the reading open it follows the model's log entries 5, 6, 7. -/
def Obligations.ResetState : Prop :=
  State.reset.dev = .configWait ∧ memoryOk State.reset ∧ gatesLow State.reset ∧ State.reset.pending = []
    ∧ (∀ a, rd State.reset a = regReset a ∧ fo State.reset a = regReset a) ∧ (∀ g, (group State.reset g).started = false)

/-- Every step keeps DRAM and the register map in their canonical form (R17, R336). -/
def Obligations.MemoryInvariant : Prop :=
  ∀ s t : State, memoryOk s → step s = .next t → memoryOk t

/-- The frame of every command: a next state differs from the state before only in the fields that `parts` names; the queue and
true time never change in exec. -/
def Obligations.CommandFrame : Prop :=
  ∀ (c : Instr) (s t : State), exec c s = .next t → unchangedBut (parts c) s t

/-- The transitions of R34, over all commands: CONFIG-WAIT is left only by an image activation and entered only by a reset; RUN
is entered from CONFIG-WAIT by an activation and from TRIPPED or SAFE-STOP by an EN edge alone; SAFE-STOP is entered only
from RUN; TRIPPED from RUN, SAFE-STOP or by an activation.
Where the spec's words leave the reading open it follows the model's log entries 4, 70. -/
def Obligations.DeviceStateMoves : Prop :=
  ∀ (c : Instr) (s t : State), exec c s = .next t →
    match t.dev with
    | .configWait => s.dev = .configWait ∨ c = .powerOnReset ∨ c = .resetN ∨ ∃ d, c = .dieShutdown d
    | .run => s.dev = .run ∨ (c = .imageActivation ∧ s.dev = .configWait)
        ∨ ((∃ x, c = .enRise x) ∧ (s.dev = .tripped ∨ s.dev = .safeStop))
    | .safeStop => s.dev = .safeStop ∨ s.dev = .run
    | .tripped => s.dev = .tripped ∨ s.dev = .run ∨ s.dev = .safeStop ∨ (c = .imageActivation ∧ s.dev = .configWait)

/-- No command but a period boundary brings a channel-group enable into force (R14, R163): every other command leaves the enables
in force as they are or clears some.
Where the spec's words leave the reading open it follows the model's log entry 67. -/
def Obligations.EnablesAtBoundary : Prop :=
  ∀ (c : Instr) (s t : State), (∀ g, c ≠ .periodBoundary g) → exec c s = .next t → t.mod.en &&& s.mod.en = t.mod.en

/-- Gate outputs outside RUN and outside a safe-stop sequence are low (R36). -/
def Obligations.OutputsSafe : Prop :=
  ∀ s : State, s.dev = .configWait ∨ s.dev = .tripped ∨ (s.dev = .safeStop ∧ s.gorse.ssRunning = false) → gatesLow s

/-! Commits and clock groups (chapter 1). -/

/-- COMMIT_REQ outside CONFIG-WAIT (R27, R29, R46): each group named that the image defines has its request, no other group
changes; a request that misses the cutoff of the coming boundary or of the coming mid-period instant is counted as late in
COMMIT_LATE_CNT (R26, R29); a group not defined sets COMMIT_REFUSED. In CONFIG-WAIT the write sets COMMIT_REFUSED alone
(R31). -/
def Obligations.CommitRequest : Prop :=
  (∀ (v : Word) (s : State), s.dev ≠ .configWait → ∃ t, exec (.commitReq v) s = .next t
      ∧ (∀ g, group t g = if g < 8 ∧ v.getLsbD g = true ∧ s.present.testBit g = true
          then { group s g with req := true } else group s g)
      ∧ ((∃ g, g < 8 ∧ v.getLsbD g = true ∧ s.present.testBit g = false) → bit (rd t aCommitFlags) 0 = true)
      ∧ (let late := ((List.range 8).filter (fun g => v.getLsbD g && s.present.testBit g
          && ((group s g).cut || (group s g).midWait))).length
         (rd s aCommitLate).toNat + late < 2 ^ 32 → rd t aCommitLate = wd ((rd s aCommitLate).toNat + late))
      ∧ regsBut (fun a => a = aCommitFlags ∨ a = aCommitLate) s t)
  ∧ (∀ (v : Word) (s : State), s.dev = .configWait → ∃ t, exec (.commitReq v) s = .next t
      ∧ bit (rd t aCommitFlags) 0 = true ∧ t.groups = s.groups ∧ regsBut (fun a => a = aCommitFlags) s t)

/-- The cutoff of a started group whose cutoff has not passed (R25, R27, R172): it passes, the words in force stay as they are,
and no other group changes. A request, where no tile swap is under way and pair-lock holds no period: the group's staged
writes (on a follower all but the period's, which comes from GRID) are taken in and leave staging, and no other register
does. Where pair-lock holds the period, the request waits, PL_HOLDING is set, and nothing leaves staging. Without a request
nothing leaves staging. -/
def Obligations.CutoffTakesIn : Prop :=
  ∀ (g : GroupNo) (s : State), s.present.testBit g = true → (group s g).started = true → (group s g).cut = false →
    ∃ t, exec (.cutoff g) s = .next t ∧ (group t g).cut = true ∧ t.force = s.force
      ∧ (∀ h, h ≠ g.val → group t h = group s h)
      ∧ ((group s g).req = true → s.damask.swap = none → plBlocks s g = false →
          let regs := (stagedOf s g).filter (fun p => !(s.damask.wzRole == 2 && p.1 == aCgPeriod g))
          (group t g).req = false ∧ (group t g).taken = true ∧ (group t g).takenRegs = regs ∧ (group t g).written = []
            ∧ (group t g).plHold = false ∧ t.dirty = s.dirty.filter (fun a => !(regs.any (fun p => p.1 == a))))
      ∧ ((group s g).req = true → s.damask.swap = none → plBlocks s g = true →
          (group t g).req = true ∧ (group t g).plHold = true ∧ (group t g).taken = (group s g).taken ∧ t.dirty = s.dirty)
      ∧ ((group s g).req = false → (group t g).taken = (group s g).taken ∧ t.dirty = s.dirty)

/-- A period boundary (R24, R26, R27, R32, R37, R46, R163): the boundary count rises by one, the period that the coming one was
computed for is in force, the next cutoff and mid cutoff are to come, the mid-period instant settled at the cutoff stands,
and the copy into the mirror begins. A commit that was taken in is in force: CG_COMMIT shows this boundary, and, where no
swap is under way, every modulation register taken in has its word in force; the enables taken in are in force where no safe-
stop step ends here. No other group changes.
Where the spec's words leave the reading open it follows the model's log entries 40, 43. -/
def Obligations.PeriodBoundary : Prop :=
  ∀ (g : GroupNo) (s : State), s.present.testBit g = true → (group s g).started = true → (group s g).cut = true →
    ∃ t, exec (.periodBoundary g) s = .next t
      ∧ (group t g).boundary = ((group s g).boundary + 1) % 2 ^ 64 ∧ (group t g).bAt = s.tick
      ∧ (group t g).bTap = nextTap s g ∧ (group t g).period = comingPeriod s g
      ∧ (group t g).cut = false ∧ (group t g).midCut = false ∧ (group t g).midWait = false
      ∧ (group t g).midAt = (group s g).midNext ∧ (group t g).taken = false ∧ (group t g).mirrorSeq % 2 = 1
      ∧ (∀ h, h ≠ g.val → group t h = group s h)
      ∧ ((group s g).taken = true → (group t g).commitAt = ((group s g).boundary + 1) % 2 ^ 32)
      ∧ ((group s g).taken = true → s.damask.swap = none → ((group s g).takenRegs.map Prod.fst).Nodup →
          ∀ p ∈ (group s g).takenRegs, 0x100000 ≤ p.1 → p.1 < 0x180000 → fo t p.1 = p.2)
      ∧ (s.damask.swap = none → s.gorse.ssWaiting = false →
          t.mod.en = if (group s g).taken then comingEn s g else s.mod.en)

/-- The other instants of a clock group (R26, R38, R46, R174). The end of a mirror copy makes MIRROR_SEQ even again. The mid
cutoff of a group whose coming mid-period instant exists passes: where a request stands that pair-lock does not hold, the
staged compares of the channel groups with mid-period updates are taken in and leave staging, else nothing is. At the mid-
period instant the compares taken in are in force. At the first alignment instant every group that the image defines has
boundary 0, and its mirror is filled.
Where the spec's words leave the reading open it follows the model's log entries 2, 40. -/
def Obligations.GroupInstants : Prop :=
  (∀ (g : GroupNo) (s : State), (group s g).mirrorSeq % 2 = 1 → ∃ t, exec (.mirrorCopyEnd g) s = .next t
      ∧ group t g = { group s g with mirrorSeq := (group s g).mirrorSeq + 1 }
      ∧ (∀ h, h ≠ g.val → group t h = group s h) ∧ unchangedBut [.groups] s t)
  ∧ (∀ (g : GroupNo) (s : State), s.present.testBit g = true → (group s g).started = true →
      (group s g).midCut = false → (group s g).cut = false → s.mod.upd &&& chgMask s g ≠ 0 → (group s g).midAt ≠ 0 →
      ∃ t, exec (.midCutoff g) s = .next t ∧ (group t g).midCut = true ∧ (group t g).midWait = true ∧ t.force = s.force
      ∧ ((group s g).req = true → (group s g).plHold = false → plBlocks s g = false →
          (group t g).midRegs = midStaged s g
          ∧ t.dirty = s.dirty.filter (fun a => !((midStaged s g).any (fun w => w.1 == a))))
      ∧ ((group s g).req = false ∨ (group s g).plHold = true ∨ plBlocks s g = true →
          (group t g).midRegs = (group s g).midRegs ∧ t.dirty = s.dirty)
      ∧ (∀ h, h ≠ g.val → group t h = group s h))
  ∧ (∀ (g : GroupNo) (s : State), ((group s g).midRegs.map Prod.fst).Nodup → ∃ t,
      exec (.midPeriodTransfer g) s = .next t ∧ (group t g).midRegs = [] ∧ (group t g).midWait = false
      ∧ (∀ p ∈ (group s g).midRegs, fo t p.1 = p.2)
      ∧ (∀ a, a ∉ (group s g).midRegs.map Prod.fst → fo t a = fo s a))
  ∧ (∀ s : State, s.damask.imageValid = true → s.damask.wzRole ≠ 2 → ∃ t, exec .clockGroupStart s = .next t
      ∧ (∀ g, g < 8 → s.present.testBit g = true → (group s g).started = false →
          (group t g).started = true ∧ (group t g).boundary = 0 ∧ (group t g).bAt = s.tick ∧ (group t g).mirrorSeq % 2 = 1)
      ∧ (∀ g, s.present.testBit g = false ∨ (group s g).started = true → group t g = group s g))

/-! The control engine (chapter 7). -/

/-- A matrix unit within its period (R186, R192, R194, R195, R200): 100 ns after the boundary it computes; it completes with the
law's result and the counts of saturated and limited elements, each flagged where it is not zero; the copy of a coefficient
bank ends with staging equal to the bank in force, except for words that the host has written since or that a cutoff has
taken in. Nothing else changes.
Where the spec's words leave the reading open it follows the model's log entries 42, 43. -/
def Obligations.MatrixUnit : Prop :=
  (∀ (u : UnitNo) (g : Nat) (s : State), unitGroup s u = some g → unitComputes s u = true → (group s g).cut = false →
      (munit s u).ready = none → ∃ t, exec (.muComputeStart u) s = .next t
      ∧ munit t u = { munit s u with busy := true } ∧ (∀ v, v ≠ u.val → munit t v = munit s v)
      ∧ unchangedBut [.units] s t)
  ∧ (∀ (u : UnitNo) (s : State), (munit s u).busy = true → ∃ t, exec (.muComputeDone u) s = .next t
      ∧ (let r := lawStep (lawOf s u) (munit s u).x (munit s u).u (munit s u).ins
         munit t u = { munit s u with busy := false, ready := some r, satTotal := (munit s u).satTotal + r.2.2.1,
                                      limitTotal := (munit s u).limitTotal + r.2.2.2 }
         ∧ (r.2.2.1 ≠ 0 → bit (rd t (aMu u 0x0C)) 0 = true) ∧ (r.2.2.2 ≠ 0 → bit (rd t (aMu u 0x0C)) 4 = true)
         ∧ (r.2.2.1 = 0 → r.2.2.2 = 0 → rd t (aMu u 0x0C) = rd s (aMu u 0x0C)))
      ∧ (∀ v, v ≠ u.val → munit t v = munit s v) ∧ regsBut (fun a => a = aMu u 0x0C ∨ a = aMonSticky) s t
      ∧ unchangedBut [.regs, .events, .units, .time, .host, .therm] s t)
  ∧ (∀ (u : UnitNo) (s : State), (munit s u).copying = true → ∃ t, exec (.coefCopyDone u) s = .next t
      ∧ munit t u = { munit s u with copying := false } ∧ (∀ v, v ≠ u.val → munit t v = munit s v)
      ∧ (∀ a ∈ coefAddrs u, (∀ g, unitGroup s u = some g → a ∉ (group s g).takenRegs.map Prod.fst) →
          rd t a = if s.dirty.contains a then rd s a else fo s a)
      ∧ (∀ a g, unitGroup s u = some g → a ∈ (group s g).takenRegs.map Prod.fst → rd t a = rd s a)
      ∧ (∀ a, a ∉ coefAddrs u → rd t a = rd s a) ∧ unchangedBut [.regs, .units] s t)

/-- Arithmetic of the law (R193): a term is its exact product rounded to nearest, halves upwards, at the shift; a result outside
32 signed bits saturates to the nearer bound. -/
def Obligations.LawArithmetic : Prop :=
  (∀ (c v : Int) (sh : Nat), term c sh v * 2 ^ sh * 2 ≤ 2 * (c * v) + 2 ^ sh
      ∧ 2 * (c * v) + 2 ^ sh < (term c sh v + 1) * 2 ^ sh * 2 ∨ sh = 0 ∧ term c sh v = c * v)
  ∧ ∀ v : Int, -2147483648 ≤ sat32 v ∧ sat32 v ≤ 2147483647
      ∧ (-2147483648 ≤ v → v ≤ 2147483647 → sat32 v = v)
      ∧ (v < -2147483648 → sat32 v = -2147483648) ∧ (2147483647 < v → sat32 v = 2147483647)

/-! Modulation (chapter 6). -/

/-- The waveform of one channel (R161, R164, R168): over a period of p steps of 400 ps, a compare of 0 is never on, one of p or
more is on throughout, and any other is on for exactly c × 400 ps, in ascending intervals within the period. A scheduled gate
edge (R90, R99, R165, R167) leaves the pair's schedule, that side's command takes its level, and the side's generator places
it at its count and fine part, the fine part 0 on a generator without fine-delay lock; the other side, the commands of the
other pairs and every field but registers and modulation stay as they are.
Where the spec's words leave the reading open it follows the model's log entries 45, 46. -/
def Obligations.ChannelWaveform : Prop :=
  (∀ (saw : Bool) (p c phase : Nat), 0 < p →
    ((chanOn saw p c phase).map (fun i => i.2 - i.1)).sum = 16 * min c p
      ∧ (∀ i ∈ chanOn saw p c phase, i.1 < i.2 ∧ i.2 ≤ 16 * p)
      ∧ (chanOn saw p c phase).Pairwise (fun i j => i.2 ≤ j.1))
  ∧ (∀ (p : PairNo) (high : Bool) (e : Edge) (r : List Edge) (s : State), takeEdge high (pair s p).sched = some (e, r) →
    ∃ t, exec (.gateEdge p high) s = .next t ∧ (pair t p).sched = r
      ∧ (pair t p).cmdH = (if high then e.level else (pair s p).cmdH)
      ∧ (pair t p).cmdL = (if high then (pair s p).cmdL else e.level)
      ∧ (pair t p).outH = (if high then genOut s p e else (pair s p).outH)
      ∧ (pair t p).outL = (if high then (pair s p).outL else genOut s p e)
      ∧ (∀ q, q ≠ p.val → (pair t q).cmdH = (pair s q).cmdH ∧ (pair t q).cmdL = (pair s q).cmdL
          ∧ (pair t q).sched = (pair s q).sched)
      ∧ regsBut (fun a => a = aBlankPendCnt) s t ∧ unchangedBut [.regs, .events, .mod] s t)

/-! Twill lanes and bring-up (chapter 4). -/

/-- Alignment (R106, R111, R113, R120, R122). The eye of a sweep is the widest run of open steps round the unit interval, and the
pick lies in its middle (which of two middle steps and which of equal runs: log entry 139); both are kept. Marker lock in
ALIGN goes on to capability exchange, or to the CHECK of a fallback, or fails with EYE_NARROW below 16 steps of eye, the
buffer at its centre; an inbound Wozin port locks without an eye of its own. No lock in time fails with NO_UPSTREAM, but
after a rate switch it is a failed switch. The fourth marker error in a row drops the lock and sets UP_LOSS, before that the
run counts on; each is counted.
Where the spec's words leave the reading open it follows the model's log entry 79. -/
def Obligations.LinkAlignment : Prop :=
  (∀ eye : BitVec 64, (∃ b, (∀ i, i < (eyeOf eye).1 → eye.getLsbD ((b + i) % 64) = true)
        ∧ (eyeOf eye).2 = (b + (eyeOf eye).1 / 2) % 64)
      ∧ ∀ b w, b < 64 → w ≤ 64 → (∀ i, i < w → eye.getLsbD ((b + i) % 64) = true) → w ≤ (eyeOf eye).1)
  ∧ (∀ (l : LinkNo) (eye : BitVec 64) (s : State), picks (link s l) = true → ∃ t, exec (.phaseAcquired l eye) s = .next t
      ∧ link t l = { link s l with
          eyeWidth := (eyeOf eye).1, pick := (eyeOf eye).2, pickFf := feedForward s l (100 * s.tick) }
      ∧ (∀ k, k ≠ l.val → link t k = link s k) ∧ unchangedBut [.links] s t)
  ∧ (∀ (l : LinkNo) (s : State), wzInbound s l = false → (link s l).st = .align → (link s l).upLock = false →
      (link s l).dck = true → ∃ t, exec (.upLock l) s = .next t
      ∧ ((link s l).eyeWidth < 16 → (link t l).st = .failed ∧ (link t l).fail = .eyeNarrow ∧ (link t l).dck = false)
      ∧ (16 ≤ (link s l).eyeWidth → (link t l).upLock = true ∧ (link t l).ebufFill = 16
          ∧ ((link s l).fallback = false → (link t l).st = .capExchange)
          ∧ ((link s l).fallback = true → (link t l).st = .check ∧ (link t l).fallback = true ∧ (link t l).fbClean = 0))
      ∧ (∀ k, k ≠ l.val → link t k = link s k) ∧ unchangedBut [.regs, .events, .links, .gorse] s t)
  ∧ (∀ (l : LinkNo) (s : State), wzInbound s l = true → (link s l).st ≠ .loopback → (link s l).upLock = false →
      ∃ t, exec (.upLock l) s = .next t ∧ (link t l).upLock = true ∧ (link t l).dck = true ∧ (link t l).ebufFill = 16
      ∧ (link t l).st = (if (link s l).st = .disabled ∨ (link s l).st = .failed then .align else (link s l).st)
      ∧ (∀ k, k ≠ l.val → link t k = link s k))
  ∧ (∀ (l : LinkNo) (s : State), (link s l).st = .align → (link s l).upLock = false → (link s l).manual = false →
      ∃ t, exec (.alignTimeout l) s = .next t
      ∧ ((link s l).stage ≠ .restarted → (link t l).st = .failed ∧ (link t l).fail = .noUpstream ∧ (link t l).dck = false)
      ∧ ((link s l).stage = .restarted → (link s l).fallback = true → (link t l).st = .failed ∧ (link t l).fail = .ber)
      ∧ ((link s l).stage = .restarted → (link s l).fallback = false → (link s l).tries < retries s l →
          (link t l).st = .rateSwitch ∧ (link t l).stage = .request ∧ (link t l).tries = (link s l).tries + 1
          ∧ (link t l).target = (link s l).target)
      ∧ ((link s l).stage = .restarted → (link s l).fallback = false → retries s l ≤ (link s l).tries →
          (link s l).goodRate.getD 0 = 0 → (link t l).st = .failed ∧ (link t l).fail = .noUpstream)
      ∧ (∀ k, k ≠ l.val → link t k = link s k) ∧ unchangedBut [.regs, .links] s t)
  ∧ (∀ (l : LinkNo) (s : State), (link s l).upLock = true → (link s l).dck = true ∨ (link s l).st = .loopback →
      ∃ t, exec (.markerErr l) s = .next t
      ∧ ((link s l).markerRun < 3 → (link t l).markerRun = (link s l).markerRun + 1 ∧ (link t l).upLock = true)
      ∧ (3 ≤ (link s l).markerRun → (link t l).upLock = false ∧ (link t l).markerRun = 0 ∧ (link t l).latValid = false
          ∧ bit (rd t (aLink l 0x10)) 0 = true)
      ∧ rd t (aLink l 0x2C) = satInc (rd s (aLink l 0x2C)) 1)

/-- Errors of the receive path (R107, R108, R125): a phase residual out of range sets PHASE_LIMIT, and a receiver that picks
phases sweeps again, its eye and pick as before the first sweep until then (log entry 141); an elastic buffer error sets its
flag, drops the lock and centres the buffer; a far-end loop without synchronism after 16 superframes sets LOOP_FAIL. DCK
stops at the end of the first superframe that began after the block run did: UP_LOCK and LAT_VALID clear and the link keeps
its state (R105, R127, R136).
Where the spec's words leave the reading open it follows the model's log entry 84. -/
def Obligations.LinkErrors : Prop :=
  (∀ (l : LinkNo) (s : State), ∃ t, exec (.phaseLimit l) s = .next t ∧ bit (rd t (aLink l 0x10)) 2 = true
      ∧ link t l = (if picks (link s l) then { link s l with eyeWidth := 0, pick := 0, pickFf := 0 } else link s l)
      ∧ regsBut (fun a => a = aLink l 0x10) s t ∧ (∀ k, k ≠ l.val → link t k = link s k))
  ∧ (∀ (l : LinkNo) (s : State), ∃ t, exec (.ebufErr l) s = .next t ∧ bit (rd t (aLink l 0x10)) 1 = true
      ∧ (link t l).upLock = false ∧ (link t l).ebufFill = 16 ∧ (∀ k, k ≠ l.val → link t k = link s k)
      ∧ regsBut (fun a => a = aLink l 0x10) s t)
  ∧ (∀ (l : LinkNo) (s : State), (link s l).st = .loopback → (link s l).loop = 3 → (link s l).loopSync = false →
      16 ≤ (link s l).frames → ∃ t, exec (.loopFail l) s = .next t
      ∧ bit (rd t (aLink l 0x10)) 6 = true ∧ regsBut (fun a => a = aLink l 0x10) s t ∧ t.links = s.links)
  ∧ (∀ (l : LinkNo) (s : State), (link s l).dck = true → (link s l).stopDue = true → (link s l).runFrames ≠ 0 →
      ∃ t, exec (.dckStop l) s = .next t ∧ (link t l).dck = false ∧ (link t l).upLock = false
      ∧ (link t l).latValid = false ∧ (link t l).st = (link s l).st ∧ (link t l).txBlock = false
      ∧ (link t l).stopDue = false ∧ (∀ k, k ≠ l.val → ∃ b, link t k = { link s k with rangeNow := b }))

/-- Bring-up past alignment (R120 to R122): the time for capabilities runs out after 1,024 superframes; a clean check window ends
LINKED at the final rate, or asks for the next rate; no ACK within 1,024 superframes is a failed switch, which retries, gives
up, or falls back to the last good rate; the countdown stops DCK, its restart goes back to ALIGN at the target rate; 4,096
clean superframes after a fallback end LINKED at a limited rate. LINK_TRAIN ends when every link it names has its outcome:
the operation completes and no link is named any more; while one has none, nothing happens (R356).
Where the spec's words leave the reading open it follows the model's log entries 76, 78. -/
def Obligations.LinkBringUp : Prop :=
  (∀ (l : LinkNo) (s : State), (link s l).st = .capExchange → 1024 ≤ (link s l).frames →
      ∃ t, exec (.capTimeout l) s = .next t ∧ (link t l).st = .failed ∧ (link t l).fail = .capInvalid
      ∧ (link t l).dck = false ∧ (∀ k, k ≠ l.val → link t k = link s k) ∧ unchangedBut [.links] s t)
  ∧ (∀ (l : LinkNo) (s : State), (link s l).st = .check → (link s l).fallback = false → (link s l).checkTail = some 0 →
      ∃ t, exec (.checkWindowDone l) s = .next t ∧ (link t l).goodRate = some (link s l).rate
      ∧ ((link s l).rate = (link s l).finalRate → (link t l).st = .linked ∧ (link t l).rateLimited = false
          ∧ (link t l).fail = .none ∧ (link t l).blk = true)
      ∧ ((link s l).rate ≠ (link s l).finalRate → (link t l).st = .rateSwitch ∧ (link t l).stage = .request
          ∧ (link t l).target = nextRate (bothRates s l (link s l).partnerCap) (link s l).rate)
      ∧ (∀ k, k ≠ l.val → link t k = link s k) ∧ unchangedBut [.links] s t)
  ∧ (∀ (l : LinkNo) (s : State), (link s l).st = .rateSwitch → (link s l).stage = .request → 1024 ≤ (link s l).frames →
      ∃ t, exec (.ackTimeout l) s = .next t
      ∧ ((link s l).fallback = true → (link t l).st = .failed ∧ (link t l).fail = .ber)
      ∧ ((link s l).fallback = false → (link s l).tries < retries s l → (link t l).st = .rateSwitch
          ∧ (link t l).stage = .request ∧ (link t l).tries = (link s l).tries + 1
          ∧ (link t l).target = (link s l).target ∧ (link t l).rate = (link s l).goodRate.getD 0)
      ∧ ((link s l).fallback = false → retries s l ≤ (link s l).tries → (link s l).goodRate.getD 0 = 0 →
          (link t l).st = .failed ∧ (link t l).fail = .noAck)
      ∧ ((link s l).fallback = false → retries s l ≤ (link s l).tries → (link s l).goodRate.getD 0 ≠ 0 →
          (link s l).rate = (link s l).goodRate.getD 0 → (link t l).fallback = true ∧ (link t l).st = .check)
      ∧ (∀ k, k ≠ l.val → link t k = link s k))
  ∧ (∀ (l : LinkNo) (s : State), (link s l).st = .rateSwitch → (link s l).stage = .countdown →
      (link s l).countdown = some 0 → ∃ t, exec (.countdownEnd l) s = .next t ∧ (link t l).stage = .stopped
      ∧ (link t l).dck = false ∧ (link t l).upLock = false ∧ (∀ k, k ≠ l.val → link t k = link s k)
      ∧ unchangedBut [.links] s t)
  ∧ (∀ (l : LinkNo) (s : State), (link s l).st = .rateSwitch → (link s l).stage = .stopped →
      ∃ t, exec (.dckRestart l) s = .next t ∧ (link t l).st = .align ∧ (link t l).stage = .restarted
      ∧ (link t l).rate = (link s l).target ∧ (link t l).dck = true ∧ (∀ k, k ≠ l.val → link t k = link s k)
      ∧ unchangedBut [.links] s t)
  ∧ (∀ (l : LinkNo) (s : State), (link s l).fallback = true → (link s l).st = .check → 4096 ≤ (link s l).fbClean →
      ∃ t, exec (.fallbackConfirm l) s = .next t ∧ (link t l).st = .linked ∧ (link t l).rateLimited = true
      ∧ (link t l).fallback = false ∧ (∀ k, k ≠ l.val → link t k = link s k) ∧ unchangedBut [.links] s t)
  ∧ (∀ (i : Nat) (s : State), runSlot s 0x04 = some i → ∃ t, exec .linkTrainDone s = .next t
      ∧ (trainAll s = true → (slot t i).st = .completed ∧ ∀ l, l < 38 → (link t l).named = false)
      ∧ (trainAll s = false → t = s))

/-- The line code and training blocks read back: the groups of a run of data bytes and control codes spell them again, and the 16
bytes of a block are that block (R109, R115, R116). An upstream training superframe on a link with marker lock, as the groups
received spell it (R109, R115 to R122, R125). In CAP_EXCHANGE the sixteenth identical acceptable capability word begins the
check, with the highest common rate as the final one, and the sixteenth identical unacceptable one fails the link; in a
requested rate switch the ACK with the target rate starts the countdown; after a fallback a superframe without an error
counts towards the confirmation, and one with an error fails the link with BER. In the far-end loop its 2,380 bits and its
errors are counted, and one without an error synchronises the checker. K28.3 in one is a trip source (R137). Without marker
lock, in automatic alignment, nothing is received.
Where the spec's words leave the reading open it follows the model's log entries 74, 75, 137. -/
def Obligations.TrainingBlock : Prop :=
  (∀ (rd : Bool) (l : List Sym), (∀ y ∈ l, (∃ b, y = .data b) ∨ ∃ c, y = .k c) →
      symsOf rd (lineOf rd l).1 = (l, (lineOf rd l).2))
  ∧ (∀ b : TrainBlock, b.state < 256 → b.rate < 256 → b.target < 256 → b.flags < 256 → b.errs < 2 ^ 32 → b.seq < 65536 →
      (blockBytes b).length = 16 ∧ blockOfBytes (blockBytes b) = some b)
  ∧ (∀ (l : LinkNo) (groups : List (BitVec 10)) (b : TrainBlock) (s : State), wzInbound s l = false →
      (link s l).st = .capExchange → (link s l).upLock = true →
      (symBytes (rxSyms (link s l) groups).1 2 16).bind blockOfBytes = some b →
      (∀ y ∈ (rxSyms (link s l) groups).1, symK y ≠ some .k28_3) → 15 ≤ (link s l).capRun → b.cap = (link s l).capLast →
      ∃ t, exec (.trainingBlockRx l groups) s = .next t ∧ (link t l).partnerCap = b.cap
      ∧ (capAcceptable b.cap = true → (link t l).st = .check ∧ (link t l).finalRate = topRate (bothRates s l b.cap))
      ∧ (capAcceptable b.cap = false → (link t l).st = .failed ∧ (link t l).fail = .capInvalid)
      ∧ (∀ k, k ≠ l.val → link t k = link s k))
  ∧ (∀ (l : LinkNo) (groups : List (BitVec 10)) (b : TrainBlock) (s : State), wzInbound s l = false →
      (link s l).st = .rateSwitch → (link s l).stage = .request → (link s l).upLock = true →
      (symBytes (rxSyms (link s l) groups).1 2 16).bind blockOfBytes = some b →
      (∀ y ∈ (rxSyms (link s l) groups).1, symK y ≠ some .k28_3) →
      b.flags.testBit 1 = true → b.target = (link s l).target →
      ∃ t, exec (.trainingBlockRx l groups) s = .next t ∧ (link t l).st = .rateSwitch ∧ (link t l).stage = .countdown
      ∧ (∀ k, k ≠ l.val → link t k = link s k))
  ∧ (∀ (l : LinkNo) (groups : List (BitVec 10)) (s : State), wzInbound s l = false →
      (link s l).st = .check → (link s l).fallback = true → (link s l).upLock = true →
      (∀ y ∈ (rxSyms (link s l) groups).1, symK y ≠ some .k28_3) →
      ∃ t, exec (.trainingBlockRx l groups) s = .next t
      ∧ (let r := (trainRx l (rxSyms (link s l) groups).1 s).1
         (r.errs + r.code + r.disp = 0 → (link t l).st = .check ∧ (link t l).fbClean = (link s l).fbClean + 1)
         ∧ (r.errs + r.code + r.disp ≠ 0 → (link t l).st = .failed ∧ (link t l).fail = .ber)))
  ∧ (∀ (l : LinkNo) (groups : List (BitVec 10)) (s : State), (link s l).st = .loopback → (link s l).loop = 3 →
      (link s l).upLock = true → (∀ y ∈ (rxSyms (link s l) groups).1, symK y ≠ some .k28_3) →
      ∃ t, exec (.trainingBlockRx l groups) s = .next t
      ∧ (let e := (trainRx l (rxSyms (link s l) groups).1 s).1.errs
         prbsBits t l = (prbsBits s l + 2380) % 2 ^ 64
         ∧ rd t (aLink l 0x30) = (if e = 0 then rd s (aLink l 0x30) else satInc (rd s (aLink l 0x30)) e)
         ∧ (link t l).loopSync = ((link s l).loopSync || decide (e = 0)))
      ∧ (link t l).st = .loopback)
  ∧ (∀ (l : LinkNo) (groups : List (BitVec 10)) (y : Sym) (s : State), l.val < 36 → (link s l).upLock = true →
      hears (link s l) = true → y ∈ (rxSyms (link s l) groups).1 → symK y = some .k28_3 →
      ∃ t, exec (.trainingBlockRx l groups) s = .next t ∧ t.gorse.latch.testBit (36 + l) = true)
  ∧ (∀ (l : LinkNo) (groups : List (BitVec 10)) (s : State), (link s l).upLock = false → (link s l).manual = false →
      exec (.trainingBlockRx l groups) s = .next s)

/-- Manual alignment, skew and loopbacks (R104, R112, R113, R124): an upstream slip in manual mode moves the word position, else
BITSLIP_IGNORED is set; a downstream slip in a training state waits for the next superframe, else BITSLIP_IGNORED is set; the
settings taken at a superframe start. A LOOP other than 0 on a DISABLED, FAILED or LINKED link that is not in service starts
the loop, with DCK in the far-end loop alone and PRBS_BITS at 0, else it is refused with LOOP_REFUSED and changes nothing of
the link; LOOP 0 ends a loop in DISABLED.
Where the spec's words leave the reading open it follows the model's log entry 121. -/
def Obligations.LinkManual : Prop :=
  (∀ (l : LinkNo) (s : State), ∃ t, exec (.bitslipUp l) s = .next t
      ∧ ((link s l).manual = true → link t l = { link s l with slipPos := ((link s l).slipPos + 1) % 10 }
        ∧ regsBut (fun _ => False) s t)
      ∧ ((link s l).manual = false → bit (rd t (aLink l 0x10)) 4 = true ∧ link t l = link s l
          ∧ regsBut (fun a => a = aLink l 0x10) s t)
      ∧ (∀ k, k ≠ l.val → link t k = link s k))
  ∧ (∀ (l : LinkNo) (s : State), ∃ t, exec (.bitslipDown l) s = .next t
      ∧ ((link s l).st = .align ∨ (link s l).st = .capExchange ∨ (link s l).st = .check ∨ (link s l).st = .loopback →
          link t l = { link s l with downSlipPend := (link s l).downSlipPend + 1 } ∧ regsBut (fun _ => False) s t)
      ∧ (¬ ((link s l).st = .align ∨ (link s l).st = .capExchange ∨ (link s l).st = .check ∨ (link s l).st = .loopback) →
          bit (rd t (aLink l 0x10)) 4 = true ∧ link t l = link s l ∧ regsBut (fun a => a = aLink l 0x10) s t)
      ∧ (∀ k, k ≠ l.val → link t k = link s k))
  ∧ (∀ (l : LinkNo) (s : State), ∃ t, exec (.alignModeChange l) s = .next t
      ∧ link t l = { link s l with manual := bit (rd s (aLink l 0)) 8 } ∧ (∀ k, k ≠ l.val → link t k = link s k)
      ∧ unchangedBut [.links] s t)
  ∧ (∀ (l : LinkNo) (s : State), ∃ t, exec (.ddtSkewApply l) s = .next t
      ∧ link t l = { link s l with skew := fld (rd s (aLink l 4)) 0 8 } ∧ (∀ k, k ≠ l.val → link t k = link s k)
      ∧ unchangedBut [.links] s t)
  ∧ (∀ (l : LinkNo) (loop : BitVec 2) (s : State), ∃ t, exec (.loopWrite l loop) s = .next t
      ∧ (loop ≠ 0 → (link s l).st = .disabled ∨ (link s l).st = .failed ∨ (link s l).st = .linked →
          linkInService s l = false → (link t l).st = .loopback ∧ (link t l).loop = loop.toNat
          ∧ (link t l).dck = (loop == 3) ∧ (link t l).latValid = false ∧ prbsBits t l = 0
          ∧ fld (rd t (aLink l 0)) 9 2 = loop.toNat)
      ∧ (loop = 0 → fld (rd t (aLink l 0)) 9 2 = 0
          ∧ ((link s l).st = .loopback → (link t l).st = .disabled ∧ (link t l).loop = 0 ∧ (link t l).dck = false)
          ∧ ((link s l).st ≠ .loopback → link t l = link s l))
      ∧ (loop ≠ 0 → ((link s l).st ≠ .disabled ∧ (link s l).st ≠ .failed ∧ (link s l).st ≠ .linked)
          ∨ linkInService s l = true → bit (rd t (aLink l 0x10)) 5 = true ∧ link t l = link s l))

/-! Twill and Wozin in operation (chapter 5). -/

/-- A downstream superframe starts on a link with DCK or in loopback (R103, R112, R114, R131, R132, R136, R142, R153, R157,
R159): a pending trim moves d_n by the difference, the sequence number rises by one, the slips asked for are taken. A block
run sends K28.6 throughout; a LINKED link else sends an operating superframe: K28.5, the status or block control code, K28.1
and its header; any other link sends a training superframe of 256 symbols with K28.6 in symbol 1, an inbound Wozin port with
K28.0. What a cell end that hears takes in is this superframe. Of the queued messages eight leave with an operating
superframe, and none waits on a link that sends none.
Where the spec's words leave the reading open it follows the model's log entries 47, 64, 81, 139. -/
def Obligations.DownstreamSuperframe : Prop :=
  ∀ (l : LinkNo) (s : State), (link s l).dck = true ∨ (link s l).st = .loopback →
    ∃ t, exec (.downstreamSuperframeStart l) s = .next t
    ∧ (link t l).txSeq = ((link s l).txSeq + 1) % 65536 ∧ (link t l).downSlipPend = 0
    ∧ (link t l).downSlip = ((link s l).downSlip + (link s l).downSlipPend) % 10
    ∧ (link t l).trimPend = none ∧ (link t l).trim = (link s l).trimPend.getD (link s l).trim
    ∧ (link t l).dU = (link s l).dU + ((link s l).trimPend.getD (link s l).trim - (link s l).trim) * unitsPerPs
    ∧ (link t l).frameAt = s.tick ∧ (link t l).frameRd = (link s l).txRd
    ∧ ((link s l).txBlock = true → (link t l).frame = blockFrame)
    ∧ ((link s l).txBlock = false → (link s l).st = .linked → (link s l).wzRun = 0 →
        (link t l).frame[0]? = some (.k .k28_5) ∧ (link t l).frame[1]? = some (.k (controlSym s l))
        ∧ (link t l).frame[2]? = some (.k .k28_1) ∧ symBytes (link t l).frame 3 13 = some (headOut s l))
    ∧ ((link s l).txBlock = false → (link s l).st ≠ .linked → (link s l).farLoop = false →
        (link t l).frame.length = 256 ∧ (link t l).frame[0]? = some (.k .k28_5)
        ∧ (link t l).frame[1]? = some (.k (if wzInbound s l && (link s l).st != .loopback then .k28_0 else .k28_6)))
    ∧ (link t l).txq = (if (link s l).st = .linked ∧ (link s l).txBlock = false then (link s l).txq.drop 8 else [])
    ∧ (l.val < 36 → nearLoop (link s l) = false →
        (link t l).cell = cellFrame ((link s l).st != .linked && !(link s l).txBlock) (link t l).frame (link s l).cell)
    ∧ (∀ k, k ≠ l.val → ∃ b, link t k = { link s k with rangeNow := b })

/-- An upstream superframe on a LINKED link with marker lock, as the groups received spell it (R111, R132, R133, R137, R147,
R155). A good header sets the sequence reference, each missing sequence number counts, and the flags of a Twill link's cell
are shown; K28.5 at symbol 0 ends the run of marker errors; an echo resets the run of missing ones and gives a sample of T_n,
in eighths of a ps, while the average takes samples; a missing one counts. K28.3 at any position of a Twill superframe
latches the link's trip source. Without it no other link changes, and without K28.6 on a Wozin port neither does the device
state.
Where the spec's words leave the reading open it follows the model's log entry 79. -/
def Obligations.UpstreamSuperframe : Prop :=
  ∀ (l : LinkNo) (groups : List (BitVec 10)) (t8 : Nat) (b : List Byte) (s : State), (link s l).st = .linked →
    (link s l).upLock = true → (link s l).dck = true → readStretch (rxSyms (link s l) groups).1 3 13 = .good b →
    ∃ t, exec (.upstreamSuperframeRx l groups t8) s = .next t
    ∧ (let syms := (rxSyms (link s l) groups).1
       let hit := syms.any (fun y => symK y == some (if isWz l then .k28_6 else .k28_3))
       let gap := match (link s l).rxSeq with | some p => (leAt b 0 2 + 131071 - p) % 65536 | none => 0
       (link t l).rxSeq = some (leAt b 0 2)
       ∧ rd t (aLink l 0x124) = (if gap = 0 then rd s (aLink l 0x124) else satInc (rd s (aLink l 0x124)) gap)
       ∧ (link t l).cellBlocked = ((byteAt b 4).getLsbD 0 && !isWz l)
       ∧ (link t l).cellFault = ((byteAt b 4).getLsbD 1 && !isWz l)
       ∧ (link t l).markerRun = (if kAt syms 0 .k28_5 then 0 else (link s l).markerRun)
       ∧ (kAt syms 2 .k28_1 = true → (link t l).echoMiss = 0 ∧ ((link s l).tCnt < avgCount s l →
           (link t l).tSum = (link s l).tSum + t8 ∧ (link t l).tCnt = (link s l).tCnt + 1))
       ∧ (kAt syms 2 .k28_1 = false → (link t l).echoMiss = (link s l).echoMiss + 1
           ∧ rd t (aLink l 0x12C) = satInc (rd s (aLink l 0x12C)) 1)
       ∧ (l.val < 36 → hit = true → t.gorse.latch.testBit (36 + l) = true)
       ∧ (l.val < 36 → hit = false → ∀ k, k ≠ l.val → link t k = link s k)
       ∧ (hit = false → t.dev = s.dev))

/-- Latency (R147 to R149, R159). An average that is complete gives an estimate and begins anew. In acquisition it joins the run
of estimates, and four within 400 ps of each other acquire d_n as their mean; in tracking d_n moves towards it by at most the
slew limit. 64 missing echoes clear LAT_VALID, with LAT_LOST on a LINKED link, while d_n stays; a write of ASYM_TRIM is
stored and waits for the next superframe.
Where the spec's words leave the reading open it follows the model's log entries 80, 81. -/
def Obligations.Latency : Prop :=
  (∀ (l : LinkNo) (s : State), (link s l).st = .linked → (link s l).dck = true → avgCount s l ≤ (link s l).tCnt →
      ∃ t, exec (.latencyUpdate l) s = .next t ∧ (link t l).tSum = 0 ∧ (link t l).tCnt = 0
      ∧ ((link s l).latValid = false → (link s l).ests.length < 3 →
          (link t l).ests = estimate s l :: (link s l).ests ∧ (link t l).latValid = false)
      ∧ (∀ e1 e2 e3 rest, (link s l).latValid = false → (link s l).ests = e1 :: e2 :: e3 :: rest →
          max (estimate s l) (max e1 (max e2 e3)) - min (estimate s l) (min e1 (min e2 e3)) ≤ 400 * unitsPerPs →
          (link t l).latValid = true ∧ (link t l).dU = (estimate s l + e1 + e2 + e3) / 4)
      ∧ ((link s l).latValid = true → (link s l).unstableRun < 15 → (link t l).latValid = true
          ∧ (link t l).dU = (link s l).dU + clampI (-(8000 * (s.tick - (link s l).latAt : Nat)))
              (8000 * (s.tick - (link s l).latAt : Nat)) (estimate s l - (link s l).dU)))
  ∧ (∀ (l : LinkNo) (s : State), 64 ≤ (link s l).echoMiss → ∃ t, exec (.echoLoss l) s = .next t
      ∧ (link t l).latValid = false ∧ (link t l).dU = (link s l).dU ∧ (link t l).st = (link s l).st
      ∧ ((link s l).latValid = true → (link s l).st = .linked → bit (rd t (aLink l 0x10C)) 3 = true))
  ∧ (∀ (l : LinkNo) (v : Word) (s : State), ∃ t, exec (.asymTrimWrite l v) s = .next t
      ∧ rd t (aLink l 0x104) = clampReg (aLink l 0x104) v
      ∧ link t l = { link s l with trimPend := some (sgn 16 (fld (clampReg (aLink l 0x104) v) 0 16)) }
      ∧ (∀ k, k ≠ l.val → link t k = link s k))

/-- Messages to a cell end (R136, R139 to R142, R144, R145, R153). A link that does not hear (not LINKED, without DCK, or under a
block run) delivers none. Else EDGE for a switch that the cell has, BOUNDARY, SAMPLE and SUPPLY join those held, unless their
boundary has passed; a HALF EDGE after the mid-period instant is discarded and sets LATE_HALF; an EDGE for a switch that the
cell lacks is ignored; a BOUNDARY ends the block of a cell that has had its clean superframes; a DIAG is answered, but the
second copy under REPEAT is not used, and one that clears faults whose cause is gone clears them. Nothing else changes.
Where the spec's words leave the reading open it follows the model's log entries 82, 83, 125. -/
def Obligations.CellMessages : Prop :=
  (∀ (l : TwillNo) (ptag : Byte) (sw : Fin 16) (start half : Bool) (coarse fine : List Nat) (s : State),
      ∃ t, exec (.edge l ptag sw start half coarse fine) s = .next t
      ∧ (cellHears s l = false ∨ fld (link s l).partnerCap 8 4 ≤ sw.val → t = s)
      ∧ (cellHears s l = true → sw.val < fld (link s l).partnerCap 8 4 →
          let m := Msg.edge ptag.toNat sw start half coarse fine
          (link t l).cell = (if half = true ∧ (link s l).cell.midTag = some ptag.toNat then
              { (link s l).cell with lateHalf := true }
            else if half = false ∧ (link s l).cell.curTag = some ptag.toNat then (link s l).cell
            else { (link s l).cell with held := holdMsg m (link s l).cell.held }))
      ∧ (∀ k, k ≠ l.val → link t k = link s k) ∧ unchangedBut [.links] s t)
  ∧ (∀ (l : TwillNo) (ptag : Byte) (m : BitVec 12) (o of d df : Nat) (s : State),
      ∃ t, exec (.boundary l ptag m o of d df) s = .next t ∧ (cellHears s l = false → t = s)
      ∧ (cellHears s l = true → (link t l).cell = { (link s l).cell with
          held := if (link s l).cell.curTag = some ptag.toNat then (link s l).cell.held
            else holdMsg (.boundary ptag.toNat m.toNat o of d df) (link s l).cell.held
          haveBoundary := true, blocked := (link s l).cell.blocked && decide ((link s l).cell.cleanRun < 4) })
      ∧ (∀ k, k ≠ l.val → link t k = link s k) ∧ unchangedBut [.links] s t)
  ∧ (∀ (l : TwillNo) (ptag : Byte) (o : BitVec 24) (s : State),
      ∃ t, exec (.sample l ptag o) s = .next t ∧ (cellHears s l = false ∨ (link s l).cell.curTag = some ptag.toNat → t = s)
      ∧ (cellHears s l = true → (link s l).cell.curTag ≠ some ptag.toNat →
          (link t l).cell = { (link s l).cell with held := holdMsg (.sample ptag.toNat o.toNat) (link s l).cell.held })
      ∧ (∀ k, k ≠ l.val → link t k = link s k) ∧ unchangedBut [.links] s t)
  ∧ (∀ (l : TwillNo) (ptag : Byte) (b : Bool) (s : State),
      ∃ t, exec (.supply l ptag b) s = .next t ∧ (cellHears s l = false ∨ (link s l).cell.curTag = some ptag.toNat → t = s)
      ∧ (cellHears s l = true → (link s l).cell.curTag ≠ some ptag.toNat →
          (link t l).cell = { (link s l).cell with held := holdMsg (.supply ptag.toNat b) (link s l).cell.held })
      ∧ (∀ k, k ≠ l.val → link t k = link s k) ∧ unchangedBut [.links] s t)
  ∧ (∀ (l : TwillNo) (op tag : Byte) (r : BitVec 24) (gone : Bool) (s : State),
      ∃ t, exec (.diag l op tag r gone) s = .next t ∧ (cellHears s l = false → t = s)
      ∧ (let copy := bit (rd s (aLink l 0x100)) 0 && (link s l).cell.diagSeen == some tag.toNat
         let a := diagAnswer (link s l).partnerCap (link s l).cell op.toNat r.toNat gone
         let clears := bit (link s l).partnerCap 26 && cellDown (link s l).cell && op == 2 && gone
         (cellHears s l = true → copy = true → (link t l).cell = { (link s l).cell with diagSeen := none })
         ∧ (cellHears s l = true → copy = false →
            (link t l).cell.diagOut = (link s l).cell.diagOut ++ [(op.toNat, tag.toNat, a.1, a.2)]
            ∧ (link t l).cell.faults = (if clears then 0 else (link s l).cell.faults)
            ∧ (link t l).cell.dsat = (if clears then 0 else (link s l).cell.dsat)))
      ∧ (∀ k, k ≠ l.val → link t k = link s k) ∧ unchangedBut [.links] s t)

/-- Faults at a cell end (R137, R143, R153). A block turns every switch off and asks for clean superframes afresh, the loss of
DCK is noted, so that the next superframe latches CLOCK_LOSS; a fault latches with a run of K28.3; the first incomplete
period sets CMD_MISS, the second in a row latches DOUBLE_MISS and blocks.
Where the spec's words leave the reading open it follows the model's log entries 83, 125. -/
def Obligations.CellFaults : Prop :=
  (∀ (l : TwillNo) (loss : Bool) (s : State), ∃ t, exec (.cellBlock l loss) s = .next t
      ∧ (link t l).cell.levels = 0 ∧ (link t l).cell.blocked = true ∧ (link t l).cell.cleanRun = 0
      ∧ (link t l).cell.faults = (link s l).cell.faults
      ∧ (link t l).cell.clockLost = (loss || (link s l).cell.clockLost)
      ∧ (∀ k, k ≠ l.val → link t k = link s k) ∧ unchangedBut [.links] s t)
  ∧ (∀ (l : TwillNo) (faults : Byte) (dsat : BitVec 12) (s : State), ∃ t, exec (.cellFaultLatch l faults dsat) s = .next t
      ∧ (link t l).cell = { (link s l).cell with
          levels := 0, faults := (link s l).cell.faults ||| faults.toNat, dsat := (link s l).cell.dsat ||| dsat.toNat
          k3Run := 4 }
      ∧ (∀ k, k ≠ l.val → link t k = link s k) ∧ unchangedBut [.links] s t)
  ∧ (∀ (l : TwillNo) (s : State), ∃ t, exec (.incompletePeriod l) s = .next t ∧ (link t l).cell.cmdMiss = true
      ∧ ((link s l).cell.missed = false → (link t l).cell.missed = true
          ∧ (link t l).cell.faults = (link s l).cell.faults ∧ (link t l).cell.blocked = (link s l).cell.blocked)
      ∧ ((link s l).cell.missed = true → (link t l).cell.levels = 0 ∧ (link t l).cell.blocked = true
          ∧ (link t l).cell.faults = (link s l).cell.faults ||| 16 ∧ (link t l).cell.k3Run = 4)
      ∧ (∀ k, k ≠ l.val → link t k = link s k) ∧ unchangedBut [.links] s t)

/-- GRID on a follower's inbound port (R156): a group that has not started starts at the count given where the period is its own,
and refuses it with GRID_ERR where it is not; a started group takes the count, the period and the instant of the boundary
(OFFSET and OFINE count from the arrival of the next superframe, log entry 139); port 1 relays it to an outbound port 0 in
LINKED.
Where the spec's words leave the reading open it follows the model's log entry 38. -/
def Obligations.GridMessage : Prop :=
  ∀ (port : Fin 2) (cg : GroupNo) (n : Word) (o : BitVec 24) (f : Fin 16) (per : BitVec 24) (s : State),
    s.damask.wzRole = 2 → s.damask.imageValid = true → s.present.testBit cg = true → wzInbound s (36 + port) = true →
    ∃ t, exec (.grid port cg n o f per) s = .next t
    ∧ ((group s cg).started = false → (group s cg).gridBad = false → per.toNat = fld (fo s (aCgPeriod cg)) 0 24 →
        (group t cg).started = true ∧ (group t cg).boundary = (n.toNat + 2 ^ 32 - 1) % 2 ^ 32
        ∧ (group t cg).gridPeriod = some per.toNat ∧ (group t cg).gridAt = some (100 * s.tick + (16 * o.toNat + f.val)))
    ∧ ((group s cg).started = false → (group s cg).gridBad = false → per.toNat ≠ fld (fo s (aCgPeriod cg)) 0 24 →
        (group t cg).started = false ∧ (group t cg).gridBad = true ∧ bit (rd t (aLink (36 + port) 0x10C)) 6 = true)
    ∧ ((group s cg).started = true → (group t cg).started = true ∧ (group t cg).gridPeriod = some per.toNat
        ∧ (group t cg).gridAt = some (100 * s.tick + (16 * o.toNat + f.val))
        ∧ (group t cg).boundary % 2 ^ 32 = (n.toNat + 2 ^ 32 - 1) % 2 ^ 32)
    ∧ (port = 1 → (link s 36).st = .linked → wzInbound s 36 = false → (link t 36).gridq = (link s 36).gridq
        ++ [({ cg := cg.val, bcount := n.toNat, period := per.toNat }, 100 * s.tick + (16 * o.toNat + f.val))])
    ∧ (∀ g, g ≠ cg.val → group t g = group s g)

/-! The clock root (chapter 3). -/

/-- Clock start (R82, R83, R93, R100). Until the root locks, a frequency within ±1 % of a listed one makes the reference present
and names it, any other holds the device in reset; the root, which follows REFCLK only within ±100 ppm of the detected
frequency, and the M-branch PLL lock in order, and a lock after the first one counts; the divider release sets ALIGNED,
begins a spread that is on at zero deviation, and recalibrates the fine delays. That a spread which runs over a switch of the
reference starts its profile anew is the model's choice (log entry 136). -/
def Obligations.ClockStart : Prop :=
  let locks := fun (m : Bool) (s t : State) => clkBit t (if m then 1 else 0) = true
      ∧ t.clock = (if m then { s.clock with mOnce := true } else { s.clock with rootOnce := true })
      ∧ ((if m then s.clock.mOnce else s.clock.rootOnce) = false → rd t aLockEvent = rd s aLockEvent)
      ∧ ((if m then s.clock.mOnce else s.clock.rootOnce) = true → (rd s aLockEvent).toNat + 1 < 2 ^ 32 →
          rd t aLockEvent = wd ((rd s aLockEvent).toNat + 1))
      ∧ regsBut (fun a => a = aClkStatus ∨ a = aLockEvent) s t ∧ unchangedBut [.regs, .events, .clock] s t
  (∀ (hz : Nat) (s : State), s.clock.rootOnce = false → ∃ t, exec (.refclkDetect hz) s = .next t
      ∧ (∀ c, refCode hz = some c → clkBit t 2 = true ∧ clkBit t 5 = false ∧ fld (rd t aClkStatus) 3 2 = c % 4
          ∧ t.clock.refHz = hz)
      ∧ (refCode hz = none → clkBit t 5 = true ∧ t.power.inReset = true)
      ∧ regsBut (fun a => a = aClkStatus) s t ∧ unchangedBut [.regs, .events, .clock, .power, .time, .host] s t)
  ∧ (∀ s : State, clkBit s 0 = false → clkBit s 2 = true → s.clock.released = false →
      refSrc s ≠ 0 ∨ refNear s = true → ∃ t, exec .rootLock s = .next t ∧ locks false s t)
  ∧ (∀ s : State, clkBit s 1 = false → clkBit s 0 = true → s.clock.released = false →
      ∃ t, exec .mLock s = .next t ∧ locks true s t)
  ∧ (∀ s : State, clkBit s 0 = true → clkBit s 1 = true → s.clock.released = false →
      ∃ t, exec .dividerRelease s = .next t ∧ clkBit t 6 = true
      ∧ t.clock = { s.clock with
          released := true, releaseAt := s.tick, fineOff := [], origins := 0
          segs := if clkBit s 7 then [{ start := s.tick, cfg := rd s aSscState }] else [] }
      ∧ regsBut (fun a => a = aClkStatus) s t ∧ unchangedBut [.regs, .clock] s t)

/-- Losses of the clock root (R95, R99): the flag of each in CLK_STICKY, the reference or lock bit gone; with the reference the
time engine holds its addend; with the M branch every Twill link in bring-up fails with CLOCK; a generator without its fine
lock is noted; a lock that returns in service does not release the dividers again. Spread spectrum (R88, R94, R100):
SSC_APPLY with bit 0 takes SSC_CFG as the setting that waits, without it nothing; at the next profile origin, or with spread
off at the next alignment instant, and not before, the setting is in force and shows in SSC_STATE, the deviation goes on from
where it stands, and each origin of a running profile counts.
Where the spec's words leave the reading open it follows the model's log entries 14, 96. -/
def Obligations.ClockLossesAndSpread : Prop :=
  ((∀ s : State, refSrc s = 0 → ∃ t, exec .refLoss s = .next t ∧ bit (rd t aClkSticky) 0 = true
      ∧ clkBit t 2 = false ∧ t.clock.refGone = true ∧ t.time.servo = .refLost
      ∧ rd t aAddend = rd s aAddend ∧ regsBut (fun a => a = aClkStatus ∨ a = aClkSticky) s t)
  ∧ (∀ s : State, refSrc s ≠ 0 → ∃ t, exec .wzRefLoss s = .next t ∧ bit (rd t aClkSticky) 1 = true
      ∧ clkBit t 2 = false ∧ t.clock.refGone = true ∧ t.time.servo = .refLost
      ∧ regsBut (fun a => a = aClkStatus ∨ a = aClkSticky) s t)
  ∧ (∀ s : State, clkBit s 0 = true → ∃ t, exec .rootLol s = .next t ∧ bit (rd t aClkSticky) 2 = true
      ∧ clkBit t 0 = false ∧ clkBit t 6 = false ∧ regsBut (fun a => a = aClkStatus ∨ a = aClkSticky) s t)
  ∧ (∀ s : State, clkBit s 1 = true → ∃ t, exec .mLol s = .next t ∧ bit (rd t aClkSticky) 3 = true
      ∧ clkBit t 1 = false ∧ clkBit t 6 = false ∧ regsBut (fun a => a = aClkStatus ∨ a = aClkSticky) s t
      ∧ (∀ l, l < 36 → inBringUp (link s l).st = true →
          (link t l).st = .failed ∧ (link t l).fail = .clock ∧ (link t l).dck = false)
      ∧ (∀ l, 36 ≤ l ∨ inBringUp (link s l).st = false → link t l = link s l))
  ∧ (∀ (gen : Nat) (s : State), ∃ t, exec (.fineCalFail gen) s = .next t ∧ bit (rd t aClkSticky) 4 = true
      ∧ gen ∈ t.clock.fineOff ∧ (∀ k ∈ s.clock.fineOff, k ∈ t.clock.fineOff)
      ∧ regsBut (fun a => a = aClkSticky) s t)
  ∧ (∀ (m : Bool) (s : State), s.clock.released = true → clkBit s (if m then 1 else 0) = false →
      ∃ t, exec (.lockReacquired m) s = .next t ∧ clkBit t (if m then 1 else 0) = true ∧ clkBit t 6 = false
      ∧ t.clock.released = true ∧ t.clock.releaseAt = s.clock.releaseAt
      ∧ regsBut (fun a => a = aClkStatus ∨ a = aLockEvent) s t))
  ∧ ((∀ (v : Word) (s : State), bit v 0 = true → ∃ t, exec (.sscApply v) s = .next t
      ∧ t.clock = { s.clock with sscPending := some (rd s aSscCfg), sscAt := s.tick } ∧ t.regs = s.regs)
  ∧ (∀ (v : Word) (s : State), bit v 0 = false → ∃ t, exec (.sscApply v) s = .next t
      ∧ t.clock = s.clock ∧ t.regs = s.regs)
  ∧ (∀ s : State, s.clock.released = false ∨ s.tick < originDue s → exec .profileOrigin s = .next s)
  ∧ (∀ (c : Word) (s : State), s.clock.released = true → originDue s ≤ s.tick → s.clock.sscPending = some c →
      ∃ t, exec .profileOrigin s = .next t ∧ rd t aSscState = c ∧ clkBit t 7 = (fld c 0 2 != 0)
      ∧ t.clock.sscPending = none ∧ t.clock.origins = 0
      ∧ t.clock.segs.head? = some { start := originDue s, cfg := c, base := originDev s }
      ∧ rd t aProfileCnt = (if clkBit s 7 then rd s aProfileCnt + 1 else if fld c 0 2 != 0 then 1 else rd s aProfileCnt)
      ∧ regsBut (fun a => a = aSscState ∨ a = aClkStatus ∨ a = aProfileCnt) s t ∧ unchangedBut [.regs, .clock] s t)
  ∧ (∀ s : State, s.clock.released = true → originDue s ≤ s.tick → s.clock.sscPending = none → clkBit s 7 = true →
      ∃ t, exec .profileOrigin s = .next t ∧ rd t aProfileCnt = rd s aProfileCnt + 1
      ∧ t.clock = { s.clock with origins := s.clock.origins + 1 }
      ∧ regsBut (fun a => a = aProfileCnt) s t ∧ unchangedBut [.regs, .clock] s t))

/-- REF_SEL (R96, R97): in CONFIG-WAIT a trained source, or REFCLK, is selected, with 3 taken as 2; a change unlocks both PLLs
and holds the dividers, the source in force changes nothing; outside CONFIG-WAIT, or towards an untrained port, the write has
no effect but REF_SEL_REFUSED. That REF_PRESENT reads 1 from the switch on is the model's choice (log entry 136). -/
def Obligations.ReferenceSelect : Prop :=
  ∀ (v : Word) (s : State),
    let sel := min (fld v 0 2) 2
    (s.dev = .configWait → sel = 0 ∨ wzTrained s sel = true → ∃ t, exec (.refSelWrite v) s = .next t
      ∧ rd t aClkCfg = wd sel
      ∧ (sel ≠ refSrc s → refSrc t = sel ∧ clkBit t 0 = false ∧ clkBit t 1 = false ∧ clkBit t 6 = false
          ∧ clkBit t 2 = true ∧ t.clock.released = false)
      ∧ (sel = refSrc s → t.clock = s.clock ∧ rd t aClkStatus = rd s aClkStatus))
    ∧ (s.dev ≠ .configWait ∨ (sel ≠ 0 ∧ wzTrained s sel = false) → ∃ t, exec (.refSelWrite v) s = .next t
      ∧ bit (rd t aClkSticky) 5 = true ∧ t.clock = s.clock ∧ regsBut (fun a => a = aClkSticky) s t)

/-! Gorse (chapter 8). -/

/-- A backstop source that is not masked trips the device from RUN or SAFE-STOP, whatever the image maps (R34, R36, R163, R210):
TRIPPED, its cause latched, no channel group enabled. The sources: HOST_TRIP with its key (another value does nothing), a
debug halt, EN low, the single-channel limit, SS_MAX, the clock monitor, K28.6 and the loss of a Wozin port, and K28.3 on a
link where BS_CFG does not keep it to its string. With EDGE_CLK gone the clock monitor forces DCK of every Twill link low at
once (R182).
Where the spec's words leave the reading open it follows the model's log entries 64, 67, 72. -/
def Obligations.BackstopTrips : Prop :=
  ∀ s : State, s.dev = .run ∨ s.dev = .safeStop →
    let trips := fun (c : Instr) (n : Nat) => ∃ t, exec c s = .next t ∧ t.dev = .tripped
      ∧ t.gorse.latch.testBit n = true ∧ t.mod.en = 0 ∧ gatesLow t
    trips (.hostTrip (wd 0x5452)) 185
    ∧ (∀ v, v ≠ wd 0x5452 → ∃ t, exec (.hostTrip v) s = .next t ∧ unchangedBut [.gorse, .host] s t
        ∧ t.gorse.latch = s.gorse.latch)
    ∧ trips .debugHalt 194
    ∧ (s.gorse.en = true → trips .enFall 182)
    ∧ (scRuns s = true → trips .singleChLimit 192)
    ∧ (s.gorse.ssRunning = true → trips .safeStopTimeout 197)
    ∧ trips (.clkMon false) 180 ∧ trips (.clkMon true) 180
    ∧ (∀ port : Fin 2, wzHoldOff s = false → trips (.wzTrip port) (188 + port))
    ∧ (∀ port : Fin 2, (link s (36 + port)).st = .linked → trips (.wzLink port) (190 + port))
    ∧ (∀ l : TwillNo, bit (rd s aBsCfg) 0 = false → trips (.k28_3Rx l) (36 + l))
    ∧ ∃ t, exec (.clkMon true) s = .next t ∧ ∀ l, l < 36 → (link t l).dck = false

/-- Desaturation (R209, R221, R226). A pin that DSAT_USED does not use does nothing; one that crosses while its pair is off, or
is in blanking, does not trip, and in blanking the first crossing waits; with the pair on and no blanking at the tick's start
it trips. When blanking ends the pin is sampled: beyond the threshold it trips, else a crossing that waited is counted and
dropped.
Where the spec's words leave the reading open it follows the model's log entry 73. -/
def Obligations.Desaturation : Prop :=
  (∀ (p : PairNo) (s : State), dsatUsed s p = false → exec (.dsatCrossing p) s = .next s)
  ∧ (∀ (p : PairNo) (s : State), dsatUsed s p = true → pairIsOn s p = false ∨ (pair s p).blanking = true →
      ∃ t, exec (.dsatCrossing p) s = .next t ∧ (pair t p).dsatPin = true ∧ unchangedBut [.mod] s t
      ∧ (pairIsOn s p = true → (pair t p).pendingX = (pair s p).pendingX.or (some (s.time.sec, s.time.ns)))
      ∧ (pairIsOn s p = false → pair t p = { pair s p with dsatPin := true })
      ∧ (∀ q, q ≠ p.val → pair t q = pair s q))
  ∧ (∀ (p : PairNo) (s : State), dsatUsed s p = true → pairIsOn s p = true → blankingOf s p = none →
      s.dev = .run ∨ s.dev = .safeStop → ∃ t, exec (.dsatCrossing p) s = .next t ∧ t.dev = .tripped
      ∧ t.gorse.latch.testBit p = true ∧ t.mod.en = 0 ∧ gatesLow t)
  ∧ (∀ (p : PairNo) (s : State), (blankingOf s p).isSome = true → dsatUsed s p = true → s.dev = .run ∨ s.dev = .safeStop →
      ∃ t, exec (.blankingEnd p true) s = .next t ∧ t.dev = .tripped ∧ t.gorse.latch.testBit p = true ∧ t.mod.en = 0
      ∧ gatesLow t)
  ∧ (∀ (p : PairNo) (s : State), (pair s p).blanking = true → ∃ t, exec (.blankingEnd p false) s = .next t
      ∧ (pair t p).blanking = false ∧ (pair t p).pendingX = none ∧ (pair t p).dsatPin = false
      ∧ rd t aBlankPendCnt = (if (pair s p).pendingX.isSome then satInc (rd s aBlankPendCnt) 1 else rd s aBlankPendCnt)
      ∧ (∀ q, q ≠ p.val → pair t q = pair s q) ∧ regsBut (fun a => a = aBlankPendCnt) s t
      ∧ unchangedBut [.regs, .events, .mod, .gorse] s t)

/-- Requests for a safe stop and the watchdogs (R35, R220, R346). From RUN, where no action is mapped, each (a watchdog at twice
its period) brings SAFE-STOP and latches its cause; a request in TRIPPED or SAFE-STOP is only logged, one without its key
requests nothing. Every write of SAFE_STOP raises SVC_ACTION and counts as a performed service transaction.
Where the spec's words leave the reading open it follows the model's log entries 33, 67. -/
def Obligations.SafeStopRequests : Prop :=
  (∀ (v : Word) (s : State), v = wd 0x5353 → s.dev = .run → tmOf s 0 186 = 0 → tmOf s 1 186 = 0 →
      ∃ t, exec (.hostSafeStop v) s = .next t ∧ t.dev = .safeStop ∧ t.gorse.latch.testBit 186 = true)
  ∧ (∀ (v : Word) (s : State), v ≠ wd 0x5353 ∨ s.dev = .tripped ∨ s.dev = .safeStop →
      ∃ t, exec (.hostSafeStop v) s = .next t ∧ t.dev = s.dev ∧ t.gorse.latch = s.gorse.latch
      ∧ unchangedBut [.gorse, .host] s t)
  ∧ (∀ (v : Word) (s : State), v = wd 0x5353 → s.dev = .run → tmOf s 0 187 = 0 → tmOf s 1 187 = 0 →
      ∃ t, exec (.safeStop v) s = .next t ∧ t.dev = .safeStop ∧ t.gorse.latch.testBit 187 = true
      ∧ bit (rd t (aSrcStatus 0)) 7 = true)
  ∧ (∀ (v : Word) (s : State), v ≠ wd 0x5353 ∨ s.dev = .tripped ∨ s.dev = .safeStop →
      ∃ t, exec (.safeStop v) s = .next t ∧ t.dev = s.dev ∧ t.gorse.latch = s.gorse.latch
      ∧ bit (rd t (aSrcStatus 0)) 7 = true ∧ t.host.svcSeq = s.host.svcSeq + 1
      ∧ unchangedBut [.regs, .events, .gorse, .time, .host] s t)
  ∧ (∀ (svc : Bool) (s : State), s.dev = .run → wdogRuns s svc = true → wdogPast s svc 2 = true →
      (if svc then s.host.svcExpired else s.host.hostExpired) = false →
      tmOf s 0 (if svc then 184 else 183) = 0 → tmOf s 1 (if svc then 184 else 183) = 0 →
      ∃ t, exec (.watchdogExpire svc) s = .next t ∧ t.dev = .safeStop
      ∧ t.gorse.latch.testBit (if svc then 184 else 183) = true
      ∧ (if svc then t.host.svcExpired else t.host.hostExpired) = true)

/-- The safe-stop sequence (R402, R403). At the boundary a WAIT step begins to wait; a DISABLE step clears the enables that it
names; a RAMP step adds its ramp, of 400 ticks a microsecond; a WAIT step that ends is left for the next one; with the last
step the sequence ends, every enable clears and every gate output is low.
Where the spec's words leave the reading open it follows the model's log entry 39. -/
def Obligations.SafeStopSequence : Prop :=
  let ended := fun (s t : State) => t.mod.en = 0 ∧ t.gorse.ssRunning = false ∧ t.gorse.ssSteps = [] ∧ gatesLow t ∧ t.dev = s.dev
  (∀ (cg us : Nat) (r : List SsStep) (s : State), s.gorse.ssRunning = true → s.gorse.ssReady = true →
      s.gorse.ssWaiting = false → s.gorse.ssSteps = .wait cg us :: r → ∃ t, exec .ssStep s = .next t
      ∧ t.gorse = { s.gorse with ssArmed := false, ssReady := false, ssWaiting := true } ∧ unchangedBut [.gorse] s t)
  ∧ (∀ (cg m : Nat) (x : SsStep) (r : List SsStep) (s : State), s.gorse.ssRunning = true → s.gorse.ssReady = true →
      s.gorse.ssWaiting = false → s.gorse.ssSteps = .disable cg m :: x :: r → ∃ t, exec .ssStep s = .next t
      ∧ t.mod = { s.mod with en := s.mod.en &&& (0xFFFF ^^^ (m &&& 0xFFFF)) } ∧ t.gorse.ssSteps = x :: r
      ∧ t.gorse.ssStep = s.gorse.ssStep + 1 ∧ t.gorse.ssRunning = true ∧ unchangedBut [.mod, .gorse] s t)
  ∧ (∀ (cg us : Nat) (slots : List (Nat × Nat)) (r : List SsStep) (s : State), s.gorse.ssRunning = true →
      s.gorse.ssReady = true → s.gorse.ssWaiting = false → s.gorse.ssSteps = .ramp cg slots us :: r → slots ≠ [] →
      ∃ t, exec .ssStep s = .next t ∧ t.gorse = { s.gorse with
          ssArmed := false, ssReady := false, ssWaiting := true
          ramps := s.gorse.ramps ++ [{ slots := slots, b0 := (group s cg).bAt, len := 400 * us }] }
      ∧ unchangedBut [.gorse] s t)
  ∧ (∀ (cg m : Nat) (s : State), s.dev = .safeStop → s.gorse.ssRunning = true → s.gorse.ssReady = true →
      s.gorse.ssWaiting = false → s.gorse.ssSteps = [.disable cg m] → ∃ t, exec .ssStep s = .next t ∧ ended s t)
  ∧ (∀ (cg us : Nat) (s : State), s.dev = .safeStop → s.gorse.ssWaiting = true → s.gorse.ssSteps = [.wait cg us] →
      ∃ t, exec .ssWaitEnd s = .next t ∧ ended s t)
  ∧ (∀ (cg us : Nat) (x : SsStep) (r : List SsStep) (s : State), s.gorse.ssWaiting = true →
      s.gorse.ssSteps = .wait cg us :: x :: r → ∃ t, exec .ssWaitEnd s = .next t ∧ t.gorse = { s.gorse with
        ssSteps := x :: r, ssStep := s.gorse.ssStep + 1, ssWaiting := false, ssArmed := false, ssReady := false }
      ∧ unchangedBut [.gorse] s t)

/-- A filtered source of kind C (R208, R212). Both channels' inputs take what their filters give; a source that is not of kind C,
is masked, or asserts with no live condition changes nothing. Where a channel that votes takes it as asserted and maps it to
a TRIP action, the device trips from RUN or SAFE-STOP. Where channel A alone votes and maps a new assertion to NOTIFY actions
alone, one trip record is written, of the source, and nothing is latched.
Where the spec's words leave the reading open it follows the model's log entries 65, 72. -/
def Obligations.FilteredSource : Prop :=
  (∀ (n : Fin 256) (a b : Bool) (s : State), isC n = true → srcMasked s n = false →
      (a = false ∧ b = false) ∨ measCond n = true ∨ srcLive s n = true → ∃ t, exec (.cSourceFiltered n a b) s = .next t
      ∧ t.gorse.inA.testBit n = a ∧ t.gorse.inB.testBit n = b
      ∧ (∀ k, k ≠ n.val → t.gorse.inA.testBit k = s.gorse.inA.testBit k ∧ t.gorse.inB.testBit k = s.gorse.inB.testBit k))
  ∧ (∀ (n : Fin 256) (a b : Bool) (s : State), isC n = false ∨ srcMasked s n = true
        ∨ ((a = true ∨ b = true) ∧ measCond n = false ∧ srcLive s n = false) → exec (.cSourceFiltered n a b) s = .next s)
  ∧ (∀ (n : Fin 256) (s : State), isC n = true → srcMasked s n = false → measCond n = true ∨ srcLive s n = true →
      s.dev = .run ∨ s.dev = .safeStop →
      (s.gorse.voteA = true ∧ ∃ d ∈ actsOf s 0 (tmOf s 0 n), d.cls = .trip)
        ∨ (s.gorse.voteB = true ∧ ∃ d ∈ actsOf s 1 (tmOf s 1 n), d.cls = .trip) →
      ∃ t, exec (.cSourceFiltered n true true) s = .next t ∧ t.dev = .tripped ∧ t.gorse.latch.testBit n = true
      ∧ t.mod.en = 0)
  ∧ (∀ (n : Fin 256) (s : State), isC n = true → srcMasked s n = false → measCond n = true ∨ srcLive s n = true →
      s.gorse.voteA = true → s.gorse.voteB = false → s.gorse.inA.testBit n = false → actsOf s 0 (tmOf s 0 n) ≠ [] →
      (∀ d ∈ actsOf s 0 (tmOf s 0 n), d.cls = .notify) →
      ∃ t, exec (.cSourceFiltered n true true) s = .next t ∧ t.dev = s.dev ∧ t.gorse.latch = s.gorse.latch
      ∧ t.mod = s.mod ∧ t.gorse.recSeq = s.gorse.recSeq + 1 ∧ t.gorse.recHead = (s.gorse.recHead + 1) % 32
      ∧ t.gorse.recUsed.testBit s.gorse.recHead = true ∧ fld (recWord t s.gorse.recHead 0) 16 8 = n)

/-- The channels (R66, R215, R216, R218). Where a cross-check finds no mismatch there is nothing to settle; a channel whose
replay fails is withdrawn, and with it the mismatch while the other still votes; where both replay, the channel that lacks an
action of the other's is withdrawn and the cause stays open. A self-test that fails withdraws its channel and puts its tile,
with a plane in it, in TILE-FAULT; one that passes lets a channel vote that waits to join on a live tile that is not faulted,
and leaves any other as it was.
Where the spec's words leave the reading open it follows the model's log entries 24, 66, 68, 135. -/
def Obligations.ChannelChecks : Prop :=
  (∀ (a b : Bool) (s : State), s.gorse.mismatch = none → exec (.xchkReplayDone a b) s = .next s)
  ∧ (∀ (a b : Bool) (m : Nat × Nat) (s : State), s.gorse.mismatch = some m → a = true ∨ b = true →
      ∃ t, exec (.xchkReplayDone a b) s = .next t
      ∧ (t.gorse.voteA = true ∨ t.gorse.voteB = true → t.gorse.mismatch = none)
      ∧ t.gorse.voteA = (!a && s.gorse.voteA) ∧ t.gorse.voteB = (!b && s.gorse.voteB))
  ∧ (∀ (m : Nat × Nat) (s : State), s.gorse.mismatch = some m → ∃ t, exec (.xchkReplayDone false false) s = .next t
      ∧ bit (rd t aGorseSticky) 3 = true ∧ (t.gorse.voteA = true ∨ t.gorse.voteB = true → t.gorse.mismatch = none)
      ∧ (m.1 &&& (m.1 ^^^ m.2) = 0 → t.gorse.voteA = false ∧ t.gorse.voteB = s.gorse.voteB)
      ∧ (m.1 &&& (m.1 ^^^ m.2) ≠ 0 → m.2 &&& (m.1 ^^^ m.2) = 0 → t.gorse.voteB = false ∧ t.gorse.voteA = s.gorse.voteA))
  ∧ (∀ (ch pass : Bool) (ps : Nat) (s : State), ∃ t, exec (.gorseSelftest ch pass ps) s = .next t
      ∧ (let i := 16 + b2n ch
         let vote := fun (u : State) (c : Bool) => if c then u.gorse.voteB else u.gorse.voteA
         (if ch then t.gorse.testB else t.gorse.testA) = pass ∧ vote t (!ch) = vote s (!ch)
         ∧ (pass = true → vote t ch = (vote s ch
              || ((if ch then s.gorse.joinB else s.gorse.joinA) && tileLive s i && !tileFaulted s i)))
         ∧ (pass = false → (tile s i).active = none ∨ (tile s i).st ≠ .tileFault → vote t ch = false)
         ∧ (pass = false → (tile s i).active ≠ none → (tile t i).st = .tileFault)))

/-- A rising edge of EN (R34, R222, R223). With EN high nothing happens; an edge after less than 10 µs low does not qualify:
EN_SHORT sets and no cause clears. A qualifying edge closes the trip event and adds no cause; HOST_TRIP, HOST_SAFE_STOP,
SAFE_STOP, EN and SS_MAX clear, desaturation causes whose pins read clear do, an expired watchdog stays; with no cause
latched the device enters RUN. The brake chopper (R229, R230): BRK goes high where it is enabled outside reset, goes low with
what was written meanwhile, and a time on that is too long is a live source.
Where the spec's words leave the reading open it follows the model's log entries 70, 71, 89. -/
def Obligations.EnableEdgeAndBrake : Prop :=
  ((∀ (x : EnLive) (s : State), s.gorse.en = true → exec (.enRise x) s = .next s)
  ∧ (∀ (x : EnLive) (s : State), s.gorse.en = false → s.tick - s.gorse.enFallAt < 4000 →
      ∃ t, exec (.enRise x) s = .next t ∧ t.gorse.en = true ∧ bit (rd t aGorseSticky) 4 = true
      ∧ t.gorse.latch = s.gorse.latch ∧ t.dev = s.dev ∧ unchangedBut [.regs, .events, .gorse] s t)
  ∧ (∀ (x : EnLive) (s : State), s.gorse.en = false → 4000 ≤ s.tick - s.gorse.enFallAt →
      ∃ t, exec (.enRise x) s = .next t ∧ t.gorse.en = true ∧ t.gorse.eventOpen = false
      ∧ (∀ n, t.gorse.latch.testBit n = true → s.gorse.latch.testBit n = true)
      ∧ (∀ n ∈ [182, 185, 186, 187, 197], t.gorse.latch.testBit n = false)
      ∧ (s.host.hostExpired = true → t.gorse.latch.testBit 183 = s.gorse.latch.testBit 183)
      ∧ (s.host.svcExpired = true → t.gorse.latch.testBit 184 = s.gorse.latch.testBit 184)
      ∧ (∀ p, p < 12 → t.gorse.latch.testBit p = (s.gorse.latch.testBit p && !x.dsatClear.getLsbD p))
      ∧ (t.gorse.latch = 0 → s.dev = .tripped ∨ s.dev = .safeStop → t.dev = .run ∧ t.gorse.everRun = true)
      ∧ (t.gorse.latch ≠ 0 ∨ s.dev = .configWait ∨ s.dev = .run → t.dev = s.dev)))
  ∧ ((∀ s : State, brkEn s = true → s.power.inReset = false → ∃ t, exec .brkTurnOn s = .next t
      ∧ t.gorse = { s.gorse with brk := true } ∧ unchangedBut [.gorse] s t)
  ∧ (∀ s : State, brkEn s = false ∨ s.power.inReset = true → exec .brkTurnOn s = .next s)
  ∧ (∀ s : State, s.gorse.brk = true → ∃ t, exec .brkTurnOff s = .next t ∧ t.gorse.brk = false
      ∧ t.gorse.brkCfgPend = none ∧ t.gorse.brkThrPend = none ∧ t.gorse.live.testBit 198 = false
      ∧ rd t aBrkCfg = s.gorse.brkCfgPend.getD (rd s aBrkCfg) ∧ rd t aBrkThr = s.gorse.brkThrPend.getD (rd s aBrkThr)
      ∧ regsBut (fun a => a = aBrkCfg ∨ a = aBrkThr) s t)
  ∧ (∀ s : State, s.gorse.brk = true → ∃ t, exec .brkOvertime s = .next t ∧ t.gorse.live.testBit 198 = true
      ∧ (∀ n, n ≠ 198 → t.gorse.live.testBit n = s.gorse.live.testBit n) ∧ unchangedBut [.gorse] s t))

/-- Diagnostics that end (R231, R232). OFFSTATE_DIAG completes with the pairs tested, whose results stand in DIAG_PAIR_RES unless
the operation was to clear the latches; a link that has not answered shows 0xFF. CMP_SELFTEST completes; each comparator
refused shows 3, each tested its result, any other what it showed.
Where the spec's words leave the reading open it follows the model's log entries 69, 82. -/
def Obligations.DiagnosticsEnd : Prop :=
  (∀ (r : BitVec 24) (i : Nat) (s : State), runSlot s 0x05 = some i → ∃ t, exec (.offstateDiagDone r) s = .next t
      ∧ (slot t i).st = .completed ∧ (slot t i).res.getD 1 0
          = wd (maskOf 12 (fun p => (diagPairs s i).testBit p && !(fld (rd s aDiagPairRef) 0 12).testBit p))
      ∧ (∀ l, l < 36 → (diagLinks s i).testBit l = true → (link s l).diagWait = true →
          (link t l).diagWait = false ∧ (link t l).diagRpt = wd 0xFF000000)
      ∧ (∀ p, p < 12 → natFld (rd t aDiagPairRes).toNat (2 * p) 2 =
          if diagClear s i || !(diagPairs s i).testBit p then natFld (rd s aDiagPairRes).toNat (2 * p) 2
          else if (fld (rd s aDiagPairRef) 0 12).testBit p then 0 else natFld r.toNat (2 * p) 2)
      ∧ (∀ l, (diagLinks s i).testBit l = false ∨ (link s l).diagWait = false → link t l = link s l))
  ∧ (∀ (r : BitVec 48) (i : Nat) (s : State), runSlot s 0x06 = some i → ∃ t, exec (.cmpSelftestDone r) s = .next t
      ∧ (slot t i).st = .completed ∧ t.conv.stTested = 0 ∧ t.conv.stRefused = 0
      ∧ (let now := fun (u : State) (c : Nat) => ((rd u (aCmpSt 0)).toNat + 2 ^ 32 * (rd u (aCmpSt 1)).toNat) / 4 ^ c % 4
         ∀ c, c < 24 → now t c = if s.conv.stRefused.testBit c then 3
           else if s.conv.stTested.testBit c then min 2 (r.toNat / 4 ^ c % 4) else now s c))

/-! The operation queue (chapter 12). -/

/-- Submissions and starts (R349, R350, R352, R356). On a slot that is not QUEUED, RUNNING or SUSPENDED, the write of an
operation's parameters and op code puts it in QUEUED; an op code that the op table does not list ends FAILED with 0xE0. On a
busy slot the write changes no slot and sets SUBMIT_REFUSED. A QUEUED slot that nothing holds back starts, and runs, ends or
fails at once, other slots staying; an operation that needs an image fails in CONFIG-WAIT with 0xE1. TW_LOCATE and MRAM_SCRUB
run. SELF_CAL without the reference fails with 0x30, else it takes its converters, none while any is in service. CMP_SELFTEST
tests the comparators named, but in RUN none that is mapped. WAVE_DUMP of a segment that is not frozen fails with 0x51.
Where the spec's words leave the reading open it follows the model's log entries 34, 62. -/
def Obligations.OperationSubmission : Prop :=
  ((∀ (i : SlotNo) (s : State), isBusy (slot s i).st = false →
     let queues := fun (c : Instr) (op : Nat) (ps : List Word) => ∃ t, exec c s = .next t ∧ submitted i op ps s t
     (∀ p, queues (.selfCal i p) 1 [p]) ∧ (∀ p q r, queues (.tileLoad i p q r) 2 [p, q, r])
     ∧ (∀ p q r x, queues (.tileSwap i p q r x) 3 [p, q, r, x]) ∧ (∀ p q, queues (.linkTrain i p q) 4 [p, q])
     ∧ (∀ p q r, queues (.offstateDiag i p q r) 5 [p, q, r]) ∧ (∀ p, queues (.cmpSelftest i p) 6 [p])
     ∧ (∀ p q r x y, queues (.histCapture i p q r x y) 7 [p, q, r, x, y]) ∧ (∀ p q, queues (.waveDump i p q) 8 [p, q])
     ∧ (∀ p q, queues (.twLocate i p q) 9 [p, q]) ∧ (∀ p, queues (.mramScrub i p) 10 [p])
     ∧ ∀ op : Byte, op.toNat = 0 ∨ 10 < op.toNat → ∃ t, exec (.badOpcode i op) s = .next t ∧ (slot t i).st = .failed
       ∧ (slot t i).op = op.toNat ∧ (slot t i).res = [wd 0xE0, 0, 0, 0] ∧ bit (rd t aOpqEvent) i = true
       ∧ ∀ j, j ≠ i.val → slot t j = slot s j)
   ∧ (∀ (i : SlotNo) (s : State), isBusy (slot s i).st = true →
     let refuses := fun (c : Instr) => ∃ t, exec c s = .next t ∧ bit (rd t aOpqSticky) 0 = true
       ∧ (∀ j, slot t j = slot s j) ∧ regsBut (fun a => a = aOpqSticky) s t
     (∀ p, refuses (.selfCal i p)) ∧ (∀ p q r, refuses (.tileLoad i p q r)) ∧ (∀ p q r x, refuses (.tileSwap i p q r x))
     ∧ (∀ p q, refuses (.linkTrain i p q)) ∧ (∀ p q r, refuses (.offstateDiag i p q r)) ∧ (∀ p, refuses (.cmpSelftest i p))
     ∧ (∀ p q r x y, refuses (.histCapture i p q r x y)) ∧ (∀ p q, refuses (.waveDump i p q))
     ∧ (∀ p q, refuses (.twLocate i p q)) ∧ (∀ p, refuses (.mramScrub i p)) ∧ (∀ op, refuses (.badOpcode i op))))
  ∧ ((∀ (i : SlotNo) (s : State), opEligible s i = true → needsImage (slot s i).op = false ∨ s.dev ≠ .configWait →
        ∃ t, exec (.opStart i) s = .next t ∧ (slot t i).started = true
        ∧ ((slot t i).st = .running ∨ (slot t i).st = .completed ∨ (slot t i).st = .failed)
        ∧ (slot t i).op = (slot s i).op ∧ (slot t i).gen = (slot s i).gen ∧ (slot t i).ps = (slot s i).ps
        ∧ (∀ j, j ≠ i.val → slot t j = slot s j))
    ∧ (∀ (i : SlotNo) (s : State), opEligible s i = true → needsImage (slot s i).op = true → s.dev = .configWait →
        ∃ t, exec (.opStart i) s = .next t ∧ (slot t i).st = .failed ∧ (slot t i).res = [wd 0xE1, 0, 0, 0]
        ∧ (∀ j, j ≠ i.val → slot t j = slot s j))
    ∧ (∀ (i : SlotNo) (s : State), opEligible s i = true → ((slot s i).op = 9 ∧ s.dev ≠ .configWait) ∨ (slot s i).op = 10 →
        ∃ t, exec (.opStart i) s = .next t ∧ slot t i = { slot s i with st := .running, started := true }
        ∧ unchangedBut [.host] s t)
    ∧ (∀ (i : SlotNo) (s : State), opEligible s i = true → (slot s i).op = 1 → refOn s = false →
        ∃ t, exec (.opStart i) s = .next t ∧ (slot t i).st = .failed ∧ (slot t i).res = [wd 0x30, 0, 0, 0])
    ∧ (∀ (i : SlotNo) (s : State), opEligible s i = true → (slot s i).op = 1 → refOn s = true →
        let m := if fld (param s i 0) 0 16 = 0 then 0xFFFF else fld (param s i 0) 0 16
        let take := if convInService s then 0 else m
        ∃ t, exec (.opStart i) s = .next t ∧ (slot t i).st = .running
        ∧ t.conv = { s.conv with calMask := take, calRefused := m - take, calWait := !s.conv.refSettled
                                 calBusy := if s.conv.refSettled then take else 0 }
        ∧ unchangedBut [.conv, .host] s t)
    ∧ (∀ (i : SlotNo) (s : State), opEligible s i = true → (slot s i).op = 6 →
        ∃ t, exec (.opStart i) s = .next t ∧ (slot t i).st = .running ∧ unchangedBut [.conv, .host] s t
        ∧ ∀ c, c < 24 → t.conv.stRefused.testBit c
              = ((fld (param s i 0) 0 24).testBit c && s.dev == .run && (wcMapped s c || wcBrk s c))
            ∧ t.conv.stTested.testBit c = ((fld (param s i 0) 0 24).testBit c && !t.conv.stRefused.testBit c))
    ∧ (∀ (i : SlotNo) (s : State), opEligible s i = true → (slot s i).op = 8 → s.dev ≠ .configWait →
        s.meas.recFrozen.testBit (fld (param s i 0) 0 3) = false →
        ∃ t, exec (.opStart i) s = .next t ∧ (slot t i).st = .failed ∧ (slot t i).res = [wd 0x51, 0, 0, 0]))

/-- Actions of the queue (R349, R353 to R355, R361). An action whose handle is stale changes no slot and sets a flag. A QUEUED
operation is suspended, resumed and cancelled at once, a running one is marked and stops at its suspension point; a cancel of
one that is COMPLETED came too late; a running one whose arbitration point comes with its end is cancelled; beside a cancel
that counted at the same edge the host's counts. A scrub that ends gives its counts.
Where the spec's words leave the reading open it follows the model's log entry 103. -/
def Obligations.OperationActions : Prop :=
  let idx := fun (h : BitVec 16) => h.toNat % 16
  let fits := fun (h : BitVec 16) (s : State) => (slot s (idx h)).gen = h.toNat / 16
  let others := fun (i : Nat) (s t : State) => ∀ j, j ≠ i → slot t j = slot s j
  (∀ (h : BitVec 16) (c : Instr) (s : State), c = .suspend h ∨ c = .resume h ∨ c = .cancel h → ¬ fits h s →
      ∃ t, exec c s = .next t ∧ bit (rd t aOpqSticky) 1 = true
      ∧ (∀ j, slot t j = slot s j) ∧ regsBut (fun a => a = aOpqSticky) s t)
  ∧ (∀ (h : BitVec 16) (s : State), fits h s → suspendable (slot s (idx h)).op = true → (slot s (idx h)).st = .queued →
      ∃ t, exec (.suspend h) s = .next t ∧ slot t (idx h) = { slot s (idx h) with st := .suspended, suspReq := false }
      ∧ bit (rd t aOpqEvent) (idx h) = true ∧ others (idx h) s t)
  ∧ (∀ (h : BitVec 16) (s : State), fits h s → suspendable (slot s (idx h)).op = true →
      (slot s (idx h)).op ≠ 3 ∨ opArbitrated s (idx h) = false → (slot s (idx h)).st = .running →
      ∃ t, exec (.suspend h) s = .next t ∧ slot t (idx h) = { slot s (idx h) with suspReq := true } ∧ others (idx h) s t)
  ∧ (∀ (h : BitVec 16) (s : State), fits h s → suspendable (slot s (idx h)).op = false
        ∨ ((slot s (idx h)).st ≠ .queued ∧ (slot s (idx h)).st ≠ .running) →
      ∃ t, exec (.suspend h) s = .next t ∧ bit (rd t aOpqSticky) 2 = true ∧ (∀ j, slot t j = slot s j))
  ∧ (∀ (h : BitVec 16) (s : State), fits h s → (slot s (idx h)).st = .suspended → (slot s (idx h)).started = false →
      ∃ t, exec (.resume h) s = .next t ∧ slot t (idx h) = { slot s (idx h) with st := .queued } ∧ others (idx h) s t)
  ∧ (∀ (h : BitVec 16) (s : State), fits h s → (slot s (idx h)).st = .suspended → (slot s (idx h)).started = true →
      (slot s (idx h)).op ≠ 2 →
      ∃ t, exec (.resume h) s = .next t ∧ slot t (idx h) = { slot s (idx h) with st := .running } ∧ others (idx h) s t)
  ∧ (∀ (h : BitVec 16) (s : State), fits h s → (slot s (idx h)).st = .running → (slot s (idx h)).suspReq = true →
      (slot s (idx h)).op ≠ 2 →
      ∃ t, exec (.resume h) s = .next t ∧ slot t (idx h) = { slot s (idx h) with suspReq := false }
      ∧ others (idx h) s t ∧ unchangedBut [.gorse, .host] s t)
  ∧ (∀ (h : BitVec 16) (s : State), fits h s → (slot s (idx h)).cancelAt ≠ some s.tick → (slot s (idx h)).started = false →
      (slot s (idx h)).st = .queued ∨ (slot s (idx h)).st = .suspended → ∃ t, exec (.cancel h) s = .next t
      ∧ slot t (idx h) = { slot s (idx h) with
          st := .cancelled, res := [0, 0, 0, 0], suspReq := false, cancelSvc := false, cancelAt := some s.tick }
      ∧ bit (rd t aOpqEvent) (idx h) = true ∧ others (idx h) s t)
  ∧ (∀ (h : BitVec 16) (s : State), fits h s → (slot s (idx h)).cancelAt ≠ some s.tick → (slot s (idx h)).started = true →
      (slot s (idx h)).op ∈ [1, 5, 6, 7, 8, 9, 10] → (slot s (idx h)).st = .running → ∃ t, exec (.cancel h) s = .next t
      ∧ (slot t (idx h)).st = .cancelled ∧ (slot t (idx h)).res = [0, 0, 0, 0] ∧ others (idx h) s t)
  ∧ (∀ (h : BitVec 16) (s : State), fits h s → (slot s (idx h)).cancelAt ≠ some s.tick → (slot s (idx h)).st = .completed →
      ∃ t, exec (.cancel h) s = .next t ∧ (slot t (idx h)).cancelLate = true ∧ (slot t (idx h)).st = .completed
      ∧ (slot t (idx h)).res = (slot s (idx h)).res ∧ others (idx h) s t)
  ∧ (∀ (h : BitVec 16) (s : State), fits h s → (slot s (idx h)).cancelAt = some s.tick → ∃ t, exec (.cancel h) s = .next t
      ∧ slot t (idx h) = { slot s (idx h) with cancelSvc := false } ∧ others (idx h) s t)
  ∧ (∀ (v : Word) (s : State), let i := fld v 0 16 % 16
      (slot s i).gen = fld v 0 16 / 16 → (slot s i).cancelAt ≠ some s.tick → (slot s i).started = false →
      (slot s i).st = .queued ∨ (slot s i).st = .suspended → ∃ t, exec (.svcOpCancel v) s = .next t
      ∧ slot t i = { slot s i with
          st := .cancelled, res := [0, 0, 0, 0], suspReq := false, cancelSvc := true, cancelAt := some s.tick }
      ∧ bit (rd t (aSrcStatus 0)) 7 = true ∧ t.host.svcSeq = s.host.svcSeq + 1 ∧ others i s t)
  ∧ (∀ (v : Word) (s : State), (slot s (fld v 0 16 % 16)).gen ≠ fld v 0 16 / 16 →
      ∃ t, exec (.svcOpCancel v) s = .next t ∧ bit (rd t (aSvc 0x10)) 0 = true ∧ ∀ j, slot t j = slot s j)
  ∧ (∀ (i : SlotNo) (s : State), (slot s i).op ∈ [7, 8, 10] → (slot s i).st = .running →
      (slot s i).suspReq = true → ∃ t, exec (.opSuspensionPoint i) s = .next t
      ∧ slot t i = { slot s i with st := .suspended, suspReq := false } ∧ others i s t)
  ∧ (∀ (x y z i : Nat) (s : State), runSlot s 0x0A = some i → (slot s i).st = .running →
      ∃ t, exec (.mramScrubDone x y z) s = .next t
      ∧ slot t i = { slot s i with
          st := .completed, res := [0, wd x, wd y, wd (scrubBad s (param s i 0) + z)], suspReq := false }
      ∧ others i s t)

/-! Converters and comparators (chapter 9). -/

/-- Spot reads (R238, R241 to R245). A sample gives each converter without GAP its code within 16 bits, with CLIP where it lies
outside, and lands where a HOST capture waits. SPOT_TRIG asks for a capture in HOST mode alone. A PERIODIC capture writes the
value, the flags that the sample carries and NEW, and OVR if NEW stood or OVR did. A read returns the register and clears
NEW; a capture that lands in the same cycle lands after it: the read returns the previous DATA and NEW, NEW is set, OVR as
before, and a read in a later cycle returns the new value. -/
def Obligations.SpotReads : Prop :=
  (∀ (codes : List Int) (s : State), ∃ t, exec (.converterSample codes) s = .next t ∧ ∀ n, n < 16 →
      (convGap s n = true → tget dZeroI t.conv.raw n = tget dZeroI s.conv.raw n
          ∧ tget dZeroI t.conv.eff n = tget dZeroI s.conv.eff n ∧ t.conv.clip.testBit n = false)
      ∧ (convGap s n = false → tget dZeroI t.conv.raw n = clampI (-32768) 32767 (codes.getD n 0)
          ∧ (t.conv.clip.testBit n = true ↔ codes.getD n 0 < -32768 ∨ 32767 < codes.getD n 0))
      ∧ t.conv.spotWait.testBit n = false
      ∧ (s.conv.spotWait.testBit n = true → spotMode s n = 1 → bit (rd t (aAdcData n)) 16 = true)
      ∧ (s.conv.spotWait.testBit n = false → rd t (aAdcData n) = rd s (aAdcData n)))
  ∧ (∀ (v : Word) (s : State), ∃ t, exec (.spotTrig v) s = .next t
      ∧ (∀ n, t.conv.spotWait.testBit n
          = (s.conv.spotWait.testBit n || (decide (n < 16) && bit v n && spotMode s n == 1)))
      ∧ unchangedBut [.gorse, .conv, .host] s t)
  ∧ (∀ (n : ConvNo) (s : State), spotMode s n = 2 → ∃ t, exec (.spotPeriodicCapture n) s = .next t
      ∧ fld (rd t (aAdcData n)) 0 16 = spotValue s n % 65536 ∧ bit (rd t (aAdcData n)) 16 = true
      ∧ bit (rd t (aAdcData n)) 17 = (bit (rd s (aAdcData n)) 16 || bit (rd s (aAdcData n)) 17)
      ∧ (let fl := tget dFresh s.conv.flags n
         fld (rd t (aAdcData n)) 18 2 = fl % 4 ∧ bit (rd t (aAdcData n)) 20 = fl.testBit 3
           ∧ bit (rd t (aAdcData n)) 21 = fl.testBit 2)
      ∧ regsBut (fun a => a = aAdcData n) s t ∧ unchangedBut [.regs, .events] s t)
  ∧ (∀ (n : ConvNo) (s : State), spotMode s n ≠ 2 → exec (.spotPeriodicCapture n) s = .next s)
  ∧ (∀ (n : ConvNo) (s : State), eventNow s (aAdcData n) = none → ∃ t, exec (.adcDataRead n none) s = .next t
      ∧ t.host.result = .data (rd s (aAdcData n)) ∧ rd t (aAdcData n) = putFld (rd s (aAdcData n)) 16 1 0
      ∧ regsBut (fun a => a = aAdcData n) s t ∧ unchangedBut [.regs, .host] s t)
  ∧ (∀ (n : ConvNo) (d : BitVec 22) (s : State), eventNow s (aAdcData n) = none →
      ∃ t, exec (.adcDataRead n (some d)) s = .next t
      ∧ t.host.result = .data (rd s (aAdcData n)) ∧ bit (rd t (aAdcData n)) 16 = true
      ∧ fld (rd t (aAdcData n)) 0 16 = d.toNat % 65536 ∧ fld (rd t (aAdcData n)) 18 4 = d.toNat / 2 ^ 18
      ∧ bit (rd t (aAdcData n)) 17 = bit (rd s (aAdcData n)) 17
      ∧ regsBut (fun a => a = aAdcData n) s t
      ∧ ∃ u, exec (.adcDataRead n none) { t with tick := t.tick + 1 } = .next u
        ∧ u.host.result = .data (rd t (aAdcData n)))
  ∧ (∀ (n : ConvNo) (s : State), spotMode s n = 2 → eventNow s (aAdcData n) = none →
      ∃ t, exec (.spotPeriodicCapture n) s = .next t ∧ ∃ u, exec (.adcDataRead n none) t = .next u
      ∧ u.host.result = .data (rd s (aAdcData n)) ∧ bit (rd u (aAdcData n)) 16 = true
      ∧ bit (rd u (aAdcData n)) 17 = bit (rd s (aAdcData n)) 17
      ∧ fld (rd u (aAdcData n)) 0 16 = fld (rd t (aAdcData n)) 0 16)

/-- The reference buffer (R245, R246, R250). REF_EN goes to 1 in every state, to 0 only in CONFIG-WAIT; outside it a write of 0
is ignored and sets REF_OFF_REFUSED, so the reference of a running converter stays. When the reference settles, a SELF_CAL
that waits disconnects its converters. -/
def Obligations.ReferenceBuffer : Prop :=
  (∀ (v : Word) (s : State), bit v 0 = true → ∃ t, exec (.refEnWrite v) s = .next t ∧ refOn t = true
      ∧ t.conv = s.conv ∧ regsBut (fun a => a = aRefCtrl) s t)
  ∧ (∀ (v : Word) (s : State), bit v 0 = false → s.dev = .configWait → ∃ t, exec (.refEnWrite v) s = .next t
      ∧ refOn t = false ∧ t.conv = { s.conv with refSettled := false } ∧ regsBut (fun a => a = aRefCtrl) s t)
  ∧ (∀ (v : Word) (s : State), bit v 0 = false → s.dev ≠ .configWait → ∃ t, exec (.refEnWrite v) s = .next t
      ∧ bit (rd t aConvSticky) 0 = true ∧ refOn t = refOn s ∧ t.conv = s.conv
      ∧ regsBut (fun a => a = aConvSticky) s t)
  ∧ (∀ s : State, refOn s = true → s.conv.refSettled = false → ∃ t, exec .refSettled s = .next t
      ∧ t.conv = { s.conv with
          refSettled := true, calWait := false, calBusy := if s.conv.calWait then s.conv.calMask else s.conv.calBusy }
      ∧ unchangedBut [.conv] s t)

/-- Calibration (R249, R253). SELF_CAL's commit step: factors within the limits replace the converter's own, others leave them;
the results name the converters done, refused and failed, and no converter stays disconnected. UCAL_SAVE writes the settings
in force to the older slot, without its CRC-32; when the save ends the slot is valid. Another value, or a save under way,
does nothing.
Where the spec's words leave the reading open it follows the model's log entry 90. -/
def Obligations.Calibration : Prop :=
  (∀ (f : CalFactors) (i : Nat) (s : State), runSlot s 0x01 = some i → s.conv.calWait = false →
      s.conv.calMask.testBit f.conv = true → ∃ t, exec (.selfCalCommit [f]) s = .next t
      ∧ (slot t i).st = .completed ∧ t.conv.calBusy = 0
      ∧ (let done := if calPasses f then 2 ^ f.conv.val else 0
         (slot t i).res = [0, wd (done + 65536 * s.conv.calRefused), wd (s.conv.calMask &&& (0xFFFF ^^^ done)), 0])
      ∧ (calPasses f = true → rd t (aCal f.conv 0) = wd (unsgn 24 f.ofs) ∧ rd t (aCal f.conv 4) = wd f.gain
          ∧ rd t (aCal f.conv 8) = f.stage ∧ t.conv.calValid.testBit f.conv = true)
      ∧ (calPasses f = false → t.conv.calValid = s.conv.calValid ∧ ∀ o, o < 16 → rd t (aCal f.conv o) = rd s (aCal f.conv o))
      ∧ regsBut (fun a => a = aOpqEvent ∨ ∃ o, o < 12 ∧ a = aCal f.conv o) s t)
  ∧ (∀ s : State, s.conv.ucalBusy = false → ∃ t, exec (.ucalSave (wd 0x5543)) s = .next t
      ∧ t.conv.ucalBusy = true ∧ ucalSlot t (ucalOlder s) = ucalBody ((ucalTop s + 1) % 2 ^ 32) (ucalWords s)
      ∧ ucalValid (ucalSlot t (ucalOlder s)) = false
      ∧ ucalSlot t (1 - ucalOlder s) = ucalSlot s (1 - ucalOlder s) ∧ unchangedBut [.gorse, .conv, .host] s t)
  ∧ (∀ (v : Word) (s : State), v ≠ wd 0x5543 ∨ s.conv.ucalBusy = true → ∃ t, exec (.ucalSave v) s = .next t
      ∧ unchangedBut [.gorse, .host] s t)
  ∧ (∀ s : State, s.conv.ucalBusy = true → ∃ t, exec .ucalSaveDone s = .next t ∧ t.conv.ucalBusy = false
      ∧ (∀ k, ucalSlot t k = ucalClose (ucalSlot s k))
      ∧ (∀ k seq ws, ws.length = 32 → ucalSlot s k = ucalBody seq ws →
          ucalValid (ucalSlot t k) = true ∧ ucalSeq (ucalSlot t k) = seq % 2 ^ 32)
      ∧ unchangedBut [.conv] s t)

/-- Window comparators (R255, R257, R261 to R263). A crossing acts on a comparator that is enabled and has settled, as the sides
in use say; a change of output sets WC_EDGE. The first evaluation settles it against the midpoints. A read of CAPk_S_HI
clears NEW. RB_CTRL holds a converter for the readback, or is refused; the readback's end gives the code, the mean of the
corrected samples, with 10-bit code and DONE.
Where the spec's words leave the reading open it follows the model's log entries 89, 150. -/
def Obligations.Comparators : Prop :=
  (∀ (c : CmpNo) (x : Crossing) (s : State), wcEnabled s c = false ∨ (cmp s c).settled = false →
      exec (.wcCrossing c x) s = .next s)
  ∧ (∀ (c : CmpNo) (x : Crossing) (s : State), wcEnabled s c = true → (cmp s c).settled = true →
      ∃ t, exec (.wcCrossing c x) s = .next t
      ∧ (let w := wcCfgOf s c
         let was := cmp s c
         let now := match x with
           | .aboveHigh => if bit w 2 then (true, false) else (was.above, was.below)
           | .belowHighHyst => (false, was.below)
           | .belowLow => if bit w 1 then (false, true) else (was.above, was.below)
           | .aboveLowHyst => (was.above, false)
         (cmp t c).above = now.1 ∧ (cmp t c).below = now.2
         ∧ ((was.above || was.below) ≠ (now.1 || now.2) → bit (rd t aWcEdge) c = true)
         ∧ ((was.above || was.below) = (now.1 || now.2) → rd t aWcEdge = rd s aWcEdge))
      ∧ ∀ k, k ≠ c.val → cmp t k = cmp s k)
  ∧ (∀ (c : CmpNo) (uV : Int) (s : State), wcEnabled s c = true → (cmp s c).settled = false →
      ∃ t, exec (.wcSettled c uV) s = .next t ∧ (cmp t c).settled = true
      ∧ (let w := wcCfgOf s c
         let h : Int := 8000 * (fld w 3 5 : Nat)
         (cmp t c).above = (bit w 2 && decide (wcLevel c (wcHigh s c) - h / 2 < 8 * uV))
         ∧ (cmp t c).below = (bit w 1 && decide (8 * uV < wcLevel c (wcLow s c) + h / 2) && !(cmp t c).above))
      ∧ ∀ k, k ≠ c.val → cmp t k = cmp s k)
  ∧ (∀ (k : Fin 8) (s : State), eventNow s (aCap k 8) = none → ∃ t, exec (.capRead .host k) s = .next t
      ∧ t.host.result = .data (rd s (aCap k 8)) ∧ rd t (aCap k 8) = putFld (rd s (aCap k 8)) 22 1 0
      ∧ regsBut (fun a => a = aCap k 8) s t)
  ∧ (∀ (v : Word) (s : State), convInService s = true ∨ s.conv.calBusy.testBit (fld v 8 4) = true ∨ s.conv.rbConv ≠ none →
      ∃ t, exec (.rbCtrl v) s = .next t ∧ bit (rd t aConvSticky) 1 = true ∧ t.conv = s.conv
      ∧ regsBut (fun a => a = aConvSticky) s t)
  ∧ (∀ (v : Word) (s : State), convInService s = false → s.conv.calBusy.testBit (fld v 8 4) = false →
      s.conv.rbConv = none → ∃ t, exec (.rbCtrl v) s = .next t
      ∧ t.conv = { s.conv with rbConv := some (fld v 8 4), rbCmp := min (fld v 0 5) 23 }
      ∧ (let c := min (fld v 0 5) 23
         fld (rd t aRbResult) 16 10 = (if bit v 5 then wcHigh s c else wcLow s c))
      ∧ bit (rd t aRbResult) 28 = true ∧ bit (rd t aRbResult) 29 = false)
  ∧ (∀ (levels : List Int) (n : Nat) (s : State), s.conv.rbConv = some n → ∃ t, exec (.readbackDone levels) s = .next t
      ∧ t.conv = { s.conv with rbConv := none }
      ∧ fld (rd t aRbResult) 0 16 = unsgn 16 (rbCode s n s.conv.rbCmp levels)
      ∧ fld (rd t aRbResult) 16 10 = fld (rd s aRbResult) 16 10 ∧ bit (rd t aRbResult) 28 = false
      ∧ bit (rd t aRbResult) 29 = true ∧ regsBut (fun a => a = aRbResult) s t)

/-! Damask (chapter 2) and DRAM (R336). -/

/-- Planes (R34, R59, R62, R66, R71, R78, R97). With every tile programmed and the reference as the image's ROLE needs, all
planes become active at once and the device goes to RUN, or to TRIPPED where EN is low or a source latched; with the wrong
reference the load fails with 0x19, and a neighbour with a wrong position is flagged on its port. A section that fails its
CRC or its readback fails the load; one that passes becomes the tile's shadow plane. A discard clears shadow planes but those
being loaded or swapped. A scrub counts what it corrects; an upset past correction loses the plane.
Where the spec's words leave the reading open it follows the model's log entries 52, 53, 58, 66. -/
def Obligations.TilePlanes : Prop :=
  (∀ (ld : Load) (s : State), s.damask.load = some ld → ld.activates = true → ld.todo = [] → s.dev = .configWait →
      (leAt ld.blocks 23 1 = 2 ↔ fld (rd s aClkCfg) 0 2 ≠ 0) → wzPosBad s (leAt ld.blocks 22 1) = [] →
      ∃ t, exec .imageActivation s = .next t ∧ t.damask.imageValid = true ∧ t.damask.load = none
      ∧ (∀ k, k < 20 → (tile t k).active = (tile s k).shadow ∧ (tile t k).st = .activeOnly)
      ∧ t.dev = (if s.gorse.en && s.gorse.latch == 0 then .run else .tripped) ∧ rd t aActiveBuild = ld.buildId)
  ∧ (∀ (ld : Load) (i : Nat) (s : State), s.damask.load = some ld → ld.activates = true → ld.todo = [] → ld.slot = some i →
      s.dev = .configWait → ¬(leAt ld.blocks 23 1 = 2 ↔ fld (rd s aClkCfg) 0 2 ≠ 0) →
      ∃ t, exec .imageActivation s = .next t ∧ (slot t i).res = [wd 0xFF19, 0, 0, 0] ∧ t.dev = s.dev ∧ t.damask.load = none)
  ∧ (∀ (ld : Load) (s : State), s.damask.load = some ld → ld.activates = true → ld.todo = [] → s.dev = .configWait →
      (leAt ld.blocks 23 1 = 2 ↔ fld (rd s aClkCfg) 0 2 ≠ 0) → wzPosBad s (leAt ld.blocks 22 1) ≠ [] →
      ∃ t, exec .imageActivation s = .next t ∧ t.dev = s.dev ∧ t.damask = s.damask
      ∧ ∀ l ∈ wzPosBad s (leAt ld.blocks 22 1), bit (rd t (aLink l 0x10C)) 5 = true)
  ∧ (∀ (k : TileNo) (rest : List Nat) (ld : Load) (s : State), s.damask.load = some ld → ld.todo = k.val :: rest →
      k.val ∉ rest → (tile s k).st = .loading →
      let e := loadEntry ld k
      let sec := dramAt s (ld.offset + e.off) e.len
      (crc32 sec = e.crc → (∀ j, rest.head? = some j → (tile s j).st ≠ .shadowRun ∧ (tile s j).st ≠ .swapping) →
        ∃ t, exec (.sectionProgramDone k true) s = .next t
        ∧ (tile t k).shadow = some (planeOf ld.buildId.toNat e sec) ∧ (tile t k).active = (tile s k).active
        ∧ (tile t k).cold = ((if ld.slot.isSome then ld.cold else e.sflags.testBit 0) && tileKind k == .ctrl)
        ∧ (rest = [] → ld.activates = false → t.damask.load = none ∧ ∀ i, ld.slot = some i → (slot t i).st = .completed))
      ∧ (∀ i ok, ld.slot = some i → crc32 sec ≠ e.crc ∨ ok = false → ∃ t, exec (.sectionProgramDone k ok) s = .next t
        ∧ (slot t i).st = .failed
        ∧ (slot t i).res = [wd ((if crc32 sec = e.crc then 0x0D else 0x0C) + 256 * k), 0, 0, 0] ∧ t.damask.load = none
        ∧ (tile t k).active = (tile s k).active ∧ (tile t k).shadow = none))
  ∧ (∀ (v : Word) (s : State), ∃ t, exec (.tileDiscard v) s = .next t ∧ ∀ k, k < 20 →
      (tile t k).active = (tile s k).active
      ∧ (bit v k = false → tile t k = tile s k)
      ∧ (bit v k = true →
          ((tile s k).st = .loading ∨ (tile s k).st = .swapping → tile t k = tile s k ∧ bit (rd t aDmkFlags) 1 = true)
          ∧ ((tile s k).st = .shadowRun → (tile t k).st = .activeOnly ∧ (tile t k).shadow = none)
          ∧ ((tile s k).st = .activeOnly ∨ (tile s k).st = .tileFault →
              (tile t k).st = (tile s k).st ∧ (tile t k).shadow = none)))
  ∧ (∀ (found : List Upset) (s : State), (∀ u ∈ found, u.uncorrectable = false) →
      (rd s aSeuCorr).toNat + found.length < 2 ^ 32 → ∃ t, exec (.scrubSweep found) s = .next t
      ∧ rd t aSeuCorr = wd ((rd s aSeuCorr).toNat + found.length) ∧ regsBut (fun a => a = aSeuCorr) s t
      ∧ unchangedBut [.regs, .events] s t)
  ∧ (∀ (u : Upset) (s : State), u.uncorrectable = true → ∃ t, exec (.scrubSweep [u]) s = .next t
      ∧ (u.shadow = false → (tile s u.tile).active.isSome = true → (tile t u.tile).st = .tileFault)
      ∧ (u.shadow = true → (tile s u.tile).st ≠ .loading → (tile s u.tile).st ≠ .swapping →
          (tile t u.tile).shadow = none ∧ bit (rd t aSeuUncorr) u.tile = true
          ∧ (tile t u.tile).active = (tile s u.tile).active))

/-- The key hash (R80) and the boot read (R60, R61). DRAM through BAR2 (R65, R336): a write stores its bytes from its offset, but
none into a staging region that a TILE_LOAD locks, which it flags; a read gives the bytes, changes none, counts a corrected
error and answers poisoned data for one past correction.
Where the spec's words leave the reading open it follows the model's log entries 25, 49, 60, 123. -/
def Obligations.KeyBootAndDram : Prop :=
  ((let ws := fun (s : State) => (List.range 8).map (tget dZeroW s.damask.keyWr)
   (∀ s : State, s.dev = .configWait → s.damask.otpKey = none → (∃ w ∈ ws s, w ≠ 0) →
      ∃ t, exec (.keyProg (wd 0x4B48)) s = .next t
      ∧ t.damask = { s.damask with otpKey := some (ws s), keyBusy := true, keyFail := false })
   ∧ (∀ s : State, s.dev ≠ .configWait ∨ s.damask.otpKey ≠ none ∨ (∀ w ∈ ws s, w = 0) →
      ∃ t, exec (.keyProg (wd 0x4B48)) s = .next t ∧ t.damask = { s.damask with keyFail := true })
   ∧ (∀ (v : Word) (s : State), v ≠ wd 0x4B48 → ∃ t, exec (.keyProg v) s = .next t ∧ t.damask = s.damask))
  ∧ (∀ (ok : Bool) (s : State), s.damask.keyBusy = true → ∃ t, exec (.keyProgDone ok) s = .next t
      ∧ t.damask.keyBusy = false ∧ t.damask.keyFail = !ok ∧ t.damask.otpKey = (if ok then s.damask.otpKey else none)
      ∧ unchangedBut [.damask] s t)
  ∧ (∀ (img : List Byte) (s : State), s.damask.qspiBusy = true → s.damask.load = none →
      s.dev = .configWait → ∃ t, exec (.qspiReadDone false img) s = .next t ∧ t.damask.bootCode = 0x18 ∧ t.damask.qspiBusy = false
      ∧ unchangedBut [.damask] s t)
  ∧ (∀ (img : List Byte) (s : State), s.damask.qspiBusy = true → s.damask.load = none → s.dev = .configWait →
      img.length ≤ 0x1800000 → ∃ t, exec (.qspiReadDone true img) s = .next t
      ∧ ∀ a, tget dZeroB t.dram a = if a < img.length then img.getD a 0 else tget dZeroB s.dram a))
  ∧ ((∀ (off : BitVec 27) (data : List Byte) (s : State), ∃ t, exec (.bar2Write off data) s = .next t
      ∧ (let edge := s.damask.stagingMib * 2 ^ 20
         (∀ a, tget dZeroB t.dram a =
            if off.toNat ≤ a ∧ a < off.toNat + data.length ∧ a < dramSize ∧ ¬(stagingLocked s = true ∧ a < edge)
            then data.getD (a - off.toNat) 0 else tget dZeroB s.dram a)
         ∧ (stagingLocked s = true → off.toNat < edge → data ≠ [] → bit (rd t aDmkFlags) 0 = true)
         ∧ regsBut (fun a => a = aDmkFlags) s t))
  ∧ (∀ (off : BitVec 27) (len : Nat) (ecc : Ecc) (s : State), ∃ t, exec (.bar2Read off len ecc) s = .next t
      ∧ t.dram = s.dram
      ∧ (let bytes := dramAt s off.toNat (min len (dramSize - off.toNat))
         (∀ n, n < min len (dramSize - off.toNat) → bytes.getD n 0 = tget dZeroB s.dram (off.toNat + n))
         ∧ (ecc ≠ .uncorrectable → t.host.result = .bytes bytes)
         ∧ (ecc = .clean → t.regs = s.regs)
         ∧ (ecc = .corrected → rd t aDramCeCnt = satInc (rd s aDramCeCnt) 1 ∧ bit (rd t aGlobalSticky) 1 = true)
         ∧ (ecc = .uncorrectable → t.host.result = .poisoned ∧ rd t aDramCeCnt = rd s aDramCeCnt
             ∧ bit (rd t aGlobalSticky) 2 = true))
      ∧ regsBut (fun a => a = aDramCeCnt ∨ a = aGlobalSticky) s t))

/-! The host interface (chapter 14). -/

/-- Reads of registers (R11, R13, R15, R236, R334, R335, R340). A read within a register returns its addressed bytes and clears
what a read clears and nothing else, but what an event of the same tick set; one that crosses a register, or has no byte, is
answered Unsupported Request and counted. A service read of an address that its map lacks shows ADDR_SEEN. A read of the low
word of a 64-bit register, or of TIME_NS, captures the rest for its interface alone. A read of a trip record's last word
marks it read. The configuration header shows its identity, class code and zero subsystem IDs.
Where the spec's words leave the reading open it follows the model's log entries 30, 31, 147. -/
def Obligations.RegisterReads : Prop :=
  (∀ (addr : BitVec 24) (len : Nat) (s : State), addr.toNat < 0x400000 →
      let a := addr.toNat - addr.toNat % 4
      (len ≠ 0 → addr.toNat % 4 + len ≤ 4 → ∃ t, exec (.rcRead .host addr len) s = .next t
        ∧ t.host.result = .data (lanes (readData .host a s) (addr.toNat % 4) len)
        ∧ rd t a = (if rcBits a = 0 then rd s a else afterRead a s)
        ∧ (eventNow s a = none → rd t a = rd s a &&& ~~~(rcBits a) ∧ ((regInfo a).acc = .rc → rd t a = 0))
        ∧ (∀ b, b ≠ a → rd t b = rd s b) ∧ unchangedBut [.regs, .gorse, .bracken, .host] s t)
      ∧ (len = 0 ∨ 4 < addr.toNat % 4 + len → ∃ t, exec (.rcRead .host addr len) s = .next t
        ∧ t.host.result = .unsupported ∧ bit (rd t aGlobalSticky) 0 = true
        ∧ rd t aAccessErrCnt = satInc (rd s aAccessErrCnt) 1
        ∧ regsBut (fun b => b = aGlobalSticky ∨ b = aAccessErrCnt) s t))
  ∧ (∀ s : State, (∃ t, exec (.rcRead .host (BitVec.ofNat 24 0x400000) 4) s = .next t
        ∧ t.host.result = .data (wd 0x36161F6B) ∧ unchangedBut [.host] s t)
      ∧ (∃ t, exec (.rcRead .host (BitVec.ofNat 24 0x400009) 3) s = .next t
        ∧ t.host.result = .data (wd 0x118000) ∧ unchangedBut [.host] s t)
      ∧ (∃ t, exec (.rcRead .host (BitVec.ofNat 24 0x40002C) 4) s = .next t
        ∧ t.host.result = .data 0 ∧ unchangedBut [.host] s t))
  ∧ (∀ (addr : BitVec 24) (len : Nat) (s : State), svcHolds addr.toNat = true →
      ∃ t, exec (.rcRead .svc addr len) s = .next t ∧ t.host.svcSeq = s.host.svcSeq + 1
      ∧ rd t addr.toNat = (if rcBits addr.toNat = 0 then rd s addr.toNat else afterRead addr.toNat s)
      ∧ (∀ b, b ≠ addr.toNat → rd t b = rd s b))
  ∧ (∀ (addr : BitVec 24) (len : Nat) (c : Instr) (s : State), svcHolds addr.toNat = false →
      c = .rcRead .svc addr len ∨ (addr.toNat = aTimeNs ∧ c = .timeNsRead .svc)
        ∨ (∃ k : Fin 8, addr.toNat = aCap k 8 ∧ c = .capRead .svc k) →
      ∃ t, exec c s = .next t ∧ bit (rd t (aSvc 0x10)) 2 = true ∧ t.host.svcSeq = s.host.svcSeq
      ∧ regsBut (fun b => b = aSvc 0x10) s t ∧ unchangedBut [.regs, .events, .gorse, .host] s t)
  ∧ (∀ (i : Iface) (r : Fin 32) (s : State), ∃ t, exec (.tripRecRead i r) s = .next t
      ∧ t.gorse.recRead = s.gorse.recRead ||| 2 ^ r.val
      ∧ (i = .host → t.gorse = { s.gorse with recRead := s.gorse.recRead ||| 2 ^ r.val }
          ∧ t.host.result = .data (recWord s r 7))
      ∧ (i = .svc → t.host.svcSeq = s.host.svcSeq + 1) ∧ unchangedBut [.gorse, .host] s t)
  ∧ (∀ (i : Iface) (addr : BitVec 24) (s : State), is64Low addr.toNat = true → i = .host ∨ svcHolds addr.toNat = true →
      ∃ t, exec (.reg64LowRead i addr) s = .next t
      ∧ captured i (addr.toNat + 4) t = some (readWord s (addr.toNat + 4))
      ∧ (i = .host → t.host.result = .data (readWord s addr.toNat)) ∧ unchangedBut [.regs, .gorse, .host] s t)
  ∧ (∀ s : State, ∃ t, exec (.timeNsRead .host) s = .next t ∧ t.host.result = .data (wd s.time.ns)
      ∧ captured .host 0x50014 t = some (wd s.time.sec)
      ∧ captured .host 0x50018 t = some (wd (s.time.sec / 2 ^ 32 % 65536 + 65536 * s.time.frac))
      ∧ unchangedBut [.host] s t)

/-- Writes of registers (R12, R13, R15, R27, R335, R340). A write that is not of one whole register changes nothing and is
counted. A write of an RWS register of MOD or CTRL changes staging, by the clamp rule, and nothing in force; a W1C write
clears the bits written with 1 but those that an event of the same tick set; a read-only register and a reserved address keep
their word. The service port writes its own few registers alone.
Where the spec's words leave the reading open it follows the model's log entries 31, 32. -/
def Obligations.RegisterWrites : Prop :=
  (∀ (addr : BitVec 24) (len : Nat) (be : BitVec 4) (v : Word) (s : State), addr.toNat < 0x400000 →
      len ≠ 4 ∨ addr.toNat % 4 ≠ 0 ∨ be ≠ 15 → ∃ t, exec (.registerWrite .host addr len be v) s = .next t
      ∧ rd t aAccessErrCnt = satInc (rd s aAccessErrCnt) 1 ∧ bit (rd t aGlobalSticky) 0 = true
      ∧ regsBut (fun a => a = aAccessErrCnt ∨ a = aGlobalSticky) s t
      ∧ unchangedBut [.regs, .events, .time, .host] s t)
  ∧ (∀ (addr : BitVec 24) (v : Word) (s : State), let a := addr.toNat
      a % 4 = 0 → (0x100000 ≤ a ∧ a < 0x180000 ∨ 0x200000 ≤ a ∧ a < 0x300000) → (regInfo a).acc = .rws →
      a ≠ aChgEn → a ≠ aChgUpd → ∃ t, exec (.registerWrite .host addr 4 15 v) s = .next t
      ∧ rd t a = clampState s a v ∧ a ∈ t.dirty ∧ t.force = s.force
      ∧ regsBut (fun b => b = a ∨ clampNote (blockOf a).1 b) s t)
  ∧ (∀ (v : Word) (s : State), ∃ t, exec (.registerWrite .host (BitVec.ofNat 24 aChgEn) 4 15 v) s = .next t
      ∧ t.mod = { s.mod with enStaged := fld v 0 16, enDirty := 0xFFFF } ∧ unchangedBut [.mod, .gorse, .host] s t)
  ∧ (∀ (v : Word) (s : State), ∀ a ∈ [aGlobalSticky, aDmkFlags, aOpqEvent, aOpqSticky, aTimeSticky, aModSticky, aGorseSticky,
        aConvSticky, aMeterSticky, aMonSticky, aThermSticky],
      ∃ t, exec (.registerWrite .host (BitVec.ofNat 24 a) 4 15 v) s = .next t
      ∧ rd t a = rd s a &&& ~~~(v &&& wd (regInfo a).mask &&& ~~~(eventSet s a))
      ∧ (∀ b, b ≠ a → rd t b = rd s b) ∧ unchangedBut [.regs, .gorse, .host] s t)
  ∧ (∀ (addr : BitVec 24) (v : Word) (s : State), let a := addr.toNat
      a % 4 = 0 → a < 0x400000 → (blockOf a).1 = 99 ∨ ((blockOf a).1 = 14 ∧ (regInfo a).acc = .ro) →
      ∃ t, exec (.registerWrite .host addr 4 15 v) s = .next t ∧ unchangedBut [.gorse, .host] s t)
  ∧ (∀ (addr : BitVec 24) (len : Nat) (be : BitVec 4) (v : Word) (s : State), svcWritable addr.toNat = false →
      exec (.registerWrite .svc addr len be v) s = .next (svcAccess s))
  ∧ (∀ (k : Fin 4) (len : Nat) (be : BitVec 4) (v : Word) (s : State),
      ∃ t, exec (.registerWrite .svc (BitVec.ofNat 24 (aSvc (0x20 + 4 * k))) len be v) s = .next t
      ∧ rd t (aSvc (0x20 + 4 * k)) = v ∧ t.host.svcSeq = s.host.svcSeq + 1
      ∧ regsBut (fun a => a = aSvc (0x20 + 4 * k)) s t ∧ unchangedBut [.regs, .gorse, .host] s t)

/-- The service port (R338 to R341, R404). A transaction whose CRC fails is counted and not performed; a good one is the register
access it spells, with one more in SEQ where it is performed, and the answer says which. Another CMD is counted. A
transaction cut short performs nothing.
Where the spec's words leave the reading open it follows the model's log entries 120, 124. -/
def Obligations.ServicePort : Prop :=
  let answered := fun (u : State) (n k : Nat) (l : List Byte) => { u with host := { u.host with sdo := sdoBytes n k l } }
  (∀ (out : List Byte) (s : State), byteAt out 0 = 2 → 10 ≤ out.length →
      (svcWriteCrcGood out = false → ∃ t, exec (.spiWrite out) s = .next t
        ∧ rd t (aSvc 0x14) = satInc (rd s (aSvc 0x14)) 1 ∧ bit (rd t (aSvc 0x10)) 1 = true
        ∧ t.host = { s.host with sdo := sdoBytes out.length 9 [byt (2 + 16 * (s.host.svcSeq % 16))] }
        ∧ regsBut (fun a => a = aSvc 0x10 ∨ a = aSvc 0x14) s t ∧ unchangedBut [.regs, .events, .host] s t)
      ∧ (svcWriteCrcGood out = true → ∃ t u, exec (.spiWrite out) s = .next t
        ∧ exec (.registerWrite .svc (BitVec.ofNat 24 (svcAddr out)) 4 15 (svcData out)) s = .next u
        ∧ t = answered u out.length 9 [byt ((if svcWritable (svcAddr out) then 1 else 8) + 16 * (u.host.svcSeq % 16))]))
  ∧ (∀ (out : List Byte) (s : State), byteAt out 0 = 3 → 13 ≤ out.length →
      (svcReadCrcGood out = false → ∃ t, exec (.spiRead out) s = .next t
        ∧ rd t (aSvc 0x14) = satInc (rd s (aSvc 0x14)) 1 ∧ bit (rd t (aSvc 0x10)) 1 = true
        ∧ t.host = { s.host with sdo := sdoBytes out.length 7 (svcReply 0 (2 + 16 * (s.host.svcSeq % 16))) }
        ∧ regsBut (fun a => a = aSvc 0x10 ∨ a = aSvc 0x14) s t ∧ unchangedBut [.regs, .events, .host] s t)
      ∧ (svcReadCrcGood out = true → ∃ t u, exec (.spiRead out) s = .next t
        ∧ exec (.rcRead .svc (BitVec.ofNat 24 (svcAddr out)) 4) s = .next u
        ∧ t = answered u out.length 7 (if svcHolds (svcAddr out)
            then svcReply (readData .svc (svcAddr out) (svcAccess s)).toNat (1 + 16 * (u.host.svcSeq % 16))
            else svcReply 0 (4 + 16 * (u.host.svcSeq % 16)))))
  ∧ (∀ (cmd : Byte) (len : Nat) (s : State), cmd ≠ 2 → cmd ≠ 3 → ∃ t, exec (.spiBadCommand cmd len) s = .next t
      ∧ rd t (aSvc 0x18) = satInc (rd s (aSvc 0x18)) 1 ∧ t.host = { s.host with sdo := List.replicate len sdoHigh }
      ∧ regsBut (fun a => a = aSvc 0x18) s t ∧ unchangedBut [.regs, .events, .host] s t)
  ∧ (∀ (out : List Byte) (s : State), (byteAt out 0 = 2 ∧ out.length < 10) ∨ (byteAt out 0 = 3 ∧ out.length < 13) →
      ∃ t, exec (.spiAbort out) s = .next t
      ∧ t.host = { s.host with sdo := (if byteAt out 0 = 2 then List.replicate out.length sdoHigh
          else sdoBytes out.length 7 (svcPeek out s)) }
      ∧ unchangedBut [.host] s t)

/-! Time (chapter 10). -/

/-- The counter by command (R266, R268, R272). TIME_ADJ steps by its value, −2^31 as −2^31 + 1; a write of TIME_SET_S_HI loads
it; both set STEPPED. ADDEND is writable only with the servo off. TIME_CTRL and the return of the reference move the servo to
FREE_RUN where nothing can feed it.
Where the spec's words leave the reading open it follows the model's log entry 93. -/
def Obligations.TimeCommands : Prop :=
  (let now := fun (s : State) => ((s.time.sec * 1000000000 + s.time.ns : Nat) : Int)
   (∀ (v : Word) (s : State), ∃ t, exec (.timeAdj v) s = .next t
      ∧ now t = (now s + max v.toInt (-2147483647)) % (2 ^ 48 * 1000000000) ∧ t.time.ns < 1000000000
      ∧ t.time.frac = s.time.frac ∧ bit (rd t aTimeSticky) 0 = true
      ∧ regsBut (fun a => a = aTimeSticky ∨ clampNote 5 a) s t)
   ∧ (∀ (v : Word) (s : State), ∃ t, exec (.timeSet v) s = .next t
      ∧ t.time.sec = fld v 0 16 * 2 ^ 32 + (rd s aTimeSetLo).toNat ∧ t.time.ns = (rd s aTimeSetNs).toNat
      ∧ t.time.frac = 0 ∧ bit (rd t aTimeSticky) 0 = true
      ∧ regsBut (fun a => a = aTimeSticky ∨ a = aTimeSetHi) s t))
  ∧ (∀ (fine : Bool) (v : Word) (s : State), let a := if fine then aAddendFine else aAddend
      (servoEn s = true → ∃ t, exec (.addendWrite fine v) s = .next t ∧ bit (rd t aTimeSticky) 1 = true
        ∧ regsBut (fun b => b = aTimeSticky) s t)
      ∧ (servoEn s = false → ∃ t, exec (.addendWrite fine v) s = .next t ∧ rd t a = clampReg a v
        ∧ regsBut (fun b => b = a ∨ clampNote 5 b) s t))
  ∧ (∀ (v : Word) (s : State), ∃ t, exec (.timeCtrlWrite v) s = .next t ∧ rd t aTimeCtrl = clampReg aTimeCtrl v
      ∧ t.time.servo = (if (servoEn t && servoSrc t != 3) || s.time.servo == .refLost then s.time.servo else .freeRun)
      ∧ regsBut (fun a => a = aTimeCtrl) s t)
  ∧ (∀ s : State, bit (rd s aClkStatus) 2 = false → ∃ t, exec .referenceReturn s = .next t
      ∧ bit (rd t aClkStatus) 2 = true ∧ t.clock = { s.clock with refGone := false }
      ∧ t.time.servo = (if s.time.servo = .refLost ∧ (servoEn s = false ∨ servoSrc s = 3) then .freeRun else s.time.servo)
      ∧ regsBut (fun a => a = aClkStatus) s t)

/-- The servo and PPS (R269, R272, R273, R275, R278, R279, R374). A PTP measurement counts from the parent, in the domain, with a
Sync interval in range and the port's delay mechanism; it writes OFFSET_NS and MEAN_PATH_NS; a large offset steps the counter
out of LOCKED, another sets ADDEND by the PI law; in REF_LOST ADDEND is held. HOLDOVER is entered when the measurements have
stayed away and freezes ADDEND at the mean of the last while; its correction follows the oscillator model. PPS_OUT rises
where the counter passed its rollover and falls after its width. A PPS edge is stamped; an edge that stays away for 1.5 s
sets PPS_LOST.
Where the spec's words leave the reading open it follows the model's log entries 12, 93, 95, 143, 144. -/
def Obligations.ServoAndPps : Prop :=
  let now := fun (s : State) => ((s.time.sec * 1000000000 + s.time.ns : Nat) : Int)
  (∀ (x : PtpExchange) (s : State), ptpTakes x s = false → exec (.servoMeasurement x) s = .next s)
  ∧ (∀ (x : PtpExchange) (s : State), ptpTakes x s = true →
      let off := ptpOffset x
      let lost := s.time.servo = .refLost ∧ bit (rd s aClkStatus) 2 = false
      ∃ t, exec (.servoMeasurement x) s = .next t ∧ rd t aOffsetNs = wdI (sat32 off)
      ∧ rd t aMeanPath = wdI (sat32 (ptpPath x)) ∧ t.time.syncLog = x.logSync ∧ t.time.measAt = s.tick
      ∧ (¬lost → s.time.servo ≠ .locked → (rd s aStepNs).toNat < off.natAbs →
          now t = (now s - off) % (2 ^ 48 * 1000000000) ∧ bit (rd t aTimeSticky) 0 = true ∧ addend48 t = addend48 s
          ∧ ((rd s aLockNs).toNat < off.natAbs → t.time.servo = .acquiring))
      ∧ (¬lost → off.natAbs ≤ (rd s aStepNs).toNat →
          t.time.acc = s.time.acc + (fld (rd s aServoGain) 16 16 : Int) * off
          ∧ addend48 t = clampAddend (0x280000000
              + freeDiv 273 (0x280000000 * -((fld (rd s aServoGain) 0 16 : Int) * off + t.time.acc)) (65536 * 1000000000))
          ∧ t.time.sec = s.time.sec ∧ t.time.ns = s.time.ns)
      ∧ (lost → t.time.servo = .refLost ∧ addend48 t = addend48 s ∧ now t = now s))
  ∧ (∀ s : State, servoEn s = true → servoSrc s ≠ 3 → s.time.servo = .acquiring ∨ s.time.servo = .locked →
      s.time.measAt + measGap s ≤ s.tick →
      ∃ t, exec .holdoverEntry s = .next t ∧ t.time.servo = .holdover ∧ t.time.holdoverS = 0
      ∧ bit (rd t aTimeSticky) 2 = true ∧ addend48 t = t.time.frozen % 2 ^ 48
      ∧ (s.time.hist = [] → t.time.frozen = addend48 s) ∧ t.therm.hoCorr = 0)
  ∧ (∀ s : State, s.tick < s.time.measAt + measGap s → exec .holdoverEntry s = .next s)
  ∧ (∀ s : State, s.time.servo = .refLost → ∃ t, exec .holdoverCorrection s = .next t
      ∧ t.time = { s.time with holdoverS := s.time.holdoverS + 1 } ∧ unchangedBut [.time] s t)
  ∧ (∀ s : State, s.time.servo = .holdover → ∃ t, exec .holdoverCorrection s = .next t
      ∧ t.time.holdoverS = s.time.holdoverS + 1
      ∧ (bit (rd s (aHo 0)) 0 = false → t.therm.hoCorr = 0)
      ∧ (∀ x, bit (rd s (aHo 0)) 0 = true → hoTemp s = some x → t.therm.hoCorr = oscTerm s x - s.time.eEntry)
      ∧ (bit (rd s (aHo 0)) 0 = true → hoTemp s = none →
          t.therm.hoCorr = s.therm.hoCorr ∧ bit (rd t aThermSticky) 3 = true)
      ∧ addend48 t = clampAddend (s.time.frozen - freeDiv 375 (s.time.frozen * t.therm.hoCorr) (256 * 1000000000)))
  ∧ (∀ s : State, bit (rd s aPpsCfg) 0 = true → s.time.ppsPass = true → ∃ t, exec .ppsOutRise s = .next t
      ∧ t.time = { s.time with ppsOut := true, ppsAt := s.tick, ppsPass := false } ∧ unchangedBut [.time] s t)
  ∧ (∀ s : State, bit (rd s aPpsCfg) 0 = false ∨ s.time.ppsPass = false → exec .ppsOutRise s = .next s)
  ∧ (∀ s : State, s.time.ppsAt + ppsWidth s ≤ s.tick → ∃ t, exec .ppsOutFall s = .next t
      ∧ t.time = { s.time with ppsOut := false } ∧ unchangedBut [.time] s t)
  ∧ (∀ s : State, ∃ t, exec .ppsInEdge s = .next t ∧ rd t aPpsInNs = wd s.time.ns ∧ rd t aPpsInLo = wd s.time.sec
      ∧ fld (rd t aPpsInHi) 0 16 = s.time.sec / 2 ^ 32 % 65536 ∧ bit (rd t aPpsInHi) 16 = true
      ∧ bit (rd t aPpsInHi) 17 = (bit (rd s aPpsInHi) 16 || bit (rd s aPpsInHi) 17)
      ∧ (servoEn s = true → servoSrc s = 2 →
          rd t aOffsetNs = wdI (sat32 (if s.time.ns ≤ 500000000 then (s.time.ns : Int) else (s.time.ns : Int) - 1000000000)))
      ∧ (servoEn s = false ∨ servoSrc s ≠ 2 → regsBut (fun a => a = aPpsInNs ∨ a = aPpsInLo ∨ a = aPpsInHi) s t))
  ∧ (∀ s : State, s.time.ppsInAt + 600000000 ≤ s.tick → ∃ t, exec .ppsInMissing s = .next t
      ∧ bit (rd t aTimeSticky) 3 = true ∧ regsBut (fun a => a = aTimeSticky) s t
      ∧ unchangedBut [.regs, .events, .time, .host] s t)
  ∧ (∀ s : State, s.tick < s.time.ppsInAt + 600000000 → exec .ppsInMissing s = .next s)

/-- Ethernet and the launch queues (R44, R269, R271, R280 to R283, R294, R300). A port without an identity sets its flag; MAC_HI
puts the address into force unless the port is enabled. A good frame joins the receive ring in DRAM, with the stamp of a PTP
frame where PTP is in effect, or is dropped and counted where the ring is full; a travelling-wave report of an enabled line
joins the fronts, another datagram there is counted. A queue's head leaves on its port at its launch time, with one-step time
where PTP is in effect, and with the status written back; early, held back or with its port taken it stays.
Where the spec's words leave the reading open it follows the model's log entries 108, 109, 143, 145. -/
def Obligations.EthernetQueues : Prop :=
  (∀ (p : Fin 2) (up : Bool) (s : State), ∃ t, exec (.ethLinkChange p up) s = .next t
      ∧ t.eth = (if p = 0 then { s.eth with up0 := up } else { s.eth with up1 := up }) ∧ unchangedBut [.eth] s t)
  ∧ (∀ (p : Fin 2) (v : Word) (s : State), ∃ t, exec (.ethCfgWrite p v) s = .next t
      ∧ rd t (aEth p 0) = clampReg (aEth p 0) v ∧ (ethIdMissing t p = true → bit (rd t aTimeSticky) 4 = true)
      ∧ regsBut (fun a => a = aEth p 0 ∨ a = aTimeSticky ∨ clampNote 6 a) s t)
  ∧ (∀ (p : Fin 2) (v : Word) (s : State),
      (portEnabled s p = true → ∃ t, exec (.macHiWrite p v) s = .next t ∧ unchangedBut [.gorse, .host] s t)
      ∧ (portEnabled s p = false → ∃ t, exec (.macHiWrite p v) s = .next t
        ∧ macOf t p = (rd s (aEth p 8)).toNat + 2 ^ 32 * fld v 0 16 ∧ rd t (aEth p 0xC) = wd (fld v 0 16)
        ∧ macOf t (1 - p) = macOf s (1 - p) ∧ regsBut (fun a => a = aEth p 0xC ∨ a = aTimeSticky) s t))
  ∧ (∀ (p : Fin 2) (f : List Byte) (ok : Bool) (s : State),
      (linkUp s p = false → exec (.ethFrameRx p f ok) s = .next s)
      ∧ (linkUp s p = true → ok = false → ∃ t, exec (.ethFrameRx p f ok) s = .next t
        ∧ rd t (aEth p 0x38) = satInc (rd s (aEth p 0x38)) 1 ∧ regsBut (fun a => a = aEth p 0x38) s t
        ∧ unchangedBut [.regs, .events] s t)
      ∧ (linkUp s p = true → ok = true → twFrame s p f = none →
          let tail := (rd s (aEth p 0x2C)).toNat
          let next := ringNext (rd s (aEth p 0x24)).toNat tail
          let full := next = (rd s (aEth p 0x28)).toNat
          let st := if ptpFrame s p f then some (stampWith s (sWord (rd s (aEth p 0x18)))) else none
          let e := (f, (st.getD (0, 0)).1, (st.getD (0, 0)).2)
          ∃ t, exec (.ethFrameRx p f ok) s = .next t ∧ rd t (aEth p 0x30) = satInc (rd s (aEth p 0x30)) 1
          ∧ (full → rd t (aEth p 0x34) = satInc (rd s (aEth p 0x34)) 1 ∧ t.eth = s.eth ∧ t.dram = s.dram)
          ∧ (¬full → rd t (aEth p 0x2C) = wd next
              ∧ t.dram = (dramPut ((rd s (aEth p 0x20)).toNat + Config.rxStride * tail) (rxEntry f st) s).dram
              ∧ t.eth = (if p = 0 then { s.eth with rx0 := s.eth.rx0 ++ [e] } else { s.eth with rx1 := s.eth.rx1 ++ [e] }))
          ∧ regsBut (fun a => a = aEth p 0x30 ∨ a = aEth p 0x34 ∨ a = aEth p 0x2C) s t)
      ∧ (∀ l, linkUp s p = true → ok = true → twFrame s p f = some l →
          ∃ t, exec (.ethFrameRx p f ok) s = .next t ∧ rd t (aEth p 0x30) = satInc (rd s (aEth p 0x30)) 1
          ∧ t.eth = s.eth ∧ t.dram = s.dram
          ∧ (∀ r, twRead l = some r → lineOn s r.line = true → rd t aTwRxDrop = rd s aTwRxDrop
              ∧ ∃ x, t.meas.fronts.getLast? = some x ∧ x.station = r.station ∧ x.line = r.line ∧ x.event = r.event
                ∧ x.sec = r.sec ∧ x.ns = r.ns ∧ x.frac = r.frac ∧ x.uncert = r.uncert ∧ x.peak = r.peak)
          ∧ (twRead l = none ∨ (∃ r, twRead l = some r ∧ lineOn s r.line = false) → t.meas = s.meas
              ∧ ((rd s aTwRxDrop).toNat + 1 < 2 ^ 32 → rd t aTwRxDrop = wd ((rd s aTwRxDrop).toNat + 1)))
          ∧ regsBut (fun a => a = aEth p 0x30 ∨ a = aTwRxDrop) s t))
  ∧ (∀ (q : Fin 8) (v : Word) (s : State), ∃ t, exec (.lqTailWrite q v) s = .next t
      ∧ rd t (aLq q 8) = (if lqOwned s q then rd s (aLq q 8) else v) ∧ regsBut (fun a => a = aLq q 8) s t
      ∧ unchangedBut [.regs, .eth, .gorse, .host] s t)
  ∧ (∀ (q : Fin 8) (free : Bool) (s : State), lqHead s q = none → exec (.frameLaunch q free) s = .next s)
  ∧ (∀ (q : Fin 8) (free : Bool) (h : LqHead) (s : State), lqHead s q = some h →
      let far := fun (n : Nat) => (n : Int) * 65536 - (nowFine s : Int)
      let early := ∃ n, h.launch = some n ∧ 524288 < far n
      let late := ∃ n, h.launch = some n ∧ far n < -524288
      let st := stampWith s (sWord (rd s (aEth h.port 0x1C)))
      let back := fun (status sec ns : Nat) (t : State) =>
        rd t (aLq q 0xC) = wd (ringNext (rd s (aLq q 4)).toNat (rd s (aLq q 0xC)).toNat)
        ∧ t.dram = (dramPut (lqDescAt s q + 0x14) (descBack status sec ns) s).dram
        ∧ (h.own = true → ownQueue t q = (ownQueue s q).drop 1)
        ∧ regsBut (fun a => a = aLq q 0xC ∨ a = aLq q 0x14 ∨ a = aLq q 0x18 ∨ a = aPmuLateCnt) s t
      let timed := h.flags.testBit 0 && bit (rd s (aEth h.port 0)) 4 && ptpFrame s h.port h.frame
      let out := fun (t : State) => t.eth.sent
        = some { port := h.port, queue := q, bytes := if timed then oneStep h.frame st.1 st.2 else h.frame }
      (early ∨ lqBlocked s q h = true ∨ (linkUp s h.port = true ∧ free = false) → exec (.frameLaunch q free) s = .next s)
      ∧ (¬early → lqBlocked s q h = false →
        (linkUp s h.port = false → ∃ t, exec (.frameLaunch q free) s = .next t ∧ back 8 0 0 t
          ∧ rd t (aLq q 0x18) = satInc (rd s (aLq q 0x18)) 1 ∧ t.eth.sent = s.eth.sent)
        ∧ (linkUp s h.port = true → free = true → ¬late → ∃ t, exec (.frameLaunch q free) s = .next t
          ∧ back 1 st.1 st.2 t ∧ out t)
        ∧ (linkUp s h.port = true → free = true → late →
          (bit (rd s (aLq q 0x10)) 1 = true → ∃ t, exec (.frameLaunch q free) s = .next t ∧ back 4 0 0 t
            ∧ rd t (aLq q 0x18) = satInc (rd s (aLq q 0x18)) 1 ∧ t.eth.sent = s.eth.sent)
          ∧ (bit (rd s (aLq q 0x10)) 1 = false → ∃ t, exec (.frameLaunch q free) s = .next t ∧ back 3 st.1 st.2 t
            ∧ rd t (aLq q 0x14) = satInc (rd s (aLq q 0x14)) 1 ∧ out t))))

/-! Measurement (chapter 10). -/

/-- Synchrophasors (R284 to R286, R288 to R290, R300). A report joins LQ6 as a data frame due PMU_LAUNCH_DELAY after its instant,
in a UDP datagram to the ports set; SEND_CFG2 and SEND_HDR join at once; none leaves with IDCODE zero. A frame holds SYNC,
its size, IDCODE and a CRC over all before it. DATA_ON, DATA_OFF, the notice and the change of CFG-2 act as they say.
Where the spec's words leave the reading open it follows the model's log entries 17, 27, 108, 110, 127, 145, 150. -/
def Obligations.Synchrophasors : Prop :=
  (∀ (s : State) (sync soc frac : Nat) (body : List Byte), sync < 65536 → body.length + 16 < 65536 →
      let f := pmuFrame s sync soc frac body
      f.length = body.length + 16 ∧ beAt f 0 2 = sync ∧ beAt f 2 2 = f.length ∧ beAt f 4 2 = fld (rd s aIdcode) 0 16
      ∧ beAt f (f.length - 2) 2 = crc16 (f.take (f.length - 2)))
  ∧ (let joins := fun (s t : State) (due : Option (Nat × Nat)) (f : List Byte) =>
        t.eth.lq6 = s.eth.lq6 ++ [(pmuPort s, due, pmuDatagram s f)] ∧ t.eth.lq7 = s.eth.lq7 ∧ t.eth.sent = s.eth.sent
        ∧ rd t (aLq 6 8) = wd (ringNext (rd s (aLq 6 4)).toNat (rd s (aLq 6 8)).toNat)
        ∧ regsBut (fun a => a = aLq 6 8) s t
     (∀ (body : List Byte) (trig : BitVec 5) (s : State),
        ((pmuEn s && s.meas.dataRunning) = false → exec (.pmuReport body trig) s = .next s)
        ∧ ((pmuEn s && s.meas.dataRunning) = true → fld (rd s aIdcode) 0 16 = 0 →
            ∃ t, exec (.pmuReport body trig) s = .next t ∧ bit (rd t aTimeSticky) 4 = true ∧ t.eth = s.eth)
        ∧ ((pmuEn s && s.meas.dataRunning) = true → fld (rd s aIdcode) 0 16 ≠ 0 →
            let i := pmuInstant s
            let due := pmuAt s + (rd s aPmuDelay).toNat
            ∃ t, exec (.pmuReport body trig) s = .next t
            ∧ joins s t (some (due / 1000000000, due % 1000000000)) (pmuFrame s 0xAA02 i.1 i.2.1
                (beBytes 2 (pmuStat s (pmuFlagged s) trig.toNat) ++ fitBytes (pmuBodyLen s) body))
            ∧ unchangedBut [.regs, .dram, .eth] s t))
     ∧ (let sends := fun (c : Instr) (sync : Nat) (body : State → List Byte) => ∀ s : State,
        (pmuEn s = false → ∃ t, exec c s = .next t ∧ unchangedBut [.gorse, .host] s t)
        ∧ (pmuEn s = true → fld (rd s aIdcode) 0 16 = 0 →
            ∃ t, exec c s = .next t ∧ bit (rd t aTimeSticky) 4 = true ∧ t.eth = s.eth)
        ∧ (pmuEn s = true → fld (rd s aIdcode) 0 16 ≠ 0 → ∃ t, exec c s = .next t
            ∧ joins s t none (pmuFrame s sync ((utcSec s) % 2 ^ 32).toNat (s.time.ns / 1000) (body s)))
       sends .sendCfg2 0xAA32 (fun s => Config.cfg2Body (cfgBuild s).toNat (pmuCfgNow s).toNat s.meas.cfgCnt)
       ∧ sends .sendHdr 0xAA12 pmuHdr))
  ∧ (∀ (s : State) (p dest src dst : Nat) (l : List Byte), dst < 65536 → l.length + 28 < 65536 →
      (udpFrame s p dest src dst l).length = l.length + 42 ∧ udpOf (udpFrame s p dest src dst l) = some (dst, l))
  ∧ (∀ s : State, ∃ t, exec .dataOn s = .next t ∧ t.meas = { s.meas with dataRunning := true }
      ∧ unchangedBut [.gorse, .meas, .host] s t)
  ∧ (∀ s : State, ∃ t, exec .dataOff s = .next t ∧ t.meas = { s.meas with dataRunning := false }
      ∧ unchangedBut [.gorse, .meas, .host] s t)
  ∧ (∀ (v : Word) (s : State), ∃ t, exec (.pmuNotice v) s = .next t
      ∧ t.meas = { s.meas with cfgNotice := bit v 0 || s.meas.cfgNotice } ∧ unchangedBut [.gorse, .meas, .host] s t)
  ∧ (∀ s : State, ∃ t, exec .pmuCfgChange s = .next t
      ∧ (s.meas.cfgPending = true → t.meas =
          { s.meas with cfgPending := false, cfgNotice := false, cfgCnt := (s.meas.cfgCnt + 1) % 65536 })
      ∧ (s.meas.cfgPending = false → t = s) ∧ regsBut (fun _ => False) s t)

/-- Travelling waves (R291 to R295). A front of a component, read from the latest samples, is stamped at its peak less the
channel's trim and joins the fronts of its event, the first opening a new event, while the component is enabled, the event's
window open and it holds fewer than 32; the end of the window launches a report for each on LQ7; a report is 40 bytes that
read back as they were. TW_LOCATE gives its results, and 0x40 where no front of the event is local.
Where the spec's words leave the reading open it follows the model's log entries 12, 26, 111, 145, 146. -/
def Obligations.TravellingWaves : Prop :=
  (∀ (comp : Fin 3) (ch : ConvNo) (rise : BitVec 16) (s : State), twFront s comp = none →
      exec (.twFront comp ch rise) s = .next s)
  ∧ (∀ (comp : Fin 3) (ch : ConvNo) (rise : BitVec 16) (k : TwPeak) (s : State), twFront s comp = some k →
      let ok := twEn s && bit (fo s aTwCfg) (1 + comp) && (plane s 18).meas.twCh.contains ch.val
        && (!s.meas.twOpen || (decide (s.meas.twFronts < 32) && decide (k.at_.tick < s.meas.twStart + twWindow s)))
      (ok = false → exec (.twFront comp ch rise) s = .next s)
      ∧ (ok = true → ∃ t, exec (.twFront comp ch rise) s = .next t ∧ t.meas.twOpen = true
        ∧ t.meas.twSeq = (if s.meas.twOpen then s.meas.twSeq else (s.meas.twSeq + 1) % 65536)
        ∧ t.meas.twFronts = (if s.meas.twOpen then s.meas.twFronts else 0) + 1
        ∧ tget dZero t.meas.twHold comp = k.at_.tick + 400
        ∧ (∃ f, t.meas.fronts.getLast? = some f ∧ f.event = t.meas.twSeq ∧ f.comp = comp.val
            ∧ f.negative = decide (k.d < 0) ∧ f.index + 1 = t.meas.twFronts ∧ f.peak = twAmpl comp k.d
            ∧ f.rise = rise.toNat ∧ f.station = 0 ∧ f.uncert = twUncert s ∧ f.untrusted = untrusted s
            ∧ frontAt f = max 0 (twTime k - freeDiv 291 ((fld (rd s (aTwTrim ch)) 0 16 : Int) * 65536) 1000))
        ∧ t.meas.fronts.length = min 256 (s.meas.fronts.length + 1) ∧ unchangedBut [.meas] s t))
  ∧ (∀ s : State, s.meas.twOpen = false ∨ s.tick < s.meas.twStart + twWindow s → exec .twEventEnd s = .next s)
  ∧ (∀ s : State, s.meas.twOpen = true → s.meas.twStart + twWindow s ≤ s.tick → ∃ t, exec .twEventEnd s = .next t
      ∧ t.meas = { s.meas with twOpen := false }
      ∧ (let mine := s.meas.fronts.filter (fun f => f.station == 0 && f.event == s.meas.twSeq)
         let st := fld (rd s aTwStation) 0 18
         let out := (mine.drop (mine.length - s.meas.twFronts)).map
           (fun f => (fld (rd s aTwPort) 16 1, none, twDatagram s (twReport st f)))
         (st = 0 → bit (rd t aTimeSticky) 4 = true ∧ t.eth = s.eth)
         ∧ (st ≠ 0 → t.eth.lq7 = s.eth.lq7 ++ out ∧ t.eth.lq6 = s.eth.lq6)))
  ∧ (∀ r : TwReport, r.station < 2 ^ 18 → r.line < 65536 → r.event < 65536 → r.sec < 2 ^ 48 → r.ns < 2 ^ 30 →
      r.frac < 65536 → r.uncert < 65536 → r.front < 256 → r.tq < 256 → -32768 ≤ r.peak → r.peak ≤ 32767 →
      r.rise < 65536 → (twBytes r).length = 40 ∧ twRead (twBytes r) = some r)
  ∧ (∀ (i : Nat) (s : State), runSlot s 0x09 = some i →
      let r := twLocate s (fld (param s i 0) 0 3) (fld (param s i 1) 0 16) (bit (param s i 0) 8)
      ∃ t, exec .twLocateDone s = .next t ∧ (slot t i).st = .completed
      ∧ (slot t i).res = [wd r.code, wd r.r1, wd r.r2, wd r.r3] ∧ (∀ j, j ≠ i → slot t j = slot s j)
      ∧ ((∀ f ∈ s.meas.fronts, f.station = 0 → f.event ≠ fld (param s i 1) 0 16) → r.code = 0x40))

/-- The waveform recorder (R296 to R298). REC_FORCE triggers the segment that records, while the recorder is enabled: it takes
the time and the source, once. With the post-trigger part written the segment freezes and the next free one records; with
none free the trigger is missed and counted. REC_RELEASE frees segments. A dump's data and magic stand in staging when it
completes.
Where the spec's words leave the reading open it follows the model's log entries 19, 85, 92. -/
def Obligations.WaveformRecorder : Prop :=
  (∀ (v : Word) (s : State), ∃ t, exec (.recForce v) s = .next t
      ∧ (bit v 0 = false ∨ bit (fo s aRecCfg) 26 = false → t.meas = s.meas)
      ∧ (bit v 0 = true → bit (fo s aRecCfg) 26 = true → t.meas.recFilling = true
          ∧ (tget dZero t.meas.trigSrc s.meas.recSeg).testBit 10 = true
          ∧ (s.meas.recFilling = false → t.meas.recPost = 0
              ∧ tget dZero t.meas.trigSec s.meas.recSeg = s.time.sec ∧ tget dZero t.meas.trigNs s.meas.recSeg = s.time.ns)
          ∧ (s.meas.recFilling = true → t.meas.trigSec = s.meas.trigSec ∧ t.meas.trigNs = s.meas.trigNs))
      ∧ unchangedBut [.gorse, .meas, .host] s t)
  ∧ (∀ s : State, let cap := recInstants s (fo s aRecCfg)
      let full := cap - cap * fld (fo s aRecCfg) 22 4 / 16 ≤ s.meas.recPost
      s.meas.recFilling = true → full →
      (∀ g, recNext s = some g → ∃ t, exec .recFreeze s = .next t ∧ t.meas.recSeg = g ∧ g ≠ s.meas.recSeg
        ∧ (∀ k, t.meas.recFrozen.testBit k = (s.meas.recFrozen.testBit k || decide (k = s.meas.recSeg)))
        ∧ t.meas.recFilling = false ∧ t.meas.recCount = 0
        ∧ tget dZero t.meas.segCount s.meas.recSeg = min s.meas.recCount cap ∧ regsBut (fun _ => False) s t)
      ∧ (recNext s = none → (rd s aRecMiss).toNat + 1 < 2 ^ 32 → ∃ t, exec .recFreeze s = .next t
        ∧ rd t aRecMiss = wd ((rd s aRecMiss).toNat + 1) ∧ t.meas.recFrozen = s.meas.recFrozen
        ∧ t.meas.recSeg = s.meas.recSeg ∧ t.meas.recFilling = false ∧ regsBut (fun a => a = aRecMiss) s t))
  ∧ (∀ (v : Word) (s : State), s.meas.recFrozen < 256 → ∃ t, exec (.recRelease v) s = .next t
      ∧ (∀ k, t.meas.recFrozen.testBit k = (s.meas.recFrozen.testBit k && !(decide (k < 8) && bit v k)))
      ∧ t.meas.recSeg = s.meas.recSeg ∧ unchangedBut [.gorse, .meas, .host] s t)
  ∧ (∀ (i : Nat) (s : State), runSlot s 0x08 = some i → (slot s i).st = .running →
      let g := fld (param s i 0) 0 3
      let o := (param s i 1).toNat
      ∃ t, exec .waveDumpDone s = .next t ∧ (slot t i).st = .completed
      ∧ (slot t i).res = [0, wd (tget dZero s.meas.segCount g), 0, 0]
      ∧ (o + 64 ≤ dramSize → dramNat t o 4 = 0x50574454)
      ∧ (∀ n, n < (segBytes s g).length → o + 64 + n < dramSize →
          tget dZeroB t.dram (o + 64 + n) = (segBytes s g).getD n 0)
      ∧ (∀ a, a < o ∨ o + 64 + (segBytes s g).length ≤ a → tget dZeroB t.dram a = tget dZeroB s.dram a))

/-! Energy metering (chapter 11). -/

/-- METER (R305 to R321). A line cycle adds its increments to the 96-bit accumulators and their carries to the wraps; with
LATCH_N reached, the registers latch all together. A pulse ends; a periodic record holds the latched values, a FINAL record
the running ones, with the write under way abandoned; ENERGY_CLEAR zeroes them and writes its record, or is refused.
Where the spec's words leave the reading open it follows the model's log entries 97, 98, 128. -/
def Obligations.EnergyMetering : Prop :=
  (∀ (xs : List MeterSample) (dur : Nat) (mhz : Nat) (s : State), tileLive s 19 = true → s.meter.metering = true →
      let total := fun (m : Meter) (k : Nat) => tget dZero m.acc k + 2 ^ 96 * tget dZero m.wrap k
      let due := fld (fo s aMeterCfg) 0 16 ≤ s.meter.cycles + 1
      ∃ t, exec (.lineCycleEnd xs dur mhz) s = .next t
      ∧ (∀ k, total t.meter k % 2 ^ 128
          = (total s.meter k + (((cycleIncs s xs dur mhz).filter (fun p => p.1 == k)).map (·.2)).sum) % 2 ^ 128)
      ∧ (¬due → t.meter.cycles = s.meter.cycles + 1 ∧ t.meter.energy = s.meter.energy
          ∧ t.meter.latchSeq = s.meter.latchSeq)
      ∧ (due → t.meter.cycles = 0 ∧ t.meter.energy = t.meter.acc ∧ t.meter.energyWrap = t.meter.wrap
          ∧ t.meter.latchSeq = (s.meter.latchSeq + 1) % 2 ^ 32 ∧ t.meter.latchSec = s.time.sec
          ∧ t.meter.latchNs = s.time.ns ∧ t.meter.periodicDue = !s.meter.pfwLow)
      ∧ regsBut (fun a => a = aMeterSticky) s t)
  ∧ (∀ (xs : List MeterSample) (dur : Nat) (mhz : Nat) (s : State), tileLive s 19 = true → s.meter.metering = false →
      s.meter.startDue = true → ∃ t, exec (.lineCycleEnd xs dur mhz) s = .next t ∧ t.meter.metering = true
      ∧ t.meter.cycles = 0 ∧ t.meter.acc = s.meter.acc ∧ unchangedBut [.meter] s t)
  ∧ (∀ (k : Fin 8) (s : State), ∃ t, exec (.pulseEnd k) s = .next t
      ∧ (s.meter.pulse < 256 → ∀ j, t.meter.pulse.testBit j = (s.meter.pulse.testBit j && decide (j ≠ k)))
      ∧ t.meter.acc = s.meter.acc ∧ unchangedBut [.meter] s t)
  ∧ (∀ (present : Bool) (s : State), ∃ t, exec (.noLine present) s = .next t
      ∧ t.meter = { s.meter with noLine := !present } ∧ unchangedBut [.meter] s t)
  ∧ (∀ s : State, ∃ t, exec .pfwNRise s = .next t ∧ t.meter = { s.meter with pfwLow := false } ∧ unchangedBut [.meter] s t)
  ∧ (let kept := fun (m : Meter) (kind seq : Nat) (acc : Tbl Nat) => m.recSeq = seq
        ∧ (let r := tget (fun _ => ({} : MeterRec)) m.recs (seq % 32)
           r.kind = kind ∧ r.seq = seq ∧ recValid r = true ∧ r.acc = acc)
     (∀ s : State, s.meter.periodicDue = true → ∃ t, exec .periodicRecord s = .next t
        ∧ kept t.meter 1 (s.meter.recSeq + 1) s.meter.energy ∧ t.meter.periodicDue = false ∧ unchangedBut [.meter] s t)
     ∧ (let lost := fun (s t : State) =>
          recValid (tget (fun _ => ({} : MeterRec)) t.meter.recs ((s.meter.recSeq + 1) % 32)) = false
          ∧ kept t.meter 2 (s.meter.recSeq + 2) s.meter.acc
        (∀ s : State, tileLive s 19 = true → ∃ t, exec .pfwNFall s = .next t ∧ t.meter.pfwLow = true
          ∧ (s.meter.periodicDue = false → kept t.meter 2 (s.meter.recSeq + 1) s.meter.acc)
          ∧ (s.meter.periodicDue = true → lost s t) ∧ unchangedBut [.meter, .power] s t)
        ∧ (∀ s : State, tileLive s 19 = true → s.meter.pfwLow = true → ∃ t, exec .finalRepeat s = .next t
          ∧ (s.meter.periodicDue = false → kept t.meter 2 (s.meter.recSeq + 1) s.meter.acc)
          ∧ (s.meter.periodicDue = true → lost s t) ∧ unchangedBut [.meter] s t))
     ∧ (∀ s : State, s.dev ≠ .run → (tile s 19).st = .activeOnly → ∃ t, exec (.energyClear (wd 0x434C)) s = .next t
        ∧ t.meter.acc = [] ∧ t.meter.wrap = [] ∧ t.meter.clearCnt = (s.meter.clearCnt + 1) % 2 ^ 32
        ∧ kept t.meter 3 (s.meter.recSeq + 1) [] ∧ t.meter.energy = s.meter.energy
        ∧ unchangedBut [.gorse, .meter, .host] s t))
  ∧ (∀ s : State, s.dev = .run ∨ (tile s 19).st ≠ .activeOnly → ∃ t, exec (.energyClear (wd 0x434C)) s = .next t
      ∧ t.meter = s.meter ∧ bit (rd t aMeterSticky) 2 = true ∧ regsBut (fun a => a = aMeterSticky) s t)
  ∧ (∀ (v : Word) (s : State), v ≠ wd 0x434C → ∃ t, exec (.energyClear v) s = .next t ∧ unchangedBut [.gorse, .host] s t)

/-- BR_CLEAR (R331): outside RUN the key zeroes the charges and the estimate, counts, and writes both totals slots; the ring
stays; any other write is ignored. -/
def Obligations.BypassClear : Prop :=
  (∀ s : State, s.dev ≠ .run → ∃ t, exec (.brClear (wd 0x4243)) s = .next t
      ∧ (∀ n, tget dZero t.bracken.ah n = 0) ∧ t.bracken.est = 0
      ∧ t.bracken.clearCnt = (s.bracken.clearCnt + 1) % 2 ^ 32
      ∧ (∀ k, k < 2 → (let l := t.bracken.slots.getD k []
          s.bracken.slotSeq < l.getD 0 0 ∧ l.getD 1 0 = s.bracken.sec ∧ l.getD 2 0 = 0 ∧ l.getD 3 0 = 0 ∧ l.getD 4 0 = 0
          ∧ l.getD 5 0 = 0 ∧ l.getD 6 0 = t.bracken.clearCnt))
      ∧ t.bracken.ring = s.bracken.ring ∧ t.bracken.head = s.bracken.head ∧ unchangedBut [.gorse, .bracken, .host] s t)
  ∧ (∀ (v : Word) (s : State), v ≠ wd 0x4243 ∨ s.dev = .run → ∃ t, exec (.brClear v) s = .next t
      ∧ t.bracken = s.bracken ∧ unchangedBut [.gorse, .host] s t)

/-- Bracken (R323, R325, R326, R329, R330). A crystal second counts and adds what each channel carried; current opens an
interval. With VBAT lost or the crystal stopped nothing counts; the restart writes its record. An alignment record ties the
second count to the time.
Where the spec's words leave the reading open it follows the model's log entries 8, 112. -/
def Obligations.BypassMeter : Prop :=
  (∀ (c0 c1 c2 : List (BitVec 24)) (s : State), s.bracken.running = false → exec (.brackenSecond c0 c1 c2) s = .next s)
  ∧ (∀ (c0 c1 c2 : List (BitVec 24)) (s : State), s.bracken.running = true → ∃ t, exec (.brackenSecond c0 c1 c2) s = .next t
      ∧ (let rms := fun (n : Nat) => (brRmsAll s c0 c1 c2).getD n 0
         t.bracken.sec = (s.bracken.sec + 1) % 2 ^ 32
         ∧ (∀ n, n < 3 → tget dZero t.bracken.ah n
              = (tget dZero s.bracken.ah n + (freeDiv 325 (rms n * 2 ^ 24 : Nat) 3600000).toNat) % 2 ^ 96)
         ∧ ((∃ n, n < 3 ∧ (brReg s 0x20).toNat * 256000 < rms n) → t.bracken.open_ = true
              ∧ (s.bracken.open_ = false → t.bracken.ivStart = s.bracken.sec)))
      ∧ regsBut (fun _ => False) s t)
  ∧ (∀ s : State, s.time.servo = .locked ∨ s.time.servo = .holdover → s.bracken.running = true → alignDue s.bracken = true →
      ∃ t, exec .alignmentRecord s = .next t ∧ t.bracken.aligned = true ∧ t.bracken.alignBr = s.bracken.sec
      ∧ t.bracken.alignS = s.time.sec ∧ t.bracken.head = (s.bracken.head + 1) % 120
      ∧ (tget (fun _ => ({} : BrRec)) t.bracken.ring s.bracken.head).words
          = [2, wd s.bracken.sec, wd s.time.sec, wd (s.time.sec / 2 ^ 32 % 65536), 0, 0, 0]
      ∧ (∀ k, k ≠ s.bracken.head → tget (fun _ => ({} : BrRec)) t.bracken.ring k = tget (fun _ => {}) s.bracken.ring k))
  ∧ (∀ s : State, s.bracken.running = false → ∃ t, exec .vbatRestart s = .next t ∧ t.bracken.running = true
      ∧ t.bracken.vbatOk = true ∧ t.bracken.oscOk = true ∧ t.bracken.vbatLost = false ∧ t.bracken.oscFailed = false
      ∧ (s.bracken.vbatLost = true → bit (brReg t 4) 0 = true)
      ∧ t.bracken.head = (if s.bracken.vbatLost || s.bracken.oscFailed then (s.bracken.head + 1) % 120 else s.bracken.head))
  ∧ (∀ s : State, s.bracken.vbatOk = true → ∃ t, exec .vbatLoss s = .next t
      ∧ t.bracken = { s.bracken with running := false, vbatOk := false, oscOk := false, vbatLost := true, open_ := false }
      ∧ unchangedBut [.bracken] s t)
  ∧ (∀ s : State, s.bracken.running = true → ∃ t, exec .brackenCrystalStop s = .next t ∧ t.bracken.running = false
      ∧ t.bracken.oscOk = false ∧ t.bracken.oscFailed = true ∧ bit (brReg t 4) 1 = true ∧ t.bracken.sec = s.bracken.sec
      ∧ t.bracken.ah = s.bracken.ah)

/-! Interrupts, watchdogs, thermal and power (chapters 12, 14, 15). -/

/-- Vectors and watchdogs (R342 to R344, R346). VEC_ACK ends a vector's episode, and a source still set makes it pending again
(stated while no histogram engine accepts); enabling MSI-X makes pending every vector with a source set; half a timeout
warns; the key restarts a watchdog in MODE 1.
Where the spec's words leave the reading open it follows the model's log entries 9, 10. -/
def Obligations.VectorsAndWatchdogs : Prop :=
  (∀ (hi : Bool) (v : Word) (s : State), (∀ p ∈ s.therm.hists, p.2.accepting = false) →
      ∃ t, exec (.vecAck hi v) s = .next t
      ∧ (∀ j, j < 64 → t.host.vecPend.testBit j
          = (s.host.vecPend.testBit j && (!(decide (j / 32 = b2n hi) && bit v (j % 32)) || vecWaits s j)))
      ∧ regsBut (fun _ => False) s t)
  ∧ (∀ s : State, ∃ t, exec .msixEnable s = .next t ∧ t.host.msixOn = true
      ∧ (∀ j, j < 64 → t.host.vecPend.testBit j = (s.host.vecPend.testBit j || vecWaits s j))
      ∧ regsBut (fun _ => False) s t)
  ∧ (∀ (svc : Bool) (s : State), ((wdogRuns s svc && wdogPast s svc 1) = false → exec (.wdogWarn svc) s = .next s)
      ∧ ((wdogRuns s svc && wdogPast s svc 1) = true → ∃ t, exec (.wdogWarn svc) s = .next t ∧ bit (rd t (aSrcStatus 0)) 5 = true
        ∧ regsBut (fun _ => False) s t))
  ∧ (∀ (v : Word) (s : State), v = wd 0x4B43 ∨ bit (rd s aHostWdogCfg) 14 = false →
      ∃ t, exec (.hostWdogKick v) s = .next t ∧ t.host = { s.host with hostKickAt := s.tick, hostExpired := false }
      ∧ unchangedBut [.gorse, .host] s t)
  ∧ (∀ (v : Word) (s : State), v ≠ wd 0x4B43 → bit (rd s aHostWdogCfg) 14 = true → exec (.hostWdogKick v) s = .next s)
  ∧ (∀ s : State, bit (rd s aSvcWdogCfg) 14 = true → ∃ t, exec (.svcWdogKick (wd 0x4B43)) s = .next t
      ∧ t.host = { s.host with svcKickAt := s.tick, svcExpired := false, svcSeq := s.host.svcSeq + 1 }
      ∧ unchangedBut [.gorse, .host] s t)
  ∧ (∀ (v : Word) (s : State), bit (rd s aSvcWdogCfg) 14 = false → ∃ t, exec (.svcWdogKick v) s = .next t
      ∧ t.host = { s.host with svcKickAt := s.tick, svcExpired := false, svcSeq := s.host.svcSeq + 1 }
      ∧ unchangedBut [.gorse, .host] s t)
  ∧ (∀ (v : Word) (s : State), v ≠ wd 0x4B43 → bit (rd s aSvcWdogCfg) 14 = true →
      exec (.svcWdogKick v) s = .next (svcDone s))

/-- Thermal channels, on-die sensors, quadrant rails (R367 to R372, R384) and the end of a histogram capture (R365, R366). A
conversion gives the channel its temperature with its offset, or makes it invalid where the sensor is open or short or its
table does not fall; the throttle factor is the least contribution.
Where the spec's words leave the reading open it follows the model's log entries 16, 99, 100, 101, 102. -/
def Obligations.ThermalAndRails : Prop :=
  (∀ (n : Fin 8) (x : TsInput) (s : State), ∃ t, exec (.tsConversion n x) s = .next t
      ∧ (let mode := fld (rd s (aTs n 0)) 0 2
         let c := chan t n
         (mode = 0 → c.temp = (chan s n).temp ∧ c.valid = (chan s n).valid)
         ∧ (∀ v, mode ≠ 0 → tsOpen mode x = false → tsShort mode x = false → (tsMeasure s n x).1 = some v →
             c.temp = withOffset v (sgn 16 (fld (rd s (aTs n 8)) 0 16)) ∧ c.valid = true
             ∧ c.range = (tsMeasure s n x).2.1)
         ∧ (mode ≠ 0 → tsOpen mode x = true ∨ tsShort mode x = true ∨ (tsMeasure s n x).1 = none →
             c.valid = false ∧ c.temp = (chan s n).temp ∧ bit (rd t aThermSticky) 0 = true
             ∧ c.isOpen = ((tsMeasure s n x).1.isSome && tsOpen mode x)
             ∧ c.short = ((tsMeasure s n x).1.isSome && tsShort mode x))
         ∧ c.contrib = (if bit (rd s (aTs n 0)) 6 then some (thrContrib (rd s (aTs n 0x14))
             (sgn 16 (fld (rd s (aTs n 0x10)) 0 16)) c.temp c.valid) else none)
         ∧ t.therm.f ≤ 32768 ∧ (∀ k v, k < 8 → (chan t k).contrib = some v → t.therm.f ≤ v)
         ∧ (t.therm.f = 32768 ∨ ∃ k, k < 8 ∧ (chan t k).contrib = some t.therm.f))
      ∧ (∀ k, k ≠ n.val → chan t k = chan s k) ∧ regsBut (fun a => a = aThermSticky ∨ a = aMonSticky) s t)
  ∧ (∀ (d : Fin 4) (r : BitVec 16) (s : State), ∃ t, exec (.dieSensorConversion d r) s = .next t
      ∧ tget dZeroI t.therm.die d = r.toInt ∧ t.therm.dieValid.testBit d = true
      ∧ t.therm.dieOver.testBit d
          = overLevel (s.therm.dieOver.testBit d) r.toInt (sgn 16 (fld (rd s (aDieTrip d)) 0 16))
      ∧ t.power.tSpread = dieSpread t ∧ (dieSpread t = true → bit (rd t aPwrSticky) 1 = true)
      ∧ (∀ k, k ≠ d.val → tget dZeroI t.therm.die k = tget dZeroI s.therm.die k)
      ∧ regsBut (fun a => a = aThermSticky ∨ a = aMonSticky ∨ a = aPwrSticky) s t)
  ∧ (∀ (mv : List Nat) (s : State), ∃ t, exec (.quadRailMeasure mv) s = .next t
      ∧ (t.power.vSpread = true ↔ ∃ a ∈ mv.take 4, ∃ b ∈ mv.take 4, b + 24 < a)
      ∧ (t.power.vSpread = true → bit (rd t aPwrSticky) 0 = true) ∧ regsBut (fun a => a = aPwrSticky) s t)
  ∧ (∀ (i : Nat) (s : State), runSlot s 0x07 = some i → (slot s i).st = .running →
      (let time := (param s i 3).toNat
       (∀ e ∈ histEngines s i, (hist s e).accepting = false) ∨ (0 < time ∧ 400 * time ≤ histRun s)) →
      ∃ t, exec .histCaptureEnd s = .next t ∧ (slot t i).st = .completed
      ∧ (∀ e ∈ histEngines s i, (hist t e).accepting = false ∧ (hist t e).final = true
          ∧ (hist t e).bins = (hist s e).bins)
      ∧ (∀ e, e ∉ histEngines s i → hist t e = hist s e) ∧ ∀ j, j ≠ i → slot t j = slot s j)

/-- Resets and their release (R222, R376, R385 to R387, R397). A reset leaves the device in CONFIG-WAIT with every register at
its reset value, the outputs low and Bracken running on; only the cause and the shutdown record stay. PERST_N resets the
endpoint alone. The release takes the straps and pins, and does not come while no listed REFCLK is detected. Standby (R389,
R390): the key enters it where its conditions hold and no wake event coincides, with every lane's DCK stopped, and is refused
elsewhere; the other key wakes; when the exit ends, the lanes that ran resume, but for those the clockless latch holds.
Where the spec's words leave the reading open it follows the model's log entries 104, 105, 106, 107. -/
def Obligations.ResetsAndStandby : Prop :=
  ((let wiped := fun (t : State) => t.dev = .configWait ∧ t.power.inReset = true ∧ gatesLow t ∧ t.dram = []
      ∧ ∀ a, rd t a = regReset a ∧ fo t a = regReset a
   (∀ s : State, ∃ t, exec .powerOnReset s = .next t ∧ wiped t ∧ t.bracken = { s.bracken with aligned := false }
      ∧ t.meter.recs = s.meter.recs ∧ t.power.cause = State.reset.power.cause)
   ∧ (∀ s : State, s.power.inReset = false → ∃ t, exec .resetN s = .next t ∧ wiped t ∧ t.bracken = s.bracken
      ∧ t.power.cause = s.power.cause ||| 2 ∧ t.therm.shCount = s.therm.shCount)
   ∧ (∀ (d : Fin 4) (s : State), s.power.inReset = false → ∃ t, exec (.dieShutdown d) s = .next t ∧ wiped t
      ∧ t.power.dieHold = true ∧ t.power.cause.testBit 2 = true ∧ t.therm.shSensor = d.val
      ∧ t.therm.shSec = s.time.sec ∧ t.therm.shCount = (s.therm.shCount + 1) % 65536 ∧ t.therm.shValid = true))
  ∧ (∀ s : State, ∃ t, exec .perstN s = .next t ∧ t.host.vecPend = 0 ∧ t.host.pba = 0 ∧ t.host.msixOn = false
      ∧ t.power = { s.power with cause := s.power.cause ||| 8 }
      ∧ (∀ a, rd t a = if 0x48000 ≤ a ∧ a < 0x48400 then regReset a else rd s a)
      ∧ unchangedBut [.regs, .host, .power] s t)
  ∧ (let leaves := fun (x : Straps) (t : State) => t.power.dieHold = false
        ∧ t.gorse.en = x.en ∧ t.damask.bootMode = x.bootMode.toNat ∧ t.power.io3v3 = x.io3v3.toNat
        ∧ t.damask.qspiBusy = (x.bootMode == 1 || x.bootMode == 2)
        ∧ (x.io3v3.getLsbD 0 = false → bit (rd t aPwrSticky) 3 = true)
     (∀ (x : Straps) (s : State), s.power.inReset = true → s.power.dieHold = false → bit (rd s aClkStatus) 5 = false →
        ∃ t, exec (.resetRelease x) s = .next t ∧ t.power.inReset = false ∧ leaves x t)
     ∧ (∀ (x : Straps) (s : State), bit (rd s aClkStatus) 5 = true → exec (.resetRelease x) s = .next s)
     ∧ (∀ (x : Straps) (s : State), s.power.inReset = true → s.power.dieHold = true →
        ∃ t, exec (.dieShutdownRelease x) s = .next t
          ∧ t.power.inReset = bit (rd s aClkStatus) 5 ∧ leaves x t)))
  ∧ ((∀ s : State, s.power.standby = false → stbyOk s = true → wakeNow s = none →
      ∃ t, exec (.standbyEnter (wd 0x5342)) s = .next t
      ∧ t.power.standby = true ∧ t.power.waking = false ∧ (∀ l, l < 36 → (link t l).dck = false)
      ∧ (∀ l, l < 36 → t.power.stbyDck.testBit l = (link s l).dck))
  ∧ (∀ s : State, s.power.standby = false → stbyOk s = false → ∃ t, exec (.standbyEnter (wd 0x5342)) s = .next t
      ∧ bit (rd t aPwrSticky) 2 = true ∧ t.power = s.power ∧ t.links = s.links ∧ regsBut (fun a => a = aPwrSticky) s t)
  ∧ (∀ s : State, s.power.standby = true → s.power.waking = false → ∃ t, exec (.standbyWake (wd 0x5742)) s = .next t
      ∧ t.power = { s.power with waking := true, wakeCause := 1, wakeWc := 0, wakeEv := t.power.wakeEv }
      ∧ unchangedBut [.gorse, .host, .power] s t)
  ∧ (∀ (v : Word) (c : Instr) (s : State), c = .standbyEnter v ∨ c = .standbyWake v → v ≠ wd 0x5342 → v ≠ wd 0x5742 →
      ∃ t, exec c s = .next t ∧ unchangedBut [.gorse, .host] s t)
  ∧ (∀ s : State, s.power.standby = true → s.power.waking = true → ∃ t, exec .standbyExitDone s = .next t
      ∧ t.power.standby = false ∧ t.power.waking = false
      ∧ (∀ l, l < 36 → s.power.stbyDck.testBit l = true → (link t l).dck = ((link s l).dck || !s.mod.edgeLow))
      ∧ unchangedBut [.links, .power] s t)
  ∧ (∀ s : State, s.power.standby = false ∨ s.power.waking = false → exec .standbyExitDone s = .next s))
end

