-- ==== Sys2Proof/Laws/Kept.lean ====
section
/-! SUPPORT. What a command can do to State, said once: a property of states that every elementary update keeps is kept by
every shared operation (this file) and by every command (Laws/KeptCommands.lean). -/

namespace Sys2Proof.Laws

open Sys2Proof Sys2Proof.Machine

/-- The bit of a field in a mask. -/
def partBit (p : Part) : Nat :=
  match p with
  | .pending => 0x1 | .tick => 0x2 | .regs => 0x4 | .force => 0x8 | .dirty => 0x10 | .dram => 0x20 | .dev => 0x40
  | .groups => 0x80 | .present => 0x100 | .damask => 0x200 | .clock => 0x400 | .links => 0x800 | .mod => 0x1000
  | .units => 0x2000 | .gorse => 0x4000 | .conv => 0x8000 | .time => 0x10000 | .eth => 0x20000 | .meas => 0x40000
  | .meter => 0x80000 | .bracken => 0x100000 | .host => 0x200000 | .therm => 0x400000 | .power => 0x800000
  | .events => 0x1000000

/-- A set of fields as a mask, so that inclusion is one comparison of numbers. -/
def partMask (l : List Part) : Nat := l.foldr (fun p m => partBit p ||| m) 0

/-- A property of states that every elementary update of the fields of l keeps. The device state does not change, and no
enable comes into force. -/
structure Kept (l : List Part) (P : State → Prop) : Prop where
  regs : partBit .regs &&& partMask l = partBit .regs → ∀ s a v, P s → P { s with regs := tset regReset s.regs a v }
  regsClr : partBit .regs &&& partMask l = partBit .regs → ∀ s lo hi, P s → P { s with regs := tclr s.regs lo hi }
  events : partBit .events &&& partMask l = partBit .events → ∀ s x, P s → P { s with events := x }
  dram : partBit .dram &&& partMask l = partBit .dram → ∀ o w s, P s → P (dramPut o w s)
  force : partBit .force &&& partMask l = partBit .force → ∀ s a v, P s → P { s with force := tset regReset s.force a v }
  forceClr : partBit .force &&& partMask l = partBit .force → ∀ s lo hi, P s → P { s with force := tclr s.force lo hi }
  dirty : partBit .dirty &&& partMask l = partBit .dirty → ∀ s x, P s → P { s with dirty := x }
  groups : partBit .groups &&& partMask l = partBit .groups → ∀ s x, P s → P { s with groups := x }
  present : partBit .present &&& partMask l = partBit .present → ∀ s x, P s → P { s with present := x }
  damask : partBit .damask &&& partMask l = partBit .damask → ∀ s x, P s → P { s with damask := x }
  clock : partBit .clock &&& partMask l = partBit .clock → ∀ s x, P s → P { s with clock := x }
  links : partBit .links &&& partMask l = partBit .links → ∀ s x, P s → P { s with links := x }
  mod : partBit .mod &&& partMask l = partBit .mod → ∀ s x, x.en &&& s.mod.en = x.en → P s → P { s with mod := x }
  units : partBit .units &&& partMask l = partBit .units → ∀ s x, P s → P { s with units := x }
  gorse : partBit .gorse &&& partMask l = partBit .gorse → ∀ s x, P s → P { s with gorse := x }
  conv : partBit .conv &&& partMask l = partBit .conv → ∀ s x, P s → P { s with conv := x }
  time : partBit .time &&& partMask l = partBit .time → ∀ s x, P s → P { s with time := x }
  eth : partBit .eth &&& partMask l = partBit .eth → ∀ s x, P s → P { s with eth := x }
  meas : partBit .meas &&& partMask l = partBit .meas → ∀ s x, P s → P { s with meas := x }
  meter : partBit .meter &&& partMask l = partBit .meter → ∀ s x, P s → P { s with meter := x }
  bracken : partBit .bracken &&& partMask l = partBit .bracken → ∀ s x, P s → P { s with bracken := x }
  host : partBit .host &&& partMask l = partBit .host → ∀ s x, P s → P { s with host := x }
  therm : partBit .therm &&& partMask l = partBit .therm → ∀ s x, P s → P { s with therm := x }
  power : partBit .power &&& partMask l = partBit .power → ∀ s x, P s → P { s with power := x }

/-- The same where the device state moves as R34 lets a safe stop and a trip move it. -/
structure KeptDev (l : List Part) (P : State → Prop) : Prop extends Kept l P where
  stop : partBit .dev &&& partMask l = partBit .dev → ∀ s, s.dev = .run → P s → P { s with dev := .safeStop }
  trip : partBit .dev &&& partMask l = partBit .dev → ∀ s, s.dev = .run ∨ s.dev = .safeStop → P s → P { s with dev := .tripped }

theorem and_sub {a b c : Nat} (h : a &&& b = a) (h2 : b &&& c = b) : a &&& c = a := by
  rw [← h, Nat.and_assoc, h2]

theorem Kept.mono {a b : List Part} {P : State → Prop} (k : Kept b P) (h : partMask a &&& partMask b = partMask a) : Kept a P where
  regs hm := k.regs (and_sub hm h)
  regsClr hm := k.regsClr (and_sub hm h)
  events hm := k.events (and_sub hm h)
  dram hm := k.dram (and_sub hm h)
  force hm := k.force (and_sub hm h)
  forceClr hm := k.forceClr (and_sub hm h)
  dirty hm := k.dirty (and_sub hm h)
  groups hm := k.groups (and_sub hm h)
  present hm := k.present (and_sub hm h)
  damask hm := k.damask (and_sub hm h)
  clock hm := k.clock (and_sub hm h)
  links hm := k.links (and_sub hm h)
  mod hm := k.mod (and_sub hm h)
  units hm := k.units (and_sub hm h)
  gorse hm := k.gorse (and_sub hm h)
  conv hm := k.conv (and_sub hm h)
  time hm := k.time (and_sub hm h)
  eth hm := k.eth (and_sub hm h)
  meas hm := k.meas (and_sub hm h)
  meter hm := k.meter (and_sub hm h)
  bracken hm := k.bracken (and_sub hm h)
  host hm := k.host (and_sub hm h)
  therm hm := k.therm (and_sub hm h)
  power hm := k.power (and_sub hm h)

theorem KeptDev.mono {a b : List Part} {P : State → Prop} (k : KeptDev b P) (h : partMask a &&& partMask b = partMask a) :
    KeptDev a P where
  toKept := k.toKept.mono h
  stop hm := k.stop (and_sub hm h)
  trip hm := k.trip (and_sub hm h)

/-- P holds of s, as a form that the lemmas below rewrite. -/
def Holds (P : State → Prop) (s : State) : Prop := P s

variable {P : State → Prop}

theorem holds_if {c : Prop} [Decidable c] {a b : State} (ha : c → Holds P a) (hb : ¬c → Holds P b) :
    Holds P (if c then a else b) := by
  split
  · exact ha ‹_›
  · exact hb ‹_›

theorem holds_forEach (f : Nat → State → State) (hf : ∀ i s, Holds P s → Holds P (f i s)) (l : List Nat) (s : State)
    (h : Holds P s) : Holds P (forEach l f s) := by
  unfold forEach
  induction l generalizing s with
  | nil => exact h
  | cons a l ih => exact ih _ (hf a s h)

theorem holds_foldl {α : Type} (f : State → α → State) (hf : ∀ s a, Holds P s → Holds P (f s a)) (l : List α) (s : State)
    (h : Holds P s) : Holds P (l.foldl f s) := by
  induction l generalizing s with
  | nil => exact h
  | cons a l ih => exact ih _ (hf s a h)

theorem kept_wr (kp : Kept [.regs] P) (a : Nat) (v : Word) (s : State) (h : Holds P s) : Holds P (wr a v s) := kp.regs (by decide) _ _ _ h
theorem kept_setFo (kp : Kept [.force] P) (a : Nat) (v : Word) (s : State) (h : Holds P s) : Holds P (setFo a v s) := kp.force (by decide) _ _ _ h
theorem kept_noteEvent (kp : Kept [.events] P) (a : Nat) (f : Word → Word) (s : State) (h : Holds P s) : Holds P (noteEvent a f s) := kp.events (by decide) _ _ h
theorem kept_dramPut (kp : Kept [.dram] P) (o : Nat) (l : List Byte) (s : State) (h : Holds P s) : Holds P (dramPut o l s) := kp.dram (by decide) _ _ _ h
theorem kept_dirtySet (kp : Kept [.dirty] P) (x : List Nat) (s : State) (h : Holds P s) : Holds P { s with dirty := x } := kp.dirty (by decide) _ _ h
theorem kept_clrRegs (kp : Kept [.regs] P) (lo hi : Nat) (s : State) (h : Holds P s) : Holds P { s with regs := tclr s.regs lo hi } :=
  kp.regsClr (by decide) _ _ _ h
theorem kept_modGroup (kp : Kept [.groups] P) (i : Nat) (f : Group → Group) (s : State) (h : Holds P s) : Holds P (modGroup i f s) := kp.groups (by decide) _ _ h
theorem kept_modLink (kp : Kept [.links] P) (i : Nat) (f : Link → Link) (s : State) (h : Holds P s) : Holds P (modLink i f s) := kp.links (by decide) _ _ h
theorem kept_modUnit (kp : Kept [.units] P) (i : Nat) (f : MUnit → MUnit) (s : State) (h : Holds P s) : Holds P (modUnit i f s) := kp.units (by decide) _ _ h
theorem kept_modVCell (kp : Kept [.mod] P) (i : Nat) (f : VCell → VCell) (s : State) (h : Holds P s) : Holds P (modVCell i f s) :=
  kp.mod (by decide) _ _ (Nat.and_self _) h
theorem kept_modPair (kp : Kept [.mod] P) (i : Nat) (f : Pair → Pair) (s : State) (h : Holds P s) : Holds P (modPair i f s) :=
  kp.mod (by decide) _ _ (Nat.and_self _) h
theorem kept_modTile (kp : Kept [.damask] P) (i : Nat) (f : Tile → Tile) (s : State) (h : Holds P s) : Holds P (modTile i f s) :=
  kp.damask (by decide) _ _ h
theorem kept_modCmp (kp : Kept [.conv] P) (i : Nat) (f : Cmp → Cmp) (s : State) (h : Holds P s) : Holds P (modCmp i f s) := kp.conv (by decide) _ _ h
theorem kept_modSlot (kp : Kept [.host] P) (i : Nat) (f : Slot → Slot) (s : State) (h : Holds P s) : Holds P (modSlot i f s) := kp.host (by decide) _ _ h
theorem kept_modHist (kp : Kept [.therm] P) (i : Nat) (f : Hist → Hist) (s : State) (h : Holds P s) : Holds P (modHist i f s) := kp.therm (by decide) _ _ h
theorem kept_modChan (kp : Kept [.therm] P) (i : Nat) (f : TsChan → TsChan) (s : State) (h : Holds P s) : Holds P (modChan i f s) := kp.therm (by decide) _ _ h
theorem kept_modClock (kp : Kept [.clock] P) (f : Clock → Clock) (s : State) (h : Holds P s) : Holds P (modClock f s) := kp.clock (by decide) _ _ h
theorem kept_modGorse (kp : Kept [.gorse] P) (f : Gorse → Gorse) (s : State) (h : Holds P s) : Holds P (modGorse f s) := kp.gorse (by decide) _ _ h
theorem kept_modConv (kp : Kept [.conv] P) (f : Conv → Conv) (s : State) (h : Holds P s) : Holds P (modConv f s) := kp.conv (by decide) _ _ h
theorem kept_modTime (kp : Kept [.time] P) (f : TimeEng → TimeEng) (s : State) (h : Holds P s) : Holds P (modTime f s) := kp.time (by decide) _ _ h
theorem kept_modEth (kp : Kept [.eth] P) (f : Eth → Eth) (s : State) (h : Holds P s) : Holds P (modEth f s) := kp.eth (by decide) _ _ h
theorem kept_modMeas (kp : Kept [.meas] P) (f : Meas → Meas) (s : State) (h : Holds P s) : Holds P (modMeas f s) := kp.meas (by decide) _ _ h
theorem kept_modMeter (kp : Kept [.meter] P) (f : Meter → Meter) (s : State) (h : Holds P s) : Holds P (modMeter f s) := kp.meter (by decide) _ _ h
theorem kept_modBr (kp : Kept [.bracken] P) (f : Bracken → Bracken) (s : State) (h : Holds P s) : Holds P (modBr f s) := kp.bracken (by decide) _ _ h
theorem kept_modHost (kp : Kept [.host] P) (f : HostIf → HostIf) (s : State) (h : Holds P s) : Holds P (modHost f s) := kp.host (by decide) _ _ h
theorem kept_modTherm (kp : Kept [.therm] P) (f : Therm → Therm) (s : State) (h : Holds P s) : Holds P (modTherm f s) := kp.therm (by decide) _ _ h
theorem kept_modPower (kp : Kept [.power] P) (f : Power → Power) (s : State) (h : Holds P s) : Holds P (modPower f s) := kp.power (by decide) _ _ h
theorem kept_modDamask (kp : Kept [.damask] P) (f : Damask → Damask) (s : State) (h : Holds P s) : Holds P (modDamask f s) :=
  kp.damask (by decide) _ _ h
theorem kept_modMod (kp : Kept [.mod] P) (f : Mod → Mod) (s : State) (hf : ∀ m, (f m).en &&& m.en = (f m).en) (h : Holds P s) :
    Holds P (modMod f s) := kp.mod (by decide) _ _ (hf _) h
theorem and_mask (a b : Nat) : (a &&& b) &&& a = a &&& b := by
  rw [Nat.and_comm (a &&& b) a, ← Nat.and_assoc, Nat.and_self]

theorem kept_landWord (kp : Kept [.regs, .events] P) (a : Nat) (m v : Word) (s : State) (hP : Holds P s) :
    Holds P (landWord a m v s) := by
  have k0 : Kept [.regs] P := kp.mono (by decide)
  have k1 : Kept [.events] P := kp.mono (by decide)
  unfold landWord
  repeat' with_reducible first
    | exact hP | assumption | apply kept_wr k0 | apply kept_noteEvent k1

theorem kept_landNew (kp : Kept [.regs, .events] P) (a b : Nat) (v : Word) (s : State) (hP : Holds P s) :
    Holds P (landNew a b v s) := by
  have k0 : Kept [.regs, .events] P := kp.mono (by decide)
  unfold landNew
  repeat' with_reducible first
    | exact hP | assumption | apply kept_landWord k0

theorem kept_orWord (kp : Kept [.regs, .events] P) (a : Nat) (m : Word) (s : State) (hP : Holds P s) :
    Holds P (orWord a m s) := by
  have k0 : Kept [.regs, .events] P := kp.mono (by decide)
  unfold orWord
  repeat' with_reducible first
    | exact hP | assumption | apply kept_landWord k0

theorem kept_clearWord (kp : Kept [.regs] P) (a : Nat) (m : Word) (s : State) (hP : Holds P s) :
    Holds P (clearWord a m s) := by
  have k0 : Kept [.regs] P := kp.mono (by decide)
  unfold clearWord
  repeat' with_reducible first
    | exact hP | assumption | apply kept_wr k0

theorem kept_onlyIf (_ : Kept [] P) (b : Bool) (f : State → State) (s : State) (hf : ∀ u, Holds P u → Holds P (f u))
    (h : Holds P s) : Holds P (onlyIf b f s) := by
  unfold onlyIf
  exact holds_if (fun _ => hf s h) (fun _ => h)

theorem kept_vecRaise (kp : Kept [.regs, .time, .host] P) (v : Nat) (s : State) (hP : Holds P s) :
    Holds P (vecRaise v s) := by
  have k0 : Kept [.regs] P := kp.mono (by decide)
  have k1 : Kept [.time] P := kp.mono (by decide)
  have k2 : Kept [.host] P := kp.mono (by decide)
  unfold vecRaise
  dsimp only
  repeat' with_reducible first
    | exact hP | assumption | apply kept_wr k0 | apply kept_modTime k1 | apply kept_modHost k2 | apply holds_if
    | intro _

theorem kept_irq (kp : Kept [.regs, .events, .time, .host] P) (n : Nat) (s : State) (hP : Holds P s) :
    Holds P (irq n s) := by
  have k0 : Kept [.regs, .events] P := kp.mono (by decide)
  have k1 : Kept [.regs, .time, .host] P := kp.mono (by decide)
  unfold irq
  dsimp only
  repeat' with_reducible first
    | exact hP | assumption | apply kept_orWord k0 | apply kept_vecRaise k1 | apply holds_if | intro _

theorem kept_stick (kp : Kept [.regs, .events, .time, .host] P) (a m : Nat) (src : Option Nat) (s : State) (hP : Holds P s) :
    Holds P (stick a m src s) := by
  have k0 : Kept [.regs, .events] P := kp.mono (by decide)
  have k1 : Kept [.regs, .events, .time, .host] P := kp.mono (by decide)
  unfold stick
  dsimp only
  repeat' with_reducible first
    | exact hP | assumption | apply kept_orWord k0 | apply kept_irq k1 | apply holds_if | split | intro _

theorem kept_cntSat (kp : Kept [.regs, .events] P) (a n : Nat) (s : State) (hP : Holds P s) :
    Holds P (cntSat a n s) := by
  have k0 : Kept [.regs] P := kp.mono (by decide)
  have k1 : Kept [.events] P := kp.mono (by decide)
  unfold cntSat
  repeat' with_reducible first
    | exact hP | assumption | apply kept_wr k0 | apply kept_noteEvent k1

theorem kept_cntUp (kp : Kept [.regs, .events] P) (a n : Nat) (s : State) (hP : Holds P s) :
    Holds P (cntUp a n s) := by
  have k0 : Kept [.regs] P := kp.mono (by decide)
  have k1 : Kept [.events] P := kp.mono (by decide)
  unfold cntUp
  dsimp only
  repeat' with_reducible first
    | exact hP | assumption | apply kept_wr k0 | apply kept_noteEvent k1

theorem kept_logEv (kp : Kept [.host] P) (code : Nat) (arg : Nat) (s : State) (hP : Holds P s) :
    Holds P (logEv code arg s) := by
  have k0 : Kept [.host] P := kp.mono (by decide)
  unfold logEv
  repeat' with_reducible first
    | exact hP | assumption | apply kept_modHost k0

theorem kept_clkStick (kp : Kept [.regs, .events, .time, .host] P) (b : Nat) (s : State) (hP : Holds P s) :
    Holds P (clkStick b s) := by
  have k0 : Kept [.host] P := kp.mono (by decide)
  have k1 : Kept [.regs, .events, .time, .host] P := kp.mono (by decide)
  unfold clkStick
  repeat' with_reducible first
    | exact hP | assumption | apply kept_logEv k0 | apply kept_stick k1 | apply holds_if | intro _

theorem kept_modStick (kp : Kept [.regs, .events, .time, .host] P) (b : Nat) (s : State) (hP : Holds P s) :
    Holds P (modStick b s) := by
  have k0 : Kept [.regs, .events, .time, .host] P := kp.mono (by decide)
  unfold modStick
  repeat' with_reducible first
    | exact hP | assumption | apply kept_stick k0

theorem kept_convStick (kp : Kept [.regs, .events, .time, .host] P) (b : Nat) (s : State) (hP : Holds P s) :
    Holds P (convStick b s) := by
  have k0 : Kept [.regs, .events, .time, .host] P := kp.mono (by decide)
  unfold convStick
  repeat' with_reducible first
    | exact hP | assumption | apply kept_stick k0

theorem kept_timeStick (kp : Kept [.regs, .events, .time, .host] P) (b : Nat) (s : State) (hP : Holds P s) :
    Holds P (timeStick b s) := by
  have k0 : Kept [.regs, .events, .time, .host] P := kp.mono (by decide)
  unfold timeStick
  repeat' with_reducible first
    | exact hP | assumption | apply kept_stick k0

theorem kept_gorseStick (kp : Kept [.regs, .events, .time, .host] P) (b : Nat) (s : State) (hP : Holds P s) :
    Holds P (gorseStick b s) := by
  have k0 : Kept [.regs, .events, .time, .host] P := kp.mono (by decide)
  unfold gorseStick
  repeat' with_reducible first
    | exact hP | assumption | apply kept_stick k0

theorem kept_meterStick (kp : Kept [.regs, .events, .time, .host] P) (b : Nat) (s : State) (hP : Holds P s) :
    Holds P (meterStick b s) := by
  have k0 : Kept [.regs, .events, .time, .host] P := kp.mono (by decide)
  unfold meterStick
  repeat' with_reducible first
    | exact hP | assumption | apply kept_stick k0

theorem kept_globalStick (kp : Kept [.regs, .events, .time, .host] P) (b : Nat) (s : State) (hP : Holds P s) :
    Holds P (globalStick b s) := by
  have k0 : Kept [.regs, .events, .time, .host] P := kp.mono (by decide)
  unfold globalStick
  repeat' with_reducible first
    | exact hP | assumption | apply kept_stick k0

theorem kept_dmkFlag (kp : Kept [.regs, .events, .time, .host] P) (b : Nat) (s : State) (hP : Holds P s) :
    Holds P (dmkFlag b s) := by
  have k0 : Kept [.regs, .events, .time, .host] P := kp.mono (by decide)
  unfold dmkFlag
  repeat' with_reducible first
    | exact hP | assumption | apply kept_stick k0

theorem kept_opqFlag (kp : Kept [.regs, .events, .time, .host] P) (b : Nat) (s : State) (hP : Holds P s) :
    Holds P (opqFlag b s) := by
  have k0 : Kept [.regs, .events, .time, .host] P := kp.mono (by decide)
  unfold opqFlag
  repeat' with_reducible first
    | exact hP | assumption | apply kept_stick k0

theorem kept_pwrFlag (kp : Kept [.regs, .events, .time, .host] P) (b : Nat) (s : State) (hP : Holds P s) :
    Holds P (pwrFlag b s) := by
  have k0 : Kept [.regs, .events, .time, .host] P := kp.mono (by decide)
  unfold pwrFlag
  repeat' with_reducible first
    | exact hP | assumption | apply kept_stick k0

theorem kept_thermStick (kp : Kept [.regs, .events, .time, .host] P) (b : Nat) (s : State) (hP : Holds P s) :
    Holds P (thermStick b s) := by
  have k0 : Kept [.regs, .events, .time, .host] P := kp.mono (by decide)
  unfold thermStick
  repeat' with_reducible first
    | exact hP | assumption | apply kept_stick k0

theorem kept_monStick (kp : Kept [.regs, .events, .time, .host] P) (b : Nat) (s : State) (hP : Holds P s) :
    Holds P (monStick b s) := by
  have k0 : Kept [.regs, .events, .time, .host] P := kp.mono (by decide)
  unfold monStick
  repeat' with_reducible first
    | exact hP | assumption | apply kept_stick k0

theorem kept_muStick (kp : Kept [.regs, .events, .time, .host] P) (u b : Nat) (s : State) (hP : Holds P s) :
    Holds P (muStick u b s) := by
  have k0 : Kept [.regs, .events, .time, .host] P := kp.mono (by decide)
  unfold muStick
  repeat' with_reducible first
    | exact hP | assumption | apply kept_stick k0

theorem kept_brStick (kp : Kept [.regs, .events, .time, .bracken, .host] P) (b : Nat) (s : State) (hP : Holds P s) :
    Holds P (brStick b s) := by
  have k0 : Kept [.bracken] P := kp.mono (by decide)
  have k1 : Kept [.events] P := kp.mono (by decide)
  have k2 : Kept [.regs, .events, .time, .host] P := kp.mono (by decide)
  unfold brStick
  dsimp only
  repeat' with_reducible first
    | exact hP | assumption | apply kept_modBr k0 | apply kept_noteEvent k1 | apply kept_irq k2 | apply holds_if
    | intro _

theorem kept_ltStick (kp : Kept [.regs, .events, .time, .host] P) (l b : Nat) (s : State) (hP : Holds P s) :
    Holds P (ltStick l b s) := by
  have k0 : Kept [.regs, .events, .time, .host] P := kp.mono (by decide)
  unfold ltStick
  repeat' with_reducible first
    | exact hP | assumption | apply kept_stick k0

theorem kept_protoStick (kp : Kept [.regs, .events, .time, .host] P) (l b : Nat) (s : State) (hP : Holds P s) :
    Holds P (protoStick l b s) := by
  have k0 : Kept [.regs, .events, .time, .host] P := kp.mono (by decide)
  unfold protoStick
  repeat' with_reducible first
    | exact hP | assumption | apply kept_stick k0

theorem kept_setClk (kp : Kept [.regs] P) (b : Nat) (v : Bool) (s : State) (hP : Holds P s) :
    Holds P (setClk b v s) := by
  have k0 : Kept [.regs] P := kp.mono (by decide)
  unfold setClk
  repeat' with_reducible first
    | exact hP | assumption | apply kept_wr k0

theorem kept_setTile (kp : Kept [.regs, .events, .damask, .time, .host] P) (t : Nat) (st : TileState) (s : State) (hP : Holds P s) :
    Holds P (setTile t st s) := by
  have k0 : Kept [.regs, .events, .time, .host] P := kp.mono (by decide)
  have k1 : Kept [.host] P := kp.mono (by decide)
  have k2 : Kept [.damask] P := kp.mono (by decide)
  unfold setTile
  repeat' with_reducible first
    | exact hP | assumption | apply kept_irq k0 | apply kept_logEv k1 | apply kept_modTile k2 | apply holds_if
    | intro _

theorem kept_clearShadow (kp : Kept [.damask] P) (t : Nat) (s : State) (hP : Holds P s) :
    Holds P (clearShadow t s) := by
  have k0 : Kept [.damask] P := kp.mono (by decide)
  unfold clearShadow
  repeat' with_reducible first
    | exact hP | assumption | apply kept_modTile k0

theorem kept_opEvent (kp : Kept [.regs, .events, .time, .host] P) (i : Nat) (s : State) (hP : Holds P s) :
    Holds P (opEvent i s) := by
  have k0 : Kept [.regs, .events, .time, .host] P := kp.mono (by decide)
  unfold opEvent
  repeat' with_reducible first
    | exact hP | assumption | apply kept_irq k0 | apply kept_stick k0

theorem kept_endSlot (kp : Kept [.regs, .events, .time, .host] P) (i : Nat) (st : OpState) (res : List Word) (s : State) (hP : Holds P s) :
    Holds P (endSlot i st res s) := by
  have k0 : Kept [.host] P := kp.mono (by decide)
  have k1 : Kept [.regs, .events, .time, .host] P := kp.mono (by decide)
  unfold endSlot
  dsimp only
  repeat' with_reducible first
    | exact hP | assumption | apply kept_modSlot k0 | apply kept_logEv k0 | apply kept_opEvent k1

theorem kept_failSlot (kp : Kept [.regs, .events, .time, .host] P) (i code detail : Nat) (s : State) (hP : Holds P s) :
    Holds P (failSlot i code detail s) := by
  have k0 : Kept [.regs, .events, .time, .host] P := kp.mono (by decide)
  unfold failSlot
  repeat' with_reducible first
    | exact hP | assumption | apply kept_endSlot k0

theorem kept_blankDrop (kp : Kept [.regs, .events, .mod] P) (p : Nat) (s : State) (hP : Holds P s) :
    Holds P (blankDrop p s) := by
  have k0 : Kept [] P := kp.mono (by decide)
  have k1 : Kept [.regs, .events] P := kp.mono (by decide)
  have k2 : Kept [.mod] P := kp.mono (by decide)
  unfold blankDrop
  dsimp only
  repeat' with_reducible first
    | exact hP | assumption | apply kept_onlyIf k0 | apply kept_cntSat k1 | apply kept_modPair k2

theorem kept_settleBlank (kp : Kept [.regs, .events, .mod] P) (s : State) (hP : Holds P s) :
    Holds P (settleBlank s) := by
  have k0 : Kept [.regs, .events, .mod] P := kp.mono (by decide)
  unfold settleBlank
  repeat' with_reducible first
    | exact hP | assumption | apply kept_blankDrop k0 | apply holds_if | apply holds_forEach | intro _

theorem kept_dropPair (kp : Kept [.mod] P) (p : Nat) (s : State) (hP : Holds P s) :
    Holds P (dropPair p s) := by
  have k0 : Kept [.mod] P := kp.mono (by decide)
  unfold dropPair
  repeat' with_reducible first
    | exact hP | assumption | apply kept_modPair k0

theorem kept_recTrigger (kp : Kept [.meas] P) (mask : Nat) (s : State) (hP : Holds P s) :
    Holds P (recTrigger mask s) := by
  have k0 : Kept [.meas] P := kp.mono (by decide)
  unfold recTrigger
  dsimp only
  repeat' with_reducible first
    | exact hP | assumption | apply kept_modMeas k0 | apply holds_if | intro _

theorem kept_wake (kp : Kept [.power] P) (cause wc : Nat) (s : State) (hP : Holds P s) :
    Holds P (wake cause wc s) := by
  have k0 : Kept [.power] P := kp.mono (by decide)
  unfold wake
  dsimp only
  repeat' with_reducible first
    | exact hP | assumption | apply kept_modPower k0 | apply holds_if | intro _

theorem kept_startRun (kp : Kept [.links] P) (stop : Bool) (l : Nat) (s : State) (hP : Holds P s) :
    Holds P (startRun stop l s) := by
  have k0 : Kept [.links] P := kp.mono (by decide)
  unfold startRun
  dsimp only
  repeat' with_reducible first
    | exact hP | assumption | apply kept_modLink k0

theorem kept_blockLink (kp : Kept [.links] P) (stop : Bool) (l : Nat) (s : State) (hP : Holds P s) :
    Holds P (blockLink stop l s) := by
  have k0 : Kept [.links] P := kp.mono (by decide)
  unfold blockLink
  dsimp only
  repeat' with_reducible first
    | exact hP | assumption | apply kept_startRun k0 | apply holds_if | intro _

theorem kept_blockWz (kp : Kept [.links] P) (l : Nat) (s : State) (hP : Holds P s) :
    Holds P (blockWz l s) := by
  have k0 : Kept [.links] P := kp.mono (by decide)
  unfold blockWz
  dsimp only
  repeat' with_reducible first
    | exact hP | assumption | apply kept_modLink k0 | apply holds_if | intro _

theorem kept_rangeUpdate (kp : Kept [.regs, .events, .links, .time, .host] P) (s : State) (hP : Holds P s) :
    Holds P (rangeUpdate s) := by
  have k0 : Kept [.links] P := kp.mono (by decide)
  have k1 : Kept [.regs, .events, .time, .host] P := kp.mono (by decide)
  unfold rangeUpdate
  dsimp only
  repeat' with_reducible first
    | exact hP | assumption | apply kept_modLink k0 | apply kept_protoStick k1 | apply holds_if | apply holds_forEach
    | intro _

theorem kept_latClear (kp : Kept [.regs, .events, .links, .time, .host] P) (lost : Bool) (l : Nat) (s : State) (hP : Holds P s) :
    Holds P (latClear lost l s) := by
  have k0 : Kept [.links] P := kp.mono (by decide)
  have k1 : Kept [.regs, .events, .time, .host] P := kp.mono (by decide)
  have k2 : Kept [.regs, .events, .links, .time, .host] P := kp.mono (by decide)
  unfold latClear
  dsimp only
  repeat' with_reducible first
    | exact hP | assumption | apply kept_modLink k0 | apply kept_protoStick k1 | apply kept_rangeUpdate k2
    | apply holds_if | intro _

theorem kept_dckOff (kp : Kept [.regs, .events, .links, .time, .host] P) (l : Nat) (s : State) (hP : Holds P s) :
    Holds P (dckOff l s) := by
  have k0 : Kept [.regs, .events, .links, .time, .host] P := kp.mono (by decide)
  have k1 : Kept [.links] P := kp.mono (by decide)
  unfold dckOff
  repeat' with_reducible first
    | exact hP | assumption | apply kept_latClear k0 | apply kept_modLink k1

theorem kept_dckOn (kp : Kept [.links] P) (l : Nat) (s : State) (hP : Holds P s) :
    Holds P (dckOn l s) := by
  have k0 : Kept [.links] P := kp.mono (by decide)
  unfold dckOn
  repeat' with_reducible first
    | exact hP | assumption | apply kept_modLink k0 | apply holds_if | intro _

theorem kept_setLive (kp : Kept [.gorse] P) (n : Nat) (b : Bool) (s : State) (hP : Holds P s) :
    Holds P (setLive n b s) := by
  have k0 : Kept [.gorse] P := kp.mono (by decide)
  unfold setLive
  repeat' with_reducible first
    | exact hP | assumption | apply kept_modGorse k0

theorem kept_scUpdate (kp : Kept [.gorse] P) (s : State) (hP : Holds P s) :
    Holds P (scUpdate s) := by
  have k0 : Kept [.gorse] P := kp.mono (by decide)
  unfold scUpdate
  repeat' with_reducible first
    | exact hP | assumption | apply kept_setLive k0 | apply kept_modGorse k0 | apply holds_if | split | intro _

theorem kept_setDev (k : Kept [.regs, .events, .dev, .time, .host] P) (d : DevState) (s : State) (hd : P { s with dev := d }) (h : Holds P s) :
    Holds P (setDev d s) := by
  unfold setDev
  exact holds_if (fun _ => h) (fun _ => kept_irq (k.mono (by decide)) _ _ (kept_logEv (k.mono (by decide)) _ _ _ hd))

theorem kept_enterRun (k : Kept [.regs, .events, .dev, .links, .mod, .gorse, .time, .host] P) (s : State) (hr : ∀ t, P t → P { t with dev := .run }) (h : Holds P s) :
    Holds P (enterRun s) := by
  have k1 : Kept [.gorse] P := k.mono (by decide)
  have k2 : Kept [.host] P := k.mono (by decide)
  have k3 : Kept [.links] P := k.mono (by decide)
  have k4 : Kept [.mod] P := k.mono (by decide)
  have low : ∀ t, Holds P t → Holds P (setDev .run t) := fun t ht => kept_setDev (k.mono (by decide)) _ _ (hr _ ht) ht
  unfold enterRun
  dsimp only
  refine low _ ?_
  repeat' with_reducible first
    | exact h | assumption | apply kept_modGorse k1 | apply kept_modHost k2 | apply kept_modLink k3 | apply kept_dckOn k3
    | apply kept_modPair k4 | apply holds_if | apply holds_forEach | intro _

theorem kept_snap (kp : Kept [.gorse] P) (s : State) (hP : Holds P s) :
    Holds P (snap s) := by
  have k0 : Kept [.gorse] P := kp.mono (by decide)
  unfold snap
  repeat' with_reducible first
    | exact hP | assumption | apply kept_modGorse k0 | apply holds_if | intro _

theorem kept_record (kp : Kept [.regs, .events, .gorse, .time, .meas, .host, .power] P) (n layer action links pairs : Nat) (blank : Option
    (Nat × Nat)) (s0 : State) (hP : Holds P s0) :
    Holds P (record n layer action links pairs blank s0) := by
  have k0 : Kept [.gorse] P := kp.mono (by decide)
  have k1 : Kept [.regs, .events] P := kp.mono (by decide)
  have k2 : Kept [] P := kp.mono (by decide)
  have k3 : Kept [.regs, .events, .time, .host] P := kp.mono (by decide)
  have k4 : Kept [.host] P := kp.mono (by decide)
  have k5 : Kept [.power] P := kp.mono (by decide)
  have k6 : Kept [.meas] P := kp.mono (by decide)
  unfold record
  dsimp only
  repeat' with_reducible first
    | exact hP | assumption | apply kept_snap k0 | apply kept_cntSat k1 | apply kept_modGorse k0
    | apply kept_onlyIf k2 | apply kept_gorseStick k3 | apply kept_logEv k4 | apply kept_wake k5
    | apply kept_recTrigger k6 | apply kept_irq k3 | apply holds_if | apply holds_forEach | split | intro _

theorem kept_asyncSet (kp : Kept [.regs, .events, .mod, .time, .host] P) (n : Nat) (s : State) (hP : Holds P s) :
    Holds P (asyncSet n s) := by
  have k0 : Kept [.regs, .events, .time, .host] P := kp.mono (by decide)
  have k1 : Kept [.mod] P := kp.mono (by decide)
  unfold asyncSet
  repeat' with_reducible first
    | exact hP | assumption | apply kept_modStick k0 | exact fun _ => Nat.and_self _ | exact fun _ => Nat.zero_and _
    | exact fun _ => and_mask _ _ | apply kept_modMod k1

theorem kept_clearEnables (k : Kept [.groups, .mod] P) (s : State) (h : Holds P s) : Holds P (clearEnables s) := by
  unfold clearEnables
  apply holds_forEach
  · intro g s h
    exact holds_if (fun _ => h) (fun _ => kept_modGroup (k.mono (by decide)) _ _ _ h)
  · exact kept_modMod (k.mono (by decide)) _ _ (fun _ => Nat.zero_and _) h

theorem kept_applySafe (kp : Kept [.links, .mod] P) (s : State) (hP : Holds P s) :
    Holds P (applySafe s) := by
  have k0 : Kept [.mod] P := kp.mono (by decide)
  have k1 : Kept [.links] P := kp.mono (by decide)
  unfold applySafe
  dsimp only
  repeat' with_reducible first
    | exact hP | assumption | apply kept_dropPair k0 | apply kept_blockLink k1 | apply kept_modLink k1
    | apply holds_if | apply holds_forEach | intro _

theorem kept_safeRow (kp : Kept [.regs, .events, .links, .mod, .gorse, .time, .host] P) (n : Nat) (edge : Bool) (s : State) (hP : Holds P s) :
    Holds P (safeRow n edge s) := by
  have k0 : Kept [.mod] P := kp.mono (by decide)
  have k1 : Kept [.regs, .events, .mod, .time, .host] P := kp.mono (by decide)
  have k2 : Kept [.gorse] P := kp.mono (by decide)
  have k3 : Kept [.regs, .events, .mod] P := kp.mono (by decide)
  have k4 : Kept [.regs, .events, .links, .time, .host] P := kp.mono (by decide)
  have k5 : Kept [.links] P := kp.mono (by decide)
  unfold safeRow
  dsimp only
  repeat' with_reducible first
    | exact hP | assumption | exact fun _ => Nat.and_self _ | exact fun _ => Nat.zero_and _
    | exact fun _ => and_mask _ _ | apply kept_modMod k0 | apply kept_asyncSet k1 | apply kept_snap k2
    | apply kept_settleBlank k3 | apply kept_dckOff k4 | apply kept_startRun k5 | apply holds_if
    | apply holds_forEach | intro _

theorem kept_devIs (l : List Part) (d : DevState) : Kept l (fun s => s.dev = d) := by
  constructor <;> intros <;> assumption

theorem kept_tripEnter (k : KeptDev [.regs, .events, .dev, .groups, .links, .mod, .gorse, .time, .host] P) (n : Nat) (s : State) (h : Holds P s) : Holds P (tripEnter n s) := by
  unfold tripEnter
  dsimp only
  refine holds_if (fun hd => ?_) (fun _ => h)
  have low : ∀ Q : State → Prop, Kept [.regs, .events, .dev, .groups, .links, .mod, .gorse, .time, .host] Q → Holds Q s → Holds Q
      (modGorse ssClear (clearEnables (forEach [36, 37] blockWz (applySafe (asyncSet n (snap s)))))) := by
    intro Q k h
    repeat' with_reducible first
      | exact h | assumption | apply kept_modGorse (k.mono (by decide)) | apply kept_clearEnables (k.mono (by decide))
      | apply kept_blockWz (k.mono (by decide)) | apply kept_applySafe (k.mono (by decide))
      | apply kept_asyncSet (k.mono (by decide)) | apply kept_snap (k.mono (by decide))
      | apply holds_if | apply holds_forEach
  refine kept_settleBlank (k.toKept.mono (by decide)) _ (kept_setDev (k.toKept.mono (by decide)) _ _
    (k.trip (by decide) _ ?_ (low P k.toKept h)) (low P k.toKept h))
  have e := low (fun t => t.dev = s.dev) (kept_devIs _ _) rfl
  simp only [Holds] at e
  rw [e]
  exact hd

theorem kept_ssEnd (kp : Kept [.regs, .events, .groups, .links, .mod, .gorse, .time, .host] P) (s : State) (hP : Holds P s) :
    Holds P (ssEnd s) := by
  have k0 : Kept [.gorse] P := kp.mono (by decide)
  have k1 : Kept [.regs, .events, .mod] P := kp.mono (by decide)
  have k2 : Kept [.links, .mod] P := kp.mono (by decide)
  have k3 : Kept [.regs, .events, .mod, .time, .host] P := kp.mono (by decide)
  have k4 : Kept [.groups, .mod] P := kp.mono (by decide)
  unfold ssEnd
  dsimp only
  repeat' with_reducible first
    | exact hP | assumption | apply kept_modGorse k0 | apply kept_settleBlank k1 | apply kept_applySafe k2
    | apply kept_asyncSet k3 | apply kept_clearEnables k4

theorem kept_dropFresh (kp : Kept [.groups, .links, .mod] P) (s : State) (hP : Holds P s) :
    Holds P (dropFresh s) := by
  have k0 : Kept [.groups] P := kp.mono (by decide)
  have k1 : Kept [.mod] P := kp.mono (by decide)
  have k2 : Kept [.links] P := kp.mono (by decide)
  unfold dropFresh
  dsimp only
  repeat' with_reducible first
    | exact hP | assumption | apply kept_modGroup k0 | apply kept_modPair k1 | apply kept_modVCell k1
    | apply kept_modLink k2 | apply holds_if | apply holds_forEach | apply holds_foldl | split | intro _

theorem kept_enterSafeStop (k : KeptDev [.regs, .events, .dev, .groups, .links, .mod, .gorse, .time, .host] P) (s : State) (h : Holds P s) : Holds P (enterSafeStop s) := by
  unfold enterSafeStop
  dsimp only
  refine holds_if (fun hd => ?_) (fun _ => h)
  have h1 : Holds P (setDev .safeStop s) := kept_setDev (k.toKept.mono (by decide)) _ _ (k.stop (by decide) _ hd h) h
  repeat' with_reducible first
    | exact h1 | assumption | exact fun _ => Nat.and_self _ | apply kept_modGorse (k.toKept.mono (by decide))
    | apply kept_modMod (k.toKept.mono (by decide)) | apply kept_dropFresh (k.toKept.mono (by decide))
    | apply kept_ssEnd (k.toKept.mono (by decide)) | apply holds_if | intro _

theorem kept_blockAct (kp : Kept [.regs, .events, .links, .mod, .gorse] P) (links pairs : Nat) (s : State) (hP : Holds P s) :
    Holds P (blockAct links pairs s) := by
  have k0 : Kept [.links] P := kp.mono (by decide)
  have k1 : Kept [.mod] P := kp.mono (by decide)
  have k2 : Kept [.regs, .events, .mod] P := kp.mono (by decide)
  have k3 : Kept [.gorse] P := kp.mono (by decide)
  unfold blockAct
  dsimp only
  repeat' with_reducible first
    | exact hP | assumption | apply kept_blockLink k0 | apply kept_modLink k0 | apply kept_modPair k1
    | apply kept_settleBlank k2 | apply kept_modGorse k3 | apply holds_forEach | intro _

theorem kept_fabric (kp : KeptDev [.regs, .events, .dev, .groups, .links, .mod, .gorse, .time, .meas, .host, .power] P) (n : Nat)
    (bs : Bool) (va vb : Nat) (again : Bool) (blank : Option (Nat × Nat)) (s0 : State) (hP : Holds P s0) :
    Holds P (fabric n bs va vb again blank s0) := by
  have k0 : Kept [.gorse] P := kp.toKept.mono (by decide)
  have k1 : Kept [] P := kp.toKept.mono (by decide)
  have k2 : Kept [.regs, .events, .gorse, .time, .meas, .host, .power] P := kp.toKept.mono (by decide)
  have k3 : Kept [.regs, .events, .links, .mod, .gorse] P := kp.toKept.mono (by decide)
  have k4 : KeptDev [.regs, .events, .dev, .groups, .links, .mod, .gorse, .time, .host] P := kp.mono (by decide)
  unfold fabric
  dsimp only
  repeat' with_reducible first
    | exact hP | assumption | apply kept_snap k0 | apply kept_onlyIf k1 | apply kept_record k2
    | apply kept_modGorse k0 | apply kept_blockAct k3 | apply kept_tripEnter k4 | apply kept_enterSafeStop k4
    | apply holds_if | apply holds_foldl | intro _

theorem kept_xchk (kp : Kept [.regs, .events, .gorse, .time, .host] P) (n : Nat) (s : State) (hP : Holds P s) :
    Holds P (xchk n s) := by
  have k0 : Kept [.regs, .events, .time, .host] P := kp.mono (by decide)
  have k1 : Kept [.regs, .events] P := kp.mono (by decide)
  have k2 : Kept [.gorse] P := kp.mono (by decide)
  unfold xchk
  dsimp only
  repeat' with_reducible first
    | exact hP | assumption | apply kept_gorseStick k0 | apply kept_cntSat k1 | apply kept_modGorse k2
    | apply holds_if | split | intro _

theorem kept_bAssert (kp : KeptDev [.regs, .events, .dev, .groups, .links, .mod, .gorse, .time, .meas, .host, .power] P) (n : Nat)
    (blank : Option (Nat × Nat)) (s : State) (hP : Holds P s) :
    Holds P (bAssert n blank s) := by
  have k0 : Kept [.host] P := kp.toKept.mono (by decide)
  have k1 : KeptDev [.regs, .events, .dev, .groups, .links, .mod, .gorse, .time, .meas, .host, .power] P := kp.mono (by decide)
  have k2 : Kept [.regs, .events, .gorse, .time, .host] P := kp.toKept.mono (by decide)
  unfold bAssert
  repeat' with_reducible first
    | exact hP | assumption | apply kept_logEv k0 | apply kept_fabric k1 | apply kept_xchk k2 | apply holds_if
    | intro _

theorem kept_bRise (kp : KeptDev [.regs, .events, .dev, .groups, .links, .mod, .gorse, .time, .meas, .host, .power] P) (n : Nat)
    (s : State) (hP : Holds P s) :
    Holds P (bRise n s) := by
  have k0 : KeptDev [.regs, .events, .dev, .groups, .links, .mod, .gorse, .time, .meas, .host, .power] P := kp.mono (by decide)
  have k1 : Kept [.gorse] P := kp.toKept.mono (by decide)
  unfold bRise
  repeat' with_reducible first
    | exact hP | assumption | apply kept_bAssert k0 | apply kept_setLive k1

theorem kept_meterRecord (kp : Kept [.meter] P) (kind : Nat) (s : State) (hP : Holds P s) :
    Holds P (meterRecord kind s) := by
  have k0 : Kept [.meter] P := kp.mono (by decide)
  unfold meterRecord
  dsimp only
  repeat' with_reducible first
    | exact hP | assumption | apply kept_modMeter k0

theorem kept_endSwap (kp : Kept [.regs, .events, .damask, .time, .host] P) (st : OpState) (code detail : Nat) (s : State) (hP : Holds P s) :
    Holds P (endSwap st code detail s) := by
  have k0 : Kept [.regs, .events, .time, .host] P := kp.mono (by decide)
  have k1 : Kept [.damask] P := kp.mono (by decide)
  unfold endSwap
  repeat' with_reducible first
    | exact hP | assumption | apply kept_endSlot k0 | apply kept_modDamask k1 | split

theorem kept_failSwap (kp : Kept [.regs, .events, .damask, .time, .host] P) (code t : Nat) (s : State) (hP : Holds P s) :
    Holds P (failSwap code t s) := by
  have k0 : Kept [.regs, .events, .damask, .time, .host] P := kp.mono (by decide)
  unfold failSwap
  repeat' with_reducible first
    | exact hP | assumption | apply kept_endSwap k0

theorem kept_failSwapOf (kp : Kept [.regs, .events, .damask, .time, .host] P) (code t : Nat) (s : State) (hP : Holds P s) :
    Holds P (failSwapOf code t s) := by
  have k0 : Kept [.regs, .events, .damask, .time, .host] P := kp.mono (by decide)
  unfold failSwapOf
  repeat' with_reducible first
    | exact hP | assumption | apply kept_failSwap k0 | apply holds_if | split | intro _

theorem kept_undoLoad (kp : Kept [.regs, .events, .damask, .time, .host] P) (s : State) (hP : Holds P s) :
    Holds P (undoLoad s) := by
  have k0 : Kept [.regs, .events, .damask, .time, .host] P := kp.mono (by decide)
  have k1 : Kept [.damask] P := kp.mono (by decide)
  unfold undoLoad
  dsimp only
  repeat' with_reducible first
    | exact hP | assumption | apply kept_setTile k0 | apply kept_clearShadow k1 | apply kept_failSwapOf k0
    | apply kept_modDamask k1 | apply holds_if | apply holds_forEach | split | intro _

theorem kept_bootFail (kp : Kept [.damask] P) (code : Nat) (s : State) (hP : Holds P s) :
    Holds P (bootFail code s) := by
  have k0 : Kept [.damask] P := kp.mono (by decide)
  unfold bootFail
  repeat' with_reducible first
    | exact hP | assumption | apply kept_modDamask k0

theorem kept_failLoad (kp : Kept [.regs, .events, .damask, .time, .host] P) (code t : Nat) (s : State) (hP : Holds P s) :
    Holds P (failLoad code t s) := by
  have k0 : Kept [.regs, .events, .damask, .time, .host] P := kp.mono (by decide)
  have k1 : Kept [.regs, .events, .time, .host] P := kp.mono (by decide)
  have k2 : Kept [.damask] P := kp.mono (by decide)
  unfold failLoad
  dsimp only
  repeat' with_reducible first
    | exact hP | assumption | apply kept_undoLoad k0 | apply kept_failSlot k1 | apply kept_modDamask k2
    | apply kept_bootFail k2 | apply holds_if | split | intro _

theorem kept_partnerLost (kp : Kept [.regs, .events, .damask, .time, .host] P) (t : Nat) (s : State) (hP : Holds P s) :
    Holds P (partnerLost t s) := by
  have k0 : Kept [.regs, .events, .damask, .time, .host] P := kp.mono (by decide)
  have k1 : Kept [.damask] P := kp.mono (by decide)
  unfold partnerLost
  dsimp only
  repeat' with_reducible first
    | exact hP | assumption | apply kept_failLoad k0 | apply kept_failSwapOf k0 | apply kept_setTile k0
    | apply kept_clearShadow k1 | apply holds_if | split | intro _

theorem kept_withdraw (kp : KeptDev [.regs, .events, .dev, .groups, .damask, .links, .mod, .gorse, .time, .meas, .host, .power] P)
    (ch : Nat) (s : State) (hP : Holds P s) :
    Holds P (withdraw ch s) := by
  have k0 : Kept [.gorse] P := kp.toKept.mono (by decide)
  have k1 : Kept [.regs, .events, .damask, .time, .host] P := kp.toKept.mono (by decide)
  have k2 : Kept [.regs, .events, .time, .host] P := kp.toKept.mono (by decide)
  have k3 : KeptDev [.regs, .events, .dev, .groups, .links, .mod, .gorse, .time, .meas, .host, .power] P := kp.mono (by decide)
  unfold withdraw
  dsimp only
  repeat' with_reducible first
    | exact hP | assumption | apply kept_modGorse k0 | apply kept_scUpdate k0 | apply kept_partnerLost k1
    | apply kept_gorseStick k2 | apply kept_bRise k3 | apply holds_if | intro _

theorem kept_vote (kp : Kept [.gorse] P) (ch : Nat) (s : State) (hP : Holds P s) :
    Holds P (vote ch s) := by
  have k0 : Kept [.gorse] P := kp.mono (by decide)
  unfold vote
  repeat' with_reducible first
    | exact hP | assumption | apply kept_scUpdate k0 | apply kept_setLive k0 | apply kept_modGorse k0

theorem kept_linkFail (kp : Kept [.regs, .dirty, .links] P) (c : FailCode) (l : Nat) (s : State) (hP : Holds P s) :
    Holds P (linkFail c l s) := by
  have k0 : Kept [.links] P := kp.mono (by decide)
  unfold linkFail
  repeat' with_reducible first
    | exact hP | assumption | apply kept_modLink k0

theorem kept_tileFault
    (kp : KeptDev [.regs, .events, .dirty, .dev, .groups, .damask, .links, .mod, .gorse, .time, .meas, .meter, .host, .power] P) (t : Nat) (s : State) (hP : Holds P s) :
    Holds P (tileFault t s) := by
  have k0 : Kept [.damask] P := kp.toKept.mono (by decide)
  have k1 : Kept [.regs, .events, .damask, .time, .host] P := kp.toKept.mono (by decide)
  have k2 : Kept [.regs, .dirty, .links] P := kp.toKept.mono (by decide)
  have k3 : Kept [.links] P := kp.toKept.mono (by decide)
  have k4 : Kept [.regs, .events, .mod, .time, .host] P := kp.toKept.mono (by decide)
  have k5 : Kept [.mod] P := kp.toKept.mono (by decide)
  have k6 : Kept [.regs, .events, .mod] P := kp.toKept.mono (by decide)
  have k7 : KeptDev [.regs, .events, .dev, .groups, .links, .mod, .gorse, .time, .meas, .host, .power] P := kp.mono (by decide)
  have k8 : KeptDev [.regs, .events, .dev, .groups, .damask, .links, .mod, .gorse, .time, .meas, .host, .power] P := kp.mono (by decide)
  have k9 : Kept [.meter] P := kp.toKept.mono (by decide)
  have k10 : Kept [.regs, .events, .time, .host] P := kp.toKept.mono (by decide)
  unfold tileFault
  dsimp only
  repeat' with_reducible first
    | exact hP | assumption | apply kept_modTile k0 | apply kept_failSwapOf k1 | apply kept_clearShadow k0
    | apply kept_setTile k1 | apply kept_linkFail k2 | apply kept_startRun k3 | apply kept_modLink k3
    | apply kept_asyncSet k4 | exact fun _ => Nat.and_self _ | exact fun _ => Nat.zero_and _
    | exact fun _ => and_mask _ _ | apply kept_modMod k5 | apply kept_settleBlank k6 | apply kept_blockLink k3
    | apply kept_bAssert k7 | apply kept_withdraw k8 | apply kept_modMeter k9 | apply kept_meterStick k10
    | apply kept_meterRecord k9 | apply holds_if | apply holds_forEach | split | intro _

theorem kept_cfgMark (kp : Kept [.meas] P) (before s : State) (hP : Holds P s) :
    Holds P (cfgMark before s) := by
  have k0 : Kept [.meas] P := kp.mono (by decide)
  unfold cfgMark
  repeat' with_reducible first
    | exact hP | assumption | apply kept_modMeas k0

theorem kept_stage (kp : Kept [.regs, .dirty] P) (a : Nat) (v : Word) (s : State) (hP : Holds P s) :
    Holds P (stage a v s) := by
  have k0 : Kept [.regs] P := kp.mono (by decide)
  have k1 : Kept [.dirty] P := kp.mono (by decide)
  unfold stage
  dsimp only
  repeat' with_reducible first
    | exact hP | assumption | apply kept_wr k0 | apply kept_dirtySet k1

theorem kept_noteClamp (kp : Kept [.regs, .events, .time, .host] P) (svc : Bool) (a : Nat) (s : State) (hP : Holds P s) :
    Holds P (noteClamp svc a s) := by
  have k0 : Kept [.regs] P := kp.mono (by decide)
  have k1 : Kept [.regs, .events] P := kp.mono (by decide)
  have k2 : Kept [.regs, .events, .time, .host] P := kp.mono (by decide)
  unfold noteClamp
  dsimp only
  repeat' with_reducible first
    | exact hP | assumption | apply kept_wr k0 | apply kept_cntSat k1 | apply kept_irq k2 | apply kept_globalStick k2

theorem kept_hostRestart (kp : Kept [.gorse, .host] P) (s : State) (hP : Holds P s) :
    Holds P (hostRestart s) := by
  have k0 : Kept [.gorse] P := kp.mono (by decide)
  have k1 : Kept [.host] P := kp.mono (by decide)
  unfold hostRestart
  repeat' with_reducible first
    | exact hP | assumption | apply kept_setLive k0 | apply kept_modHost k1

theorem kept_svcRestart (kp : Kept [.gorse, .host] P) (s : State) (hP : Holds P s) :
    Holds P (svcRestart s) := by
  have k0 : Kept [.gorse] P := kp.mono (by decide)
  have k1 : Kept [.host] P := kp.mono (by decide)
  unfold svcRestart
  repeat' with_reducible first
    | exact hP | assumption | apply kept_setLive k0 | apply kept_modHost k1

theorem kept_hostAccess (kp : Kept [.gorse, .host] P) (s : State) (hP : Holds P s) :
    Holds P (hostAccess s) := by
  have k0 : Kept [.gorse, .host] P := kp.mono (by decide)
  unfold hostAccess
  repeat' with_reducible first
    | exact hP | assumption | apply kept_hostRestart k0 | apply holds_if | intro _

theorem kept_svcAccess (kp : Kept [.gorse, .host] P) (s : State) (hP : Holds P s) :
    Holds P (svcAccess s) := by
  have k0 : Kept [.gorse, .host] P := kp.mono (by decide)
  unfold svcAccess
  repeat' with_reducible first
    | exact hP | assumption | apply kept_svcRestart k0 | apply holds_if | intro _

theorem kept_svcDone (kp : Kept [.host] P) (s : State) (hP : Holds P s) :
    Holds P (svcDone s) := by
  have k0 : Kept [.host] P := kp.mono (by decide)
  unfold svcDone
  repeat' with_reducible first
    | exact hP | assumption | apply kept_modHost k0

theorem kept_svcCommand (kp : Kept [.gorse, .host] P) (f : State → State) (s : State) (hf : ∀ u, Holds P u → Holds P (f u)) (hP : Holds P s) :
    Holds P (svcCommand f s) := by
  have k0 : Kept [.host] P := kp.mono (by decide)
  have k1 : Kept [.gorse, .host] P := kp.mono (by decide)
  unfold svcCommand
  repeat' with_reducible first
    | exact hP | assumption | apply kept_svcDone k0 | apply kept_svcAccess k1 | intro _ | apply hf

theorem kept_clampSeen (kp : Kept [.regs, .events, .time, .host] P) (a : Nat) (v : Word) (s : State) (hP : Holds P s) :
    Holds P (clampSeen a v s) := by
  have k0 : Kept [.regs, .events, .time, .host] P := kp.mono (by decide)
  unfold clampSeen
  repeat' with_reducible first
    | exact hP | assumption | apply kept_noteClamp k0 | apply holds_if | intro _

end Sys2Proof.Laws
end

