-- ==== Sys2Proof/Laws/KeptUnits.lean ====
section
/-! SUPPORT. What the operations of the units behind the commands keep (clocks, links, modulation, control, converters,
metering, time): one lemma per operation, over the elementary updates of Laws/Kept.lean. -/

namespace Sys2Proof.Laws

open Sys2Proof Sys2Proof.Machine

variable {P : State → Prop}

theorem kept_histAccept (kp : Kept [.regs, .events, .time, .host, .therm] P) (e : Nat) (v : Int) (s : State) (hP : Holds P s) :
    Holds P (histAccept e v s) := by
  have k0 : Kept [.therm] P := kp.mono (by decide)
  have k1 : Kept [.regs, .events, .time, .host] P := kp.mono (by decide)
  unfold histAccept
  dsimp only
  repeat' with_reducible first
    | exact hP | assumption | apply kept_modHist k0 | apply kept_monStick k1 | apply holds_if | intro _

theorem kept_histFeed (kp : Kept [.regs, .events, .time, .host, .therm] P) (src idx : Nat) (v : Int) (s : State) (hP : Holds P s) :
    Holds P (histFeed src idx v s) := by
  have k0 : Kept [.regs, .events, .time, .host, .therm] P := kp.mono (by decide)
  unfold histFeed
  dsimp only
  repeat' with_reducible first
    | exact hP | assumption | apply kept_histAccept k0 | apply holds_if | apply holds_forEach | intro _

theorem kept_counterAdvance (kp : Kept [.time] P) (s : State) (hP : Holds P s) :
    Holds P (counterAdvance s) := by
  have k0 : Kept [.time] P := kp.mono (by decide)
  unfold counterAdvance
  dsimp only
  repeat' with_reducible first
    | exact hP | assumption | apply kept_modTime k0

theorem kept_stepTo (kp : Kept [.regs, .events, .time, .host] P) (v : Nat) (s : State) (hP : Holds P s) :
    Holds P (stepTo v s) := by
  have k0 : Kept [.regs, .events, .time, .host] P := kp.mono (by decide)
  have k1 : Kept [.time] P := kp.mono (by decide)
  unfold stepTo
  dsimp only
  repeat' with_reducible first
    | exact hP | assumption | apply kept_timeStick k0 | apply kept_modTime k1

theorem kept_counterStep (kp : Kept [.regs, .events, .time, .host] P) (d : Int) (s : State) (hP : Holds P s) :
    Holds P (counterStep d s) := by
  have k0 : Kept [.regs, .events, .time, .host] P := kp.mono (by decide)
  unfold counterStep
  repeat' with_reducible first
    | exact hP | assumption | apply kept_stepTo k0

theorem kept_doTimeAdj (kp : Kept [.regs, .events, .time, .host] P) (v : Word) (s : State) (hP : Holds P s) :
    Holds P (doTimeAdj v s) := by
  have k0 : Kept [.regs, .events, .time, .host] P := kp.mono (by decide)
  unfold doTimeAdj
  repeat' with_reducible first
    | exact hP | assumption | apply kept_counterStep k0 | apply kept_clampSeen k0

theorem kept_doTimeSet (kp : Kept [.regs, .events, .time, .host] P) (v : Word) (s : State) (hP : Holds P s) :
    Holds P (doTimeSet v s) := by
  have k0 : Kept [.regs] P := kp.mono (by decide)
  have k1 : Kept [.time] P := kp.mono (by decide)
  have k2 : Kept [.regs, .events, .time, .host] P := kp.mono (by decide)
  unfold doTimeSet
  dsimp only
  repeat' with_reducible first
    | exact hP | assumption | apply kept_wr k0 | apply kept_modTime k1 | apply kept_stepTo k2

theorem kept_setServo (kp : Kept [.regs, .events, .time, .host] P) (x : ServoState) (s : State) (hP : Holds P s) :
    Holds P (setServo x s) := by
  have k0 : Kept [.regs, .events, .time, .host] P := kp.mono (by decide)
  have k1 : Kept [.time] P := kp.mono (by decide)
  unfold setServo
  repeat' with_reducible first
    | exact hP | assumption | apply kept_irq k0 | apply kept_modTime k1 | apply holds_if | intro _

theorem kept_doAddendWrite (kp : Kept [.regs, .events, .time, .host] P) (fine : Bool) (v : Word) (s : State) (hP : Holds P s) :
    Holds P (doAddendWrite fine v s) := by
  have k0 : Kept [.regs, .events, .time, .host] P := kp.mono (by decide)
  have k1 : Kept [.regs] P := kp.mono (by decide)
  unfold doAddendWrite
  repeat' with_reducible first
    | exact hP | assumption | apply kept_timeStick k0 | apply kept_wr k1 | apply kept_clampSeen k0 | apply holds_if
    | intro _

theorem kept_setAddend (kp : Kept [.regs] P) (v : Nat) (s : State) (hP : Holds P s) :
    Holds P (setAddend v s) := by
  have k0 : Kept [.regs] P := kp.mono (by decide)
  unfold setAddend
  repeat' with_reducible first
    | exact hP | assumption | apply kept_wr k0

theorem kept_servoLaw (kp : Kept [.regs, .time] P) (off : Int) (s : State) (hP : Holds P s) :
    Holds P (servoLaw off s) := by
  have k0 : Kept [.regs] P := kp.mono (by decide)
  have k1 : Kept [.time] P := kp.mono (by decide)
  unfold servoLaw
  dsimp only
  repeat' with_reducible first
    | exact hP | assumption | apply kept_setAddend k0 | apply kept_modTime k1

theorem kept_servoNext (kp : Kept [.regs, .events, .time, .host] P) (off : Int) (s : State) (hP : Holds P s) :
    Holds P (servoNext off s) := by
  have k0 : Kept [.regs, .events, .time, .host] P := kp.mono (by decide)
  have k1 : Kept [.time] P := kp.mono (by decide)
  unfold servoNext
  dsimp only
  repeat' with_reducible first
    | exact hP | assumption | apply kept_setServo k0 | apply kept_modTime k1 | apply holds_if | split | intro _

theorem kept_servoLock (kp : Kept [.regs, .events, .time, .host] P) (off : Int) (s : State) (hP : Holds P s) :
    Holds P (servoLock off s) := by
  have k0 : Kept [.regs, .events, .time, .host] P := kp.mono (by decide)
  have k1 : Kept [.time] P := kp.mono (by decide)
  unfold servoLock
  dsimp only
  repeat' with_reducible first
    | exact hP | assumption | apply kept_setServo k0 | apply kept_modTime k1 | apply holds_if | intro _

theorem kept_servoFeed (kp : Kept [.regs, .events, .time, .host, .therm] P) (off path : Int) (s : State) (hP : Holds P s) :
    Holds P (servoFeed off path s) := by
  have k0 : Kept [.regs, .events, .time, .host, .therm] P := kp.mono (by decide)
  have k1 : Kept [.regs] P := kp.mono (by decide)
  have k2 : Kept [.time] P := kp.mono (by decide)
  have k3 : Kept [.regs, .events, .time, .host] P := kp.mono (by decide)
  have k4 : Kept [.regs, .time] P := kp.mono (by decide)
  unfold servoFeed
  dsimp only
  repeat' with_reducible first
    | exact hP | assumption | apply kept_histFeed k0 | apply kept_wr k1 | apply kept_modTime k2
    | apply kept_servoNext k3 | apply kept_servoLock k3 | apply kept_counterStep k3 | apply kept_servoLaw k4
    | apply holds_if | intro _

theorem kept_doHoldoverEntry (kp : Kept [.regs, .events, .time, .host, .therm] P) (s : State) (hP : Holds P s) :
    Holds P (doHoldoverEntry s) := by
  have k0 : Kept [.regs, .events, .time, .host] P := kp.mono (by decide)
  have k1 : Kept [.regs] P := kp.mono (by decide)
  have k2 : Kept [.therm] P := kp.mono (by decide)
  have k3 : Kept [.time] P := kp.mono (by decide)
  unfold doHoldoverEntry
  dsimp only
  repeat' with_reducible first
    | exact hP | assumption | apply kept_timeStick k0 | apply kept_setServo k0 | apply kept_setAddend k1
    | apply kept_modTherm k2 | apply kept_modTime k3 | apply holds_if | apply holds_foldl | intro _

theorem kept_doHoldoverCorrection (kp : Kept [.regs, .events, .time, .host, .therm] P) (s : State) (hP : Holds P s) :
    Holds P (doHoldoverCorrection s) := by
  have k0 : Kept [.time] P := kp.mono (by decide)
  have k1 : Kept [.regs, .events, .time, .host] P := kp.mono (by decide)
  have k2 : Kept [.regs] P := kp.mono (by decide)
  have k3 : Kept [.therm] P := kp.mono (by decide)
  unfold doHoldoverCorrection
  dsimp only
  repeat' with_reducible first
    | exact hP | assumption | apply kept_modTime k0 | apply kept_thermStick k1 | apply kept_setAddend k2
    | apply kept_modTherm k3 | apply holds_if | split | intro _

theorem kept_doTimeCtrlWrite (kp : Kept [.regs, .events, .time, .host] P) (v : Word) (s : State) (hP : Holds P s) :
    Holds P (doTimeCtrlWrite v s) := by
  have k0 : Kept [.regs] P := kp.mono (by decide)
  have k1 : Kept [.regs, .events, .time, .host] P := kp.mono (by decide)
  unfold doTimeCtrlWrite
  dsimp only
  repeat' with_reducible first
    | exact hP | assumption | apply kept_wr k0 | apply kept_setServo k1 | apply holds_if | intro _

theorem kept_refBack (kp : Kept [.regs, .events, .clock, .time, .host] P) (s : State) (hP : Holds P s) :
    Holds P (refBack s) := by
  have k0 : Kept [.clock] P := kp.mono (by decide)
  have k1 : Kept [.regs] P := kp.mono (by decide)
  have k2 : Kept [.regs, .events, .time, .host] P := kp.mono (by decide)
  unfold refBack
  dsimp only
  repeat' with_reducible first
    | exact hP | assumption | apply kept_modClock k0 | apply kept_setClk k1 | apply kept_setServo k2 | apply holds_if
    | intro _

theorem kept_doReferenceReturn (kp : Kept [.regs, .events, .clock, .time, .host] P) (s : State) (hP : Holds P s) :
    Holds P (doReferenceReturn s) := by
  have k0 : Kept [.regs, .events, .clock, .time, .host] P := kp.mono (by decide)
  unfold doReferenceReturn
  repeat' with_reducible first
    | exact hP | assumption | apply kept_refBack k0 | apply holds_if | intro _

theorem kept_doPpsOutRise (kp : Kept [.time] P) (s : State) (hP : Holds P s) :
    Holds P (doPpsOutRise s) := by
  have k0 : Kept [.time] P := kp.mono (by decide)
  unfold doPpsOutRise
  repeat' with_reducible first
    | exact hP | assumption | apply kept_modTime k0 | apply holds_if | intro _

theorem kept_doPpsOutFall (kp : Kept [.time] P) (s : State) (hP : Holds P s) :
    Holds P (doPpsOutFall s) := by
  have k0 : Kept [.time] P := kp.mono (by decide)
  unfold doPpsOutFall
  repeat' with_reducible first
    | exact hP | assumption | apply kept_modTime k0 | apply holds_if | intro _

theorem kept_doPpsInEdge (kp : Kept [.regs, .events, .time, .host, .therm] P) (s : State) (hP : Holds P s) :
    Holds P (doPpsInEdge s) := by
  have k0 : Kept [.regs, .events, .time, .host] P := kp.mono (by decide)
  have k1 : Kept [.regs, .events] P := kp.mono (by decide)
  have k2 : Kept [.regs] P := kp.mono (by decide)
  have k3 : Kept [.time] P := kp.mono (by decide)
  have k4 : Kept [.regs, .events, .time, .host, .therm] P := kp.mono (by decide)
  unfold doPpsInEdge
  dsimp only
  repeat' with_reducible first
    | exact hP | assumption | apply kept_irq k0 | apply kept_landNew k1 | apply kept_wr k2 | apply kept_modTime k3
    | apply kept_servoFeed k4 | apply holds_if | intro _

theorem kept_doPpsInMissing (kp : Kept [.regs, .events, .time, .host] P) (s : State) (hP : Holds P s) :
    Holds P (doPpsInMissing s) := by
  have k0 : Kept [.regs, .events, .time, .host] P := kp.mono (by decide)
  unfold doPpsInMissing
  repeat' with_reducible first
    | exact hP | assumption | apply kept_timeStick k0 | apply holds_if | intro _

theorem kept_doServoMeasurement (kp : Kept [.regs, .events, .time, .host, .therm] P) (x : PtpExchange) (s : State) (hP : Holds P s) :
    Holds P (doServoMeasurement x s) := by
  have k0 : Kept [.regs, .events, .time, .host, .therm] P := kp.mono (by decide)
  have k1 : Kept [.time] P := kp.mono (by decide)
  unfold doServoMeasurement
  repeat' with_reducible first
    | exact hP | assumption | apply kept_servoFeed k0 | apply kept_modTime k1 | apply holds_if | intro _

theorem kept_meterFlag (kp : Kept [.meter] P) (n fl : Nat) (s : State) (hP : Holds P s) :
    Holds P (meterFlag n fl s) := by
  have k0 : Kept [.meter] P := kp.mono (by decide)
  unfold meterFlag
  repeat' with_reducible first
    | exact hP | assumption | apply kept_modMeter k0 | apply holds_if | intro _

theorem kept_bookOne (kp : Kept [.meter] P) (q inc : Nat) (s : State) (hP : Holds P s) :
    Holds P (bookOne q inc s) := by
  have k0 : Kept [.meter] P := kp.mono (by decide)
  unfold bookOne
  dsimp only
  repeat' with_reducible first
    | exact hP | assumption | apply kept_modMeter k0

theorem kept_meterLatch (kp : Kept [.regs, .events, .time, .meter, .host] P) (s : State) (hP : Holds P s) :
    Holds P (meterLatch s) := by
  have k0 : Kept [.regs, .events, .time, .host] P := kp.mono (by decide)
  have k1 : Kept [.meter] P := kp.mono (by decide)
  unfold meterLatch
  repeat' with_reducible first
    | exact hP | assumption | apply kept_irq k0 | apply kept_modMeter k1

theorem kept_pulseStep (kp : Kept [.regs, .events, .time, .meter, .host] P) (k : Nat) (s : State) (hP : Holds P s) :
    Holds P (pulseStep k s) := by
  have k0 : Kept [.meter] P := kp.mono (by decide)
  have k1 : Kept [.regs, .events, .time, .host] P := kp.mono (by decide)
  unfold pulseStep
  dsimp only
  repeat' with_reducible first
    | exact hP | assumption | apply kept_modMeter k0 | apply kept_meterStick k1 | apply holds_if | split | intro _

theorem kept_doLineCycleEnd (kp : Kept [.regs, .events, .time, .meter, .host] P) (samples : List MeterSample) (durPs freqMhz : Nat)
    (s : State) (hP : Holds P s) :
    Holds P (doLineCycleEnd samples durPs freqMhz s) := by
  have k0 : Kept [.meter] P := kp.mono (by decide)
  have k1 : Kept [.regs, .events, .time, .meter, .host] P := kp.mono (by decide)
  unfold doLineCycleEnd
  dsimp only
  repeat' with_reducible first
    | exact hP | assumption | apply kept_bookOne k0 | apply kept_pulseStep k1 | apply kept_modMeter k0
    | apply kept_meterLatch k1 | apply holds_if | apply holds_forEach | apply holds_foldl | intro _

theorem kept_meterCfgApply (kp : Kept [.regs, .events, .force, .time, .meter, .host] P) (v : Word) (s : State) (hP : Holds P s) :
    Holds P (meterCfgApply v s) := by
  have k0 : Kept [.force] P := kp.mono (by decide)
  have k1 : Kept [.regs, .events, .time, .meter, .host] P := kp.mono (by decide)
  unfold meterCfgApply
  dsimp only
  repeat' with_reducible first
    | exact hP | assumption | apply kept_setFo k0 | apply kept_meterLatch k1 | apply holds_if | intro _

theorem kept_doPulseEnd (kp : Kept [.meter] P) (k : Nat) (s : State) (hP : Holds P s) :
    Holds P (doPulseEnd k s) := by
  have k0 : Kept [.meter] P := kp.mono (by decide)
  unfold doPulseEnd
  repeat' with_reducible first
    | exact hP | assumption | apply kept_modMeter k0 | apply holds_if | intro _

theorem kept_doPeriodicRecord (kp : Kept [.meter] P) (s : State) (hP : Holds P s) :
    Holds P (doPeriodicRecord s) := by
  have k0 : Kept [.meter] P := kp.mono (by decide)
  unfold doPeriodicRecord
  repeat' with_reducible first
    | exact hP | assumption | apply kept_modMeter k0 | apply kept_meterRecord k0 | apply holds_if | intro _

theorem kept_doNoLine (kp : Kept [.meter] P) (present : Bool) (s : State) (hP : Holds P s) :
    Holds P (doNoLine present s) := by
  have k0 : Kept [.meter] P := kp.mono (by decide)
  unfold doNoLine
  repeat' with_reducible first
    | exact hP | assumption | apply kept_modMeter k0

theorem kept_abandonRecord (kp : Kept [.meter] P) (s : State) (hP : Holds P s) :
    Holds P (abandonRecord s) := by
  have k0 : Kept [.meter] P := kp.mono (by decide)
  unfold abandonRecord
  repeat' with_reducible first
    | exact hP | assumption | apply kept_modMeter k0 | apply holds_if | intro _

theorem kept_meterFinal (kp : Kept [.meter] P) (s : State) (hP : Holds P s) :
    Holds P (meterFinal s) := by
  have k0 : Kept [.meter] P := kp.mono (by decide)
  unfold meterFinal
  repeat' with_reducible first
    | exact hP | assumption | apply kept_meterRecord k0 | apply kept_abandonRecord k0 | apply holds_if | intro _

theorem kept_doPfwNFall (kp : Kept [.meter, .power] P) (s : State) (hP : Holds P s) :
    Holds P (doPfwNFall s) := by
  have k0 : Kept [.power] P := kp.mono (by decide)
  have k1 : Kept [.meter] P := kp.mono (by decide)
  unfold doPfwNFall
  repeat' with_reducible first
    | exact hP | assumption | apply kept_wake k0 | apply kept_meterFinal k1 | apply kept_modMeter k1

theorem kept_doFinalRepeat (kp : Kept [.meter] P) (s : State) (hP : Holds P s) :
    Holds P (doFinalRepeat s) := by
  have k0 : Kept [.meter] P := kp.mono (by decide)
  unfold doFinalRepeat
  repeat' with_reducible first
    | exact hP | assumption | apply kept_meterFinal k0 | apply holds_if | intro _

theorem kept_doPfwNRise (kp : Kept [.meter] P) (s : State) (hP : Holds P s) :
    Holds P (doPfwNRise s) := by
  have k0 : Kept [.meter] P := kp.mono (by decide)
  unfold doPfwNRise
  repeat' with_reducible first
    | exact hP | assumption | apply kept_modMeter k0

theorem kept_doEnergyClear (kp : Kept [.regs, .events, .time, .meter, .host] P) (v : Word) (s : State) (hP : Holds P s) :
    Holds P (doEnergyClear v s) := by
  have k0 : Kept [.regs, .events, .time, .host] P := kp.mono (by decide)
  have k1 : Kept [.meter] P := kp.mono (by decide)
  unfold doEnergyClear
  repeat' with_reducible first
    | exact hP | assumption | apply kept_meterStick k0 | apply kept_meterRecord k1 | apply kept_modMeter k1
    | apply holds_if | intro _

theorem kept_brWrReg (kp : Kept [.bracken] P) (o : Nat) (v : Word) (s : State) (hP : Holds P s) :
    Holds P (brWrReg o v s) := by
  have k0 : Kept [.bracken] P := kp.mono (by decide)
  unfold brWrReg
  repeat' with_reducible first
    | exact hP | assumption | apply kept_modBr k0

theorem kept_brRecord (kp : Kept [.regs, .events, .time, .bracken, .host] P) (ws : List Word) (s : State) (hP : Holds P s) :
    Holds P (brRecord ws s) := by
  have k0 : Kept [.regs, .events, .time, .bracken, .host] P := kp.mono (by decide)
  have k1 : Kept [.bracken] P := kp.mono (by decide)
  unfold brRecord
  dsimp only
  repeat' with_reducible first
    | exact hP | assumption | apply kept_brStick k0 | apply kept_modBr k1 | apply holds_if | intro _

theorem kept_brTotals (kp : Kept [.bracken] P) (s : State) (hP : Holds P s) :
    Holds P (brTotals s) := by
  have k0 : Kept [.bracken] P := kp.mono (by decide)
  unfold brTotals
  dsimp only
  repeat' with_reducible first
    | exact hP | assumption | apply kept_modBr k0

theorem kept_brClose (kp : Kept [.regs, .events, .time, .bracken, .host] P) (s : State) (hP : Holds P s) :
    Holds P (brClose s) := by
  have k0 : Kept [.regs, .events, .time, .bracken, .host] P := kp.mono (by decide)
  have k1 : Kept [.bracken] P := kp.mono (by decide)
  unfold brClose
  dsimp only
  repeat' with_reducible first
    | exact hP | assumption | apply kept_brRecord k0 | apply kept_brStick k0 | apply kept_brTotals k1
    | apply kept_modBr k1 | apply holds_if | intro _

theorem kept_brAdd (kp : Kept [.bracken] P) (rms : List Nat) (s : State) (hP : Holds P s) :
    Holds P (brAdd rms s) := by
  have k0 : Kept [.bracken] P := kp.mono (by decide)
  unfold brAdd
  dsimp only
  repeat' with_reducible first
    | exact hP | assumption | apply kept_modBr k0

theorem kept_doBrackenSecond (kp : Kept [.regs, .events, .time, .bracken, .host] P) (c0 c1 c2 : List (BitVec 24)) (s : State) (hP : Holds P s) :
    Holds P (doBrackenSecond c0 c1 c2 s) := by
  have k0 : Kept [.bracken] P := kp.mono (by decide)
  have k1 : Kept [.regs, .events, .time, .bracken, .host] P := kp.mono (by decide)
  unfold doBrackenSecond
  dsimp only
  repeat' with_reducible first
    | exact hP | assumption | apply kept_modBr k0 | apply kept_brAdd k0 | apply kept_brClose k1
    | apply kept_brTotals k0 | apply holds_if | intro _

theorem kept_doAlignmentRecord (kp : Kept [.regs, .events, .time, .bracken, .host] P) (s : State) (hP : Holds P s) :
    Holds P (doAlignmentRecord s) := by
  have k0 : Kept [.regs, .events, .time, .host] P := kp.mono (by decide)
  have k1 : Kept [.bracken] P := kp.mono (by decide)
  have k2 : Kept [.regs, .events, .time, .bracken, .host] P := kp.mono (by decide)
  unfold doAlignmentRecord
  dsimp only
  repeat' with_reducible first
    | exact hP | assumption | apply kept_irq k0 | apply kept_modBr k1 | apply kept_brRecord k2 | apply holds_if
    | intro _

theorem kept_doBrClear (kp : Kept [.bracken] P) (v : Word) (s : State) (hP : Holds P s) :
    Holds P (doBrClear v s) := by
  have k0 : Kept [.bracken] P := kp.mono (by decide)
  unfold doBrClear
  repeat' with_reducible first
    | exact hP | assumption | apply kept_brTotals k0 | apply kept_modBr k0 | apply holds_if | intro _

theorem kept_brRestore (kp : Kept [.bracken] P) (s : State) (hP : Holds P s) :
    Holds P (brRestore s) := by
  have k0 : Kept [.bracken] P := kp.mono (by decide)
  unfold brRestore
  dsimp only
  repeat' with_reducible first
    | exact hP | assumption | apply kept_modBr k0

theorem kept_doVbatRestart (kp : Kept [.regs, .events, .time, .bracken, .host] P) (s : State) (hP : Holds P s) :
    Holds P (doVbatRestart s) := by
  have k0 : Kept [.regs, .events, .time, .bracken, .host] P := kp.mono (by decide)
  have k1 : Kept [.bracken] P := kp.mono (by decide)
  unfold doVbatRestart
  dsimp only
  repeat' with_reducible first
    | exact hP | assumption | apply kept_brStick k0 | apply kept_brRestore k1 | apply kept_brRecord k0
    | apply kept_modBr k1 | apply holds_if | intro _

theorem kept_doVbatLoss (kp : Kept [.bracken] P) (s : State) (hP : Holds P s) :
    Holds P (doVbatLoss s) := by
  have k0 : Kept [.bracken] P := kp.mono (by decide)
  unfold doVbatLoss
  repeat' with_reducible first
    | exact hP | assumption | apply kept_modBr k0 | apply holds_if | intro _

theorem kept_doBrackenCrystalStop (kp : Kept [.regs, .events, .time, .bracken, .host] P) (s : State) (hP : Holds P s) :
    Holds P (doBrackenCrystalStop s) := by
  have k0 : Kept [.regs, .events, .time, .bracken, .host] P := kp.mono (by decide)
  have k1 : Kept [.bracken] P := kp.mono (by decide)
  unfold doBrackenCrystalStop
  repeat' with_reducible first
    | exact hP | assumption | apply kept_brStick k0 | apply kept_modBr k1 | apply holds_if | intro _

theorem kept_modCell (kp : Kept [.links] P) (l : Nat) (f : CellEnd → CellEnd) (s : State) (hP : Holds P s) :
    Holds P (modCell l f s) := by
  have k0 : Kept [.links] P := kp.mono (by decide)
  unfold modCell
  repeat' with_reducible first
    | exact hP | assumption | apply kept_modLink k0

theorem kept_hear (kp : Kept [.links] P) (l : Nat) (m : Msg) (s : State) (hP : Holds P s) :
    Holds P (hear l m s) := by
  have k0 : Kept [.links] P := kp.mono (by decide)
  unfold hear
  repeat' with_reducible first
    | exact hP | assumption | apply kept_modCell k0 | apply holds_if | intro _

theorem kept_doEdge (kp : Kept [.links] P) (l ptag sw : Nat) (start half : Bool) (coarse fine : List Nat) (s : State) (hP : Holds P s) :
    Holds P (doEdge l ptag sw start half coarse fine s) := by
  have k0 : Kept [.links] P := kp.mono (by decide)
  unfold doEdge
  repeat' with_reducible first
    | exact hP | assumption | apply kept_modCell k0 | apply kept_hear k0 | apply holds_if | intro _

theorem kept_doBoundary (kp : Kept [.links] P) (l ptag swMask offset ofine mid mfine : Nat) (s : State) (hP : Holds P s) :
    Holds P (doBoundary l ptag swMask offset ofine mid mfine s) := by
  have k0 : Kept [.links] P := kp.mono (by decide)
  unfold doBoundary
  dsimp only
  repeat' with_reducible first
    | exact hP | assumption | apply kept_hear k0 | apply kept_modCell k0 | apply holds_if | intro _

theorem kept_doSample (kp : Kept [.links] P) (l ptag offset : Nat) (s : State) (hP : Holds P s) :
    Holds P (doSample l ptag offset s) := by
  have k0 : Kept [.links] P := kp.mono (by decide)
  unfold doSample
  repeat' with_reducible first
    | exact hP | assumption | apply kept_hear k0

theorem kept_doSupply (kp : Kept [.links] P) (l ptag : Nat) (boot : Bool) (s : State) (hP : Holds P s) :
    Holds P (doSupply l ptag boot s) := by
  have k0 : Kept [.links] P := kp.mono (by decide)
  unfold doSupply
  repeat' with_reducible first
    | exact hP | assumption | apply kept_hear k0

theorem kept_doDiag (kp : Kept [.links] P) (l op tag result : Nat) (causeGone : Bool) (s : State) (hP : Holds P s) :
    Holds P (doDiag l op tag result causeGone s) := by
  have k0 : Kept [.links] P := kp.mono (by decide)
  unfold doDiag
  dsimp only
  repeat' with_reducible first
    | exact hP | assumption | apply kept_modCell k0 | apply holds_if | intro _

theorem kept_doCellBlock (kp : Kept [.links] P) (l : Nat) (dckLoss : Bool) (s : State) (hP : Holds P s) :
    Holds P (doCellBlock l dckLoss s) := by
  have k0 : Kept [.links] P := kp.mono (by decide)
  unfold doCellBlock
  repeat' with_reducible first
    | exact hP | assumption | apply kept_modCell k0

theorem kept_doCellFaultLatch (kp : Kept [.links] P) (l faults dsat : Nat) (s : State) (hP : Holds P s) :
    Holds P (doCellFaultLatch l faults dsat s) := by
  have k0 : Kept [.links] P := kp.mono (by decide)
  unfold doCellFaultLatch
  repeat' with_reducible first
    | exact hP | assumption | apply kept_modCell k0

theorem kept_doIncompletePeriod (kp : Kept [.links] P) (l : Nat) (s : State) (hP : Holds P s) :
    Holds P (doIncompletePeriod l s) := by
  have k0 : Kept [.links] P := kp.mono (by decide)
  unfold doIncompletePeriod
  repeat' with_reducible first
    | exact hP | assumption | apply kept_modCell k0

theorem kept_doMuStart (kp : Kept [.units] P) (u : Nat) (s : State) (hP : Holds P s) :
    Holds P (doMuStart u s) := by
  have k0 : Kept [.units] P := kp.mono (by decide)
  unfold doMuStart
  repeat' with_reducible first
    | exact hP | assumption | apply kept_modUnit k0 | apply holds_if | split | intro _

theorem kept_doMuDone (kp : Kept [.regs, .events, .units, .time, .host, .therm] P) (u : Nat) (s : State) (hP : Holds P s) :
    Holds P (doMuDone u s) := by
  have k0 : Kept [.units] P := kp.mono (by decide)
  have k1 : Kept [.regs, .events, .time, .host] P := kp.mono (by decide)
  have k2 : Kept [.regs, .events, .time, .host, .therm] P := kp.mono (by decide)
  unfold doMuDone
  dsimp only
  repeat' with_reducible first
    | exact hP | assumption | apply kept_modUnit k0 | apply kept_muStick k1 | apply kept_histFeed k2 | apply holds_if
    | intro _

theorem kept_shadowStep (kp : Kept [.damask] P) (t v : Nat) (s : State) (hP : Holds P s) :
    Holds P (shadowStep t v s) := by
  have k0 : Kept [.damask] P := kp.mono (by decide)
  unfold shadowStep
  dsimp only
  repeat' with_reducible first
    | exact hP | assumption | apply kept_modTile k0 | apply holds_if | split | intro _

theorem kept_unitCutoff (kp : Kept [.regs, .events, .units, .time, .host, .therm] P) (g u : Nat) (s : State) (hP : Holds P s) :
    Holds P (unitCutoff g u s) := by
  have k0 : Kept [.units] P := kp.mono (by decide)
  have k1 : Kept [.regs, .events, .time, .host, .therm] P := kp.mono (by decide)
  have k2 : Kept [.regs, .events, .time, .host] P := kp.mono (by decide)
  unfold unitCutoff
  dsimp only
  repeat' with_reducible first
    | exact hP | assumption | apply kept_modUnit k0 | apply kept_histFeed k1 | apply kept_muStick k2 | apply holds_if
    | split | intro _

theorem kept_coldNext (kp : Kept [.units] P) (u : Nat) (s : State) (hP : Holds P s) :
    Holds P (coldNext u s) := by
  have k0 : Kept [.units] P := kp.mono (by decide)
  unfold coldNext
  dsimp only
  repeat' with_reducible first
    | exact hP | assumption | apply kept_modUnit k0 | apply holds_if | split | intro _

theorem kept_unitsCutoff (kp : Kept [.regs, .events, .damask, .units, .time, .host, .therm] P) (g : Nat) (s : State) (hP : Holds P s) :
    Holds P (unitsCutoff g s) := by
  have k0 : Kept [.regs, .events, .units, .time, .host, .therm] P := kp.mono (by decide)
  have k1 : Kept [.units] P := kp.mono (by decide)
  have k2 : Kept [.damask] P := kp.mono (by decide)
  unfold unitsCutoff
  dsimp only
  repeat' with_reducible first
    | exact hP | assumption | apply kept_unitCutoff k0 | apply kept_coldNext k1 | apply kept_shadowStep k2
    | apply holds_if | apply holds_forEach | intro _

theorem kept_shadowLatch (kp : Kept [.damask] P) (g k t v : Nat) (s : State) (hP : Holds P s) :
    Holds P (shadowLatch g k t v s) := by
  have k0 : Kept [.damask] P := kp.mono (by decide)
  unfold shadowLatch
  dsimp only
  repeat' with_reducible first
    | exact hP | assumption | apply kept_modTile k0 | apply holds_if | split | intro _

theorem kept_bankSwitch (kp : Kept [.regs, .force, .units] P) (u : Nat) (ws : List (Nat × Word)) (s : State) (hP : Holds P s) :
    Holds P (bankSwitch u ws s) := by
  have k0 : Kept [.force] P := kp.mono (by decide)
  have k1 : Kept [.regs] P := kp.mono (by decide)
  have k2 : Kept [.units] P := kp.mono (by decide)
  unfold bankSwitch
  dsimp only
  repeat' with_reducible first
    | exact hP | assumption | apply kept_setFo k0 | apply kept_wr k1 | apply kept_modUnit k2 | apply holds_if
    | apply holds_foldl | intro _

theorem kept_banksAt (kp : Kept [.regs, .events, .force, .dirty, .groups, .units, .time, .host] P) (g : Nat) (ws : List (Nat × Word)) (s : State) (h : Holds P s) :
    Holds P (banksAt g ws s) := by
  unfold banksAt
  extract_lets s1 held
  have h1 : Holds P s1 := by
    refine holds_forEach _ (fun u s h => ?_) _ _ h
    extract_lets x mine s2 all
    refine holds_if (fun _ => holds_if (fun _ => h) (fun _ => ?_)) (fun _ => holds_if (fun _ => ?_)
      (fun _ => holds_if (fun _ => h) (fun _ => kept_bankSwitch (kp.mono (by decide)) _ _ _ h)))
    · exact kept_muStick (kp.mono (by decide)) _ _ _ (kept_dirtySet (kp.mono (by decide)) _ _ (kept_modUnit (kp.mono (by decide)) _ _ _ h))
    · exact kept_bankSwitch (kp.mono (by decide)) _ _ _ (kept_dirtySet (kp.mono (by decide)) _ _ h)
  exact holds_if (fun _ => h1) (fun _ => kept_modGroup (kp.mono (by decide)) _ _ _ h1)

theorem kept_doCoefCopyDone (kp : Kept [.regs, .units] P) (u : Nat) (s : State) (hP : Holds P s) :
    Holds P (doCoefCopyDone u s) := by
  have k0 : Kept [.regs] P := kp.mono (by decide)
  have k1 : Kept [.units] P := kp.mono (by decide)
  unfold doCoefCopyDone
  dsimp only
  repeat' with_reducible first
    | exact hP | assumption | apply kept_wr k0 | apply kept_modUnit k1 | apply holds_if | apply holds_forEach | split
    | intro _

theorem kept_unitApply (kp : Kept [.units] P) (u : Nat) (s : State) (hP : Holds P s) :
    Holds P (unitApply u s) := by
  have k0 : Kept [.units] P := kp.mono (by decide)
  unfold unitApply
  repeat' with_reducible first
    | exact hP | assumption | apply kept_modUnit k0

theorem kept_unitLatch (kp : Kept [.regs, .events, .units, .time, .host] P) (g k u : Nat) (s : State) (hP : Holds P s) :
    Holds P (unitLatch g k u s) := by
  have k0 : Kept [.units] P := kp.mono (by decide)
  have k1 : Kept [.regs, .events, .time, .host] P := kp.mono (by decide)
  unfold unitLatch
  dsimp only
  repeat' with_reducible first
    | exact hP | assumption | apply kept_modUnit k0 | apply kept_muStick k1 | apply holds_if | intro _

theorem kept_unitsBoundary (kp : Kept [.regs, .events, .damask, .units, .time, .host] P) (g k : Nat) (mid : State → State) (s : State)
    (hmid : ∀ u, Holds P u → Holds P (mid u)) (hP : Holds P s) :
    Holds P (unitsBoundary g k mid s) := by
  have k0 : Kept [.units] P := kp.mono (by decide)
  have k1 : Kept [.regs, .events, .units, .time, .host] P := kp.mono (by decide)
  have k2 : Kept [.damask] P := kp.mono (by decide)
  unfold unitsBoundary
  dsimp only
  repeat' with_reducible first
    | exact hP | assumption | apply kept_unitApply k0 | apply kept_unitLatch k1 | apply kept_shadowLatch k2
    | apply holds_if | apply holds_forEach | intro _ | apply hmid

theorem kept_rampsLatched (kp : Kept [.gorse] P) (g : Nat) (s : State) (hP : Holds P s) :
    Holds P (rampsLatched g s) := by
  have k0 : Kept [.gorse] P := kp.mono (by decide)
  unfold rampsLatched
  repeat' with_reducible first
    | exact hP | assumption | apply kept_modGorse k0 | apply holds_if | intro _

theorem kept_unitInit (kp : Kept [.units] P) (u : Nat) (s : State) (hP : Holds P s) :
    Holds P (unitInit u s) := by
  have k0 : Kept [.units] P := kp.mono (by decide)
  unfold unitInit
  dsimp only
  repeat' with_reducible first
    | exact hP | assumption | apply kept_modUnit k0

theorem kept_waveFlags (kp : Kept [.regs, .events, .time, .host] P) (virt : Bool) (mid : Nat) (old new : Wave) (s : State) (hP : Holds P s) :
    Holds P (waveFlags virt mid old new s) := by
  have k0 : Kept [.regs, .events, .time, .host] P := kp.mono (by decide)
  have k1 : Kept [.regs, .events] P := kp.mono (by decide)
  unfold waveFlags
  dsimp only
  repeat' with_reducible first
    | exact hP | assumption | apply kept_modStick k0 | apply kept_cntUp k1 | apply holds_if | intro _

theorem kept_pairCompute (kp : Kept [.regs, .events, .mod, .time, .host] P) (g p : Nat) (en : Nat) (s : State) (hP : Holds P s) :
    Holds P (pairCompute g p en s) := by
  have k0 : Kept [.regs, .events, .time, .host] P := kp.mono (by decide)
  have k1 : Kept [.mod] P := kp.mono (by decide)
  unfold pairCompute
  dsimp only
  repeat' with_reducible first
    | exact hP | assumption | apply kept_waveFlags k0 | apply kept_modPair k1

theorem kept_pairMid (kp : Kept [.regs, .events, .mod, .time, .host] P) (g p mid : Nat) (val : Nat → Word) (s : State) (hP : Holds P s) :
    Holds P (pairMid g p mid val s) := by
  have k0 : Kept [.regs, .events, .time, .host] P := kp.mono (by decide)
  have k1 : Kept [.mod] P := kp.mono (by decide)
  unfold pairMid
  dsimp only
  repeat' with_reducible first
    | exact hP | assumption | apply kept_waveFlags k0 | apply kept_modPair k1

theorem kept_dispatch (kp : Kept [.links] P) (l : Nat) (b : Nat) (ms : List Msg) (s : State) (hP : Holds P s) :
    Holds P (dispatch l b ms s) := by
  have k0 : Kept [.links] P := kp.mono (by decide)
  unfold dispatch
  dsimp only
  repeat' with_reducible first
    | exact hP | assumption | apply kept_modLink k0 | apply holds_if | intro _

theorem kept_cellCompute (kp : Kept [.regs, .events, .links, .mod, .time, .host] P) (g c mid : Nat) (en : Nat) (s : State) (hP : Holds P s) :
    Holds P (cellCompute g c mid en s) := by
  have k0 : Kept [.links] P := kp.mono (by decide)
  have k1 : Kept [.regs, .events, .time, .host] P := kp.mono (by decide)
  have k2 : Kept [.mod] P := kp.mono (by decide)
  unfold cellCompute
  dsimp only
  repeat' with_reducible first
    | exact hP | assumption | apply kept_modLink k0 | apply kept_waveFlags k1 | apply kept_dispatch k0
    | apply kept_modVCell k2 | apply holds_if | apply holds_foldl | intro _

theorem kept_cellMid (kp : Kept [.regs, .events, .links, .mod, .time, .host] P) (g c mid : Nat) (val : Nat → Word) (changed : Nat → Bool)
    (s : State) (hP : Holds P s) :
    Holds P (cellMid g c mid val changed s) := by
  have k0 : Kept [.regs, .events, .time, .host] P := kp.mono (by decide)
  have k1 : Kept [.links] P := kp.mono (by decide)
  have k2 : Kept [.mod] P := kp.mono (by decide)
  unfold cellMid
  dsimp only
  repeat' with_reducible first
    | exact hP | assumption | apply kept_waveFlags k0 | apply kept_dispatch k1 | apply kept_modVCell k2
    | apply holds_if | apply holds_foldl | intro _

theorem kept_edgeCompute (kp : Kept [.regs, .events, .groups, .links, .mod, .time, .host] P) (g off : Nat) (s : State) (hP : Holds P s) :
    Holds P (edgeCompute g off s) := by
  have k0 : Kept [.regs, .events, .mod, .time, .host] P := kp.mono (by decide)
  have k1 : Kept [.groups] P := kp.mono (by decide)
  have k2 : Kept [.regs, .events, .links, .mod, .time, .host] P := kp.mono (by decide)
  unfold edgeCompute
  dsimp only
  repeat' with_reducible first
    | exact hP | assumption | apply kept_pairCompute k0 | apply kept_modGroup k1 | apply kept_cellCompute k2
    | apply holds_forEach | intro _

theorem kept_pairLevel (kp : Kept [.regs, .events, .mod] P) (p : Nat) (high level : Bool) (t : Int) (s : State) (hP : Holds P s) :
    Holds P (pairLevel p high level t s) := by
  have k0 : Kept [.mod] P := kp.mono (by decide)
  have k1 : Kept [.regs, .events, .mod] P := kp.mono (by decide)
  unfold pairLevel
  dsimp only
  repeat' with_reducible first
    | exact hP | assumption | apply kept_modPair k0 | apply kept_settleBlank k1 | apply holds_if | intro _

theorem kept_doGateEdge (kp : Kept [.regs, .events, .mod] P) (p : Nat) (high : Bool) (s : State) (hP : Holds P s) :
    Holds P (doGateEdge p high s) := by
  have k0 : Kept [.regs, .events, .mod] P := kp.mono (by decide)
  have k1 : Kept [.mod] P := kp.mono (by decide)
  unfold doGateEdge
  dsimp only
  repeat' with_reducible first
    | exact hP | assumption | apply kept_pairLevel k0 | apply kept_modPair k1 | apply holds_if | split

theorem kept_pairBoundary (kp : Kept [.regs, .events, .mod] P) (p per : Nat) (s : State) (hP : Holds P s) :
    Holds P (pairBoundary p per s) := by
  have k0 : Kept [.regs, .events, .mod] P := kp.mono (by decide)
  have k1 : Kept [.mod] P := kp.mono (by decide)
  unfold pairBoundary
  dsimp only
  repeat' with_reducible first
    | exact hP | assumption | apply kept_pairLevel k0 | apply kept_modPair k1 | apply holds_if | intro _

theorem kept_setPrbsBits (kp : Kept [.regs] P) (l n : Nat) (s : State) (hP : Holds P s) :
    Holds P (setPrbsBits l n s) := by
  have k0 : Kept [.regs] P := kp.mono (by decide)
  unfold setPrbsBits
  repeat' with_reducible first
    | exact hP | assumption | apply kept_wr k0

theorem kept_startCheck (kp : Kept [.regs, .dirty, .links] P) (l : Nat) (s : State) (hP : Holds P s) :
    Holds P (startCheck l s) := by
  have k0 : Kept [.links] P := kp.mono (by decide)
  have k1 : Kept [.regs, .dirty] P := kp.mono (by decide)
  have k2 : Kept [.regs] P := kp.mono (by decide)
  unfold startCheck
  dsimp only
  repeat' with_reducible first
    | exact hP | assumption | apply kept_modLink k0 | apply kept_stage k1 | apply kept_setPrbsBits k2
    | apply holds_if | intro _

theorem kept_enterLinked (kp : Kept [.regs, .dirty, .links] P) (limited : Bool) (l : Nat) (s : State) (hP : Holds P s) :
    Holds P (enterLinked limited l s) := by
  have k0 : Kept [.links] P := kp.mono (by decide)
  unfold enterLinked
  dsimp only
  repeat' with_reducible first
    | exact hP | assumption | apply kept_modLink k0

theorem kept_startSwitch (kp : Kept [.regs, .dirty, .links] P) (l r : Nat) (s : State) (hP : Holds P s) :
    Holds P (startSwitch l r s) := by
  have k0 : Kept [.links] P := kp.mono (by decide)
  unfold startSwitch
  repeat' with_reducible first
    | exact hP | assumption | apply kept_modLink k0

theorem kept_fallBack (kp : Kept [.regs, .dirty, .links] P) (alive : Bool) (l : Nat) (s : State) (hP : Holds P s) :
    Holds P (fallBack alive l s) := by
  have k0 : Kept [.links] P := kp.mono (by decide)
  have k1 : Kept [.regs, .dirty, .links] P := kp.mono (by decide)
  have k2 : Kept [.regs, .dirty] P := kp.mono (by decide)
  unfold fallBack
  dsimp only
  repeat' with_reducible first
    | exact hP | assumption | apply kept_modLink k0 | apply kept_startCheck k1 | apply kept_startSwitch k1
    | apply kept_stage k2 | apply holds_if | intro _

theorem kept_checkFail (kp : Kept [.regs, .dirty, .links] P) (l : Nat) (s : State) (hP : Holds P s) :
    Holds P (checkFail l s) := by
  have k0 : Kept [.regs, .dirty, .links] P := kp.mono (by decide)
  have k1 : Kept [.links] P := kp.mono (by decide)
  unfold checkFail
  dsimp only
  repeat' with_reducible first
    | exact hP | assumption | apply kept_linkFail k0 | apply kept_startCheck k0 | apply kept_modLink k1
    | apply kept_fallBack k0 | apply holds_if | intro _

theorem kept_switchFail (kp : Kept [.regs, .dirty, .links] P) (c : FailCode) (l : Nat) (s : State) (hP : Holds P s) :
    Holds P (switchFail c l s) := by
  have k0 : Kept [.regs, .dirty, .links] P := kp.mono (by decide)
  have k1 : Kept [.links] P := kp.mono (by decide)
  unfold switchFail
  dsimp only
  repeat' with_reducible first
    | exact hP | assumption | apply kept_linkFail k0 | apply kept_startSwitch k0 | apply kept_modLink k1
    | apply kept_fallBack k0 | apply holds_if | intro _

theorem kept_trainLink (kp : Kept [.regs, .events, .dirty, .links, .time, .host] P) (l : Nat) (s : State) (hP : Holds P s) :
    Holds P (trainLink l s) := by
  have k0 : Kept [.regs, .events, .links, .time, .host] P := kp.mono (by decide)
  have k1 : Kept [.links] P := kp.mono (by decide)
  unfold trainLink
  dsimp only
  repeat' with_reducible first
    | exact hP | assumption | apply kept_latClear k0 | apply kept_modLink k1

theorem kept_trainOne (kp : Kept [.regs, .events, .dirty, .links, .time, .host] P) (l : Nat) (s : State) (hP : Holds P s) :
    Holds P (trainOne l s) := by
  have k0 : Kept [.links] P := kp.mono (by decide)
  have k1 : Kept [.regs, .events, .dirty, .links, .time, .host] P := kp.mono (by decide)
  have k2 : Kept [.regs, .dirty, .links] P := kp.mono (by decide)
  unfold trainOne
  dsimp only
  repeat' with_reducible first
    | exact hP | assumption | apply kept_modLink k0 | apply kept_trainLink k1 | apply kept_linkFail k2
    | apply holds_if | intro _

theorem kept_linkTrainStart (kp : Kept [.regs, .events, .dirty, .links, .time, .host] P) (i : Nat) (s : State) (hP : Holds P s) :
    Holds P (linkTrainStart i s) := by
  have k0 : Kept [.regs, .events, .dirty, .links, .time, .host] P := kp.mono (by decide)
  unfold linkTrainStart
  repeat' with_reducible first
    | exact hP | assumption | apply kept_trainOne k0 | apply holds_forEach

theorem kept_unname (kp : Kept [.links] P) (s : State) (hP : Holds P s) :
    Holds P (unname s) := by
  have k0 : Kept [.links] P := kp.mono (by decide)
  unfold unname
  repeat' with_reducible first
    | exact hP | assumption | apply kept_modLink k0 | apply holds_if | apply holds_forEach | intro _

theorem kept_trainCancel (kp : Kept [.regs, .dirty, .links] P) (s : State) (hP : Holds P s) :
    Holds P (trainCancel s) := by
  have k0 : Kept [.links] P := kp.mono (by decide)
  have k1 : Kept [.regs, .dirty, .links] P := kp.mono (by decide)
  unfold trainCancel
  dsimp only
  repeat' with_reducible first
    | exact hP | assumption | apply kept_unname k0 | apply kept_linkFail k1 | apply holds_if | apply holds_forEach
    | intro _

theorem kept_doLinkTrainDone (kp : Kept [.regs, .events, .links, .time, .host] P) (s : State) (hP : Holds P s) :
    Holds P (doLinkTrainDone s) := by
  have k0 : Kept [.regs, .events, .time, .host] P := kp.mono (by decide)
  have k1 : Kept [.links] P := kp.mono (by decide)
  unfold doLinkTrainDone
  dsimp only
  repeat' with_reducible first
    | exact hP | assumption | apply kept_endSlot k0 | apply kept_unname k1 | apply holds_if | split | intro _

theorem kept_markerMark (kp : Kept [.links] P) (l : Nat) (b : Bool) (s : State) (hP : Holds P s) :
    Holds P (markerMark l b s) := by
  have k0 : Kept [.links] P := kp.mono (by decide)
  unfold markerMark
  repeat' with_reducible first
    | exact hP | assumption | apply kept_modLink k0 | apply holds_if | intro _

theorem kept_doPhaseAcquired (kp : Kept [.links] P) (l : Nat) (eye : BitVec 64) (s : State) (hP : Holds P s) :
    Holds P (doPhaseAcquired l eye s) := by
  have k0 : Kept [.links] P := kp.mono (by decide)
  unfold doPhaseAcquired
  dsimp only
  repeat' with_reducible first
    | exact hP | assumption | apply kept_modLink k0 | apply holds_if | intro _

theorem kept_lockIn (kp : Kept [.regs, .events, .links, .gorse] P) (l : Nat) (s : State) (hP : Holds P s) :
    Holds P (lockIn l s) := by
  have k0 : Kept [.links] P := kp.mono (by decide)
  have k1 : Kept [.gorse] P := kp.mono (by decide)
  have k2 : Kept [.regs, .events] P := kp.mono (by decide)
  unfold lockIn
  dsimp only
  repeat' with_reducible first
    | exact hP | assumption | apply kept_modLink k0 | apply kept_setLive k1 | apply kept_cntSat k2 | apply holds_if
    | intro _

theorem kept_doUpLock (kp : Kept [.regs, .events, .dirty, .links, .gorse] P) (l : Nat) (s : State) (hP : Holds P s) :
    Holds P (doUpLock l s) := by
  have k0 : Kept [.links] P := kp.mono (by decide)
  have k1 : Kept [.regs, .events, .links, .gorse] P := kp.mono (by decide)
  have k2 : Kept [.regs, .dirty, .links] P := kp.mono (by decide)
  have k3 : Kept [.regs, .dirty] P := kp.mono (by decide)
  unfold doUpLock
  dsimp only
  repeat' with_reducible first
    | exact hP | assumption | apply kept_modLink k0 | apply kept_lockIn k1 | apply kept_linkFail k2
    | apply kept_startCheck k2 | apply kept_stage k3 | apply holds_if | intro _

theorem kept_doAlignTimeout (kp : Kept [.regs, .dirty, .links] P) (l : Nat) (s : State) (hP : Holds P s) :
    Holds P (doAlignTimeout l s) := by
  have k0 : Kept [.regs, .dirty, .links] P := kp.mono (by decide)
  unfold doAlignTimeout
  dsimp only
  repeat' with_reducible first
    | exact hP | assumption | apply kept_switchFail k0 | apply kept_linkFail k0 | apply holds_if | intro _

theorem kept_wzLinkRise (kp : KeptDev [.regs, .events, .dev, .groups, .links, .mod, .gorse, .time, .meas, .host, .power] P) (l : Nat)
    (s : State) (hP : Holds P s) :
    Holds P (wzLinkRise l s) := by
  have k0 : KeptDev [.regs, .events, .dev, .groups, .links, .mod, .gorse, .time, .meas, .host, .power] P := kp.mono (by decide)
  unfold wzLinkRise
  repeat' with_reducible first
    | exact hP | assumption | apply kept_bRise k0 | apply holds_if | intro _

theorem kept_doMarkerErr (kp : KeptDev [.regs, .events, .dev, .groups, .links, .mod, .gorse, .time, .meas, .host, .power] P) (l : Nat)
    (s0 : State) (hP : Holds P s0) :
    Holds P (doMarkerErr l s0) := by
  have k0 : Kept [.links] P := kp.toKept.mono (by decide)
  have k1 : Kept [.regs, .events] P := kp.toKept.mono (by decide)
  have k2 : KeptDev [.regs, .events, .dev, .groups, .links, .mod, .gorse, .time, .meas, .host, .power] P := kp.mono (by decide)
  have k3 : Kept [.regs, .events, .links, .time, .host] P := kp.toKept.mono (by decide)
  have k4 : Kept [.regs, .events, .time, .host] P := kp.toKept.mono (by decide)
  unfold doMarkerErr
  dsimp only
  repeat' with_reducible first
    | exact hP | assumption | apply kept_markerMark k0 | apply kept_modLink k0 | apply kept_cntSat k1
    | apply kept_wzLinkRise k2 | apply kept_latClear k3 | apply kept_ltStick k4 | apply holds_if | intro _

theorem kept_doPhaseLimit (kp : Kept [.regs, .events, .links, .time, .host] P) (l : Nat) (s : State) (hP : Holds P s) :
    Holds P (doPhaseLimit l s) := by
  have k0 : Kept [.regs, .events, .time, .host] P := kp.mono (by decide)
  have k1 : Kept [.links] P := kp.mono (by decide)
  unfold doPhaseLimit
  repeat' with_reducible first
    | exact hP | assumption | apply kept_ltStick k0 | apply kept_modLink k1 | apply holds_if | intro _

theorem kept_doEbufErr (kp : Kept [.regs, .events, .links, .time, .host] P) (l : Nat) (s : State) (hP : Holds P s) :
    Holds P (doEbufErr l s) := by
  have k0 : Kept [.regs, .events, .time, .host] P := kp.mono (by decide)
  have k1 : Kept [.links] P := kp.mono (by decide)
  unfold doEbufErr
  dsimp only
  repeat' with_reducible first
    | exact hP | assumption | apply kept_ltStick k0 | apply kept_modLink k1

theorem kept_countCodes (kp : Kept [.regs, .events, .time, .host] P) (l codeErr dispErr : Nat) (s : State) (hP : Holds P s) :
    Holds P (countCodes l codeErr dispErr s) := by
  have k0 : Kept [.regs, .events] P := kp.mono (by decide)
  have k1 : Kept [.regs, .events, .time, .host] P := kp.mono (by decide)
  unfold countCodes
  dsimp only
  repeat' with_reducible first
    | exact hP | assumption | apply kept_cntSat k0 | apply kept_ltStick k1 | apply holds_if | intro _

theorem kept_prbsCount (kp : Kept [.regs, .events] P) (l err : Nat) (s : State) (hP : Holds P s) :
    Holds P (prbsCount l err s) := by
  have k0 : Kept [.regs] P := kp.mono (by decide)
  have k1 : Kept [.regs, .events] P := kp.mono (by decide)
  unfold prbsCount
  repeat' with_reducible first
    | exact hP | assumption | apply kept_setPrbsBits k0 | apply kept_cntSat k1 | apply holds_if | intro _

theorem kept_capBlock (kp : Kept [.regs, .dirty, .links] P) (l : Nat) (cap : Word) (s : State) (hP : Holds P s) :
    Holds P (capBlock l cap s) := by
  have k0 : Kept [.links] P := kp.mono (by decide)
  have k1 : Kept [.regs, .dirty, .links] P := kp.mono (by decide)
  unfold capBlock
  dsimp only
  repeat' with_reducible first
    | exact hP | assumption | apply kept_modLink k0 | apply kept_startCheck k1 | apply kept_linkFail k1
    | apply holds_if | intro _

theorem kept_checkBlock (kp : Kept [.regs, .dirty, .links] P) (l err : Nat) (on : Bool) (theirs : Option Nat) (s : State) (hP : Holds P s) :
    Holds P (checkBlock l err on theirs s) := by
  have k0 : Kept [.links] P := kp.mono (by decide)
  have k1 : Kept [.regs, .dirty, .links] P := kp.mono (by decide)
  unfold checkBlock
  dsimp only
  repeat' with_reducible first
    | exact hP | assumption | apply kept_modLink k0 | apply kept_checkFail k1 | apply holds_if | split | intro _

theorem kept_confirmBlock (kp : Kept [.regs, .dirty, .links] P) (l err : Nat) (s : State) (hP : Holds P s) :
    Holds P (confirmBlock l err s) := by
  have k0 : Kept [.links] P := kp.mono (by decide)
  have k1 : Kept [.regs, .dirty, .links] P := kp.mono (by decide)
  unfold confirmBlock
  repeat' with_reducible first
    | exact hP | assumption | apply kept_modLink k0 | apply kept_linkFail k1 | apply holds_if | intro _

theorem kept_inboundBlock (kp : Kept [.regs, .events, .dirty, .links, .time, .host] P) (l : Nat) (r : TrainRx) (s : State) (hP : Holds P s) :
    Holds P (inboundBlock l r s) := by
  have k0 : Kept [.links] P := kp.mono (by decide)
  have k1 : Kept [.regs, .events] P := kp.mono (by decide)
  have k2 : Kept [.regs, .dirty] P := kp.mono (by decide)
  have k3 : Kept [.regs, .events, .links, .time, .host] P := kp.mono (by decide)
  have k4 : Kept [.regs] P := kp.mono (by decide)
  unfold inboundBlock
  dsimp only
  repeat' with_reducible first
    | exact hP | assumption | apply kept_modLink k0 | apply kept_prbsCount k1 | apply kept_stage k2
    | apply kept_latClear k3 | apply kept_setPrbsBits k4 | apply holds_if | split | intro _

theorem kept_loopRx (kp : Kept [.regs, .events, .links] P) (l : Nat) (r : TrainRx) (s : State) (hP : Holds P s) :
    Holds P (loopRx l r s) := by
  have k0 : Kept [.regs, .events] P := kp.mono (by decide)
  have k1 : Kept [.links] P := kp.mono (by decide)
  unfold loopRx
  repeat' with_reducible first
    | exact hP | assumption | apply kept_prbsCount k0 | apply kept_modLink k1 | apply holds_if | intro _

theorem kept_bringUpRx (kp : Kept [.regs, .events, .dirty, .links] P) (l : Nat) (r : TrainRx) (s0 : State) (hP : Holds P s0) :
    Holds P (bringUpRx l r s0) := by
  have k0 : Kept [.links] P := kp.mono (by decide)
  have k1 : Kept [.regs, .dirty, .links] P := kp.mono (by decide)
  have k2 : Kept [.regs, .events] P := kp.mono (by decide)
  have k3 : Kept [.regs, .dirty] P := kp.mono (by decide)
  unfold bringUpRx
  dsimp only
  repeat' with_reducible first
    | exact hP | assumption | apply kept_modLink k0 | apply kept_capBlock k1 | apply kept_prbsCount k2
    | apply kept_confirmBlock k1 | apply kept_checkBlock k1 | apply kept_stage k3 | apply holds_if | split | intro _

theorem kept_trainRx (kp : Kept [.regs, .events, .links, .time, .host] P) (l : Nat) (syms : List Sym) (s : State) (h : Holds P s) :
    Holds P (trainRx l syms s).2 :=
  kept_countCodes (kp.mono (by decide)) _ _ _ _ (kept_modLink (kp.mono (by decide)) _ _ _ h)

theorem kept_doTrainingBlockRx (kp : Kept [.regs, .events, .dirty, .links, .time, .host] P) (l : Nat) (groups : List (BitVec 10)) (s0 : State) (h : Holds P s0) :
    Holds P (doTrainingBlockRx l groups s0) := by
  unfold doTrainingBlockRx
  extract_lets x y s r
  have h1 : Holds P s := kept_markerMark (kp.mono (by decide)) _ _ _ h
  have h2 : Holds P r.2 := kept_trainRx (kp.mono (by decide)) _ _ _ (kept_modLink (kp.mono (by decide)) _ _ _ h1)
  exact holds_if (fun _ => h) (fun _ => holds_if (fun _ => holds_if (fun _ => kept_loopRx (kp.mono (by decide)) _ _ _ h2)
    (fun _ => holds_if (fun _ => kept_inboundBlock (kp.mono (by decide)) _ _ _ h2)
      (fun _ => kept_bringUpRx (kp.mono (by decide)) _ _ _ h2))) (fun _ => h1))

theorem kept_doCapTimeout (kp : Kept [.regs, .dirty, .links] P) (l : Nat) (s : State) (hP : Holds P s) :
    Holds P (doCapTimeout l s) := by
  have k0 : Kept [.regs, .dirty, .links] P := kp.mono (by decide)
  unfold doCapTimeout
  repeat' with_reducible first
    | exact hP | assumption | apply kept_linkFail k0 | apply holds_if | intro _

theorem kept_doCheckWindowDone (kp : Kept [.regs, .dirty, .links] P) (l : Nat) (s : State) (hP : Holds P s) :
    Holds P (doCheckWindowDone l s) := by
  have k0 : Kept [.links] P := kp.mono (by decide)
  have k1 : Kept [.regs, .dirty, .links] P := kp.mono (by decide)
  unfold doCheckWindowDone
  dsimp only
  repeat' with_reducible first
    | exact hP | assumption | apply kept_modLink k0 | apply kept_enterLinked k1 | apply kept_startSwitch k1
    | apply holds_if | intro _

theorem kept_doAckTimeout (kp : Kept [.regs, .dirty, .links] P) (l : Nat) (s : State) (hP : Holds P s) :
    Holds P (doAckTimeout l s) := by
  have k0 : Kept [.regs, .dirty, .links] P := kp.mono (by decide)
  unfold doAckTimeout
  dsimp only
  repeat' with_reducible first
    | exact hP | assumption | apply kept_switchFail k0 | apply holds_if | intro _

theorem kept_doCountdownEnd (kp : Kept [.regs, .dirty, .links] P) (l : Nat) (s : State) (hP : Holds P s) :
    Holds P (doCountdownEnd l s) := by
  have k0 : Kept [.links] P := kp.mono (by decide)
  have k1 : Kept [.regs, .dirty] P := kp.mono (by decide)
  unfold doCountdownEnd
  dsimp only
  repeat' with_reducible first
    | exact hP | assumption | apply kept_modLink k0 | apply kept_stage k1 | apply holds_if | intro _

theorem kept_doDckRestart (kp : Kept [.regs, .dirty, .links] P) (l : Nat) (s : State) (hP : Holds P s) :
    Holds P (doDckRestart l s) := by
  have k0 : Kept [.links] P := kp.mono (by decide)
  have k1 : Kept [.regs, .dirty] P := kp.mono (by decide)
  unfold doDckRestart
  dsimp only
  repeat' with_reducible first
    | exact hP | assumption | apply kept_modLink k0 | apply kept_stage k1 | apply holds_if | intro _

theorem kept_doFallbackConfirm (kp : Kept [.regs, .dirty, .links] P) (l : Nat) (s : State) (hP : Holds P s) :
    Holds P (doFallbackConfirm l s) := by
  have k0 : Kept [.regs, .dirty, .links] P := kp.mono (by decide)
  unfold doFallbackConfirm
  dsimp only
  repeat' with_reducible first
    | exact hP | assumption | apply kept_enterLinked k0 | apply holds_if | intro _

theorem kept_doBitslipUp (kp : Kept [.regs, .events, .links, .time, .host] P) (l : Nat) (s : State) (hP : Holds P s) :
    Holds P (doBitslipUp l s) := by
  have k0 : Kept [.links] P := kp.mono (by decide)
  have k1 : Kept [.regs, .events, .time, .host] P := kp.mono (by decide)
  unfold doBitslipUp
  repeat' with_reducible first
    | exact hP | assumption | apply kept_modLink k0 | apply kept_ltStick k1 | apply holds_if | intro _

theorem kept_doBitslipDown (kp : Kept [.regs, .events, .links, .time, .host] P) (l : Nat) (s : State) (hP : Holds P s) :
    Holds P (doBitslipDown l s) := by
  have k0 : Kept [.links] P := kp.mono (by decide)
  have k1 : Kept [.regs, .events, .time, .host] P := kp.mono (by decide)
  unfold doBitslipDown
  dsimp only
  repeat' with_reducible first
    | exact hP | assumption | apply kept_modLink k0 | apply kept_ltStick k1 | apply holds_if | intro _

theorem kept_doAlignModeChange (kp : Kept [.links] P) (l : Nat) (s : State) (hP : Holds P s) :
    Holds P (doAlignModeChange l s) := by
  have k0 : Kept [.links] P := kp.mono (by decide)
  unfold doAlignModeChange
  repeat' with_reducible first
    | exact hP | assumption | apply kept_modLink k0

theorem kept_doDdtSkewApply (kp : Kept [.links] P) (l : Nat) (s : State) (hP : Holds P s) :
    Holds P (doDdtSkewApply l s) := by
  have k0 : Kept [.links] P := kp.mono (by decide)
  unfold doDdtSkewApply
  repeat' with_reducible first
    | exact hP | assumption | apply kept_modLink k0

theorem kept_doLoopWrite (kp : Kept [.regs, .events, .links, .time, .host] P) (l loop : Nat) (s : State) (hP : Holds P s) :
    Holds P (doLoopWrite l loop s) := by
  have k0 : Kept [.regs] P := kp.mono (by decide)
  have k1 : Kept [.links] P := kp.mono (by decide)
  have k2 : Kept [.regs, .events, .links, .time, .host] P := kp.mono (by decide)
  have k3 : Kept [.regs, .events, .time, .host] P := kp.mono (by decide)
  unfold doLoopWrite
  dsimp only
  repeat' with_reducible first
    | exact hP | assumption | apply kept_wr k0 | apply kept_modLink k1 | apply kept_setPrbsBits k0
    | apply kept_latClear k2 | apply kept_ltStick k3 | apply holds_if | intro _

theorem kept_doLoopFail (kp : Kept [.regs, .events, .time, .host] P) (l : Nat) (s : State) (hP : Holds P s) :
    Holds P (doLoopFail l s) := by
  have k0 : Kept [.regs, .events, .time, .host] P := kp.mono (by decide)
  unfold doLoopFail
  dsimp only
  repeat' with_reducible first
    | exact hP | assumption | apply kept_ltStick k0 | apply holds_if | intro _

theorem kept_doRefclkDetect (kp : Kept [.regs, .events, .clock, .time, .host, .power] P) (hz : Nat) (s : State) (hP : Holds P s) :
    Holds P (doRefclkDetect hz s) := by
  have k0 : Kept [.power] P := kp.mono (by decide)
  have k1 : Kept [.regs, .events, .clock, .time, .host] P := kp.mono (by decide)
  have k2 : Kept [.clock] P := kp.mono (by decide)
  have k3 : Kept [.regs] P := kp.mono (by decide)
  unfold doRefclkDetect
  dsimp only
  repeat' with_reducible first
    | exact hP | assumption | apply kept_modPower k0 | apply kept_refBack k1 | apply kept_modClock k2
    | apply kept_setClk k3 | apply kept_wr k3 | apply holds_if | split | intro _

theorem kept_lockPll (kp : Kept [.regs, .events, .clock] P) (m : Bool) (s : State) (hP : Holds P s) :
    Holds P (lockPll m s) := by
  have k0 : Kept [.regs] P := kp.mono (by decide)
  have k1 : Kept [.clock] P := kp.mono (by decide)
  have k2 : Kept [.regs, .events] P := kp.mono (by decide)
  unfold lockPll
  dsimp only
  repeat' with_reducible first
    | exact hP | assumption | apply kept_setClk k0 | apply kept_modClock k1 | apply kept_cntUp k2 | apply holds_if
    | intro _

theorem kept_doRootLock (kp : Kept [.regs, .events, .clock] P) (s : State) (hP : Holds P s) :
    Holds P (doRootLock s) := by
  have k0 : Kept [.regs, .events, .clock] P := kp.mono (by decide)
  unfold doRootLock
  repeat' with_reducible first
    | exact hP | assumption | apply kept_lockPll k0 | apply holds_if | intro _

theorem kept_doMLock (kp : Kept [.regs, .events, .clock] P) (s : State) (hP : Holds P s) :
    Holds P (doMLock s) := by
  have k0 : Kept [.regs, .events, .clock] P := kp.mono (by decide)
  unfold doMLock
  repeat' with_reducible first
    | exact hP | assumption | apply kept_lockPll k0 | apply holds_if | intro _

theorem kept_doDividerRelease (kp : Kept [.regs, .clock] P) (s : State) (hP : Holds P s) :
    Holds P (doDividerRelease s) := by
  have k0 : Kept [.regs] P := kp.mono (by decide)
  have k1 : Kept [.clock] P := kp.mono (by decide)
  unfold doDividerRelease
  repeat' with_reducible first
    | exact hP | assumption | apply kept_setClk k0 | apply kept_modClock k1 | apply holds_if | intro _

theorem kept_refAway (kp : Kept [.regs, .events, .clock, .time, .host] P) (s : State) (hP : Holds P s) :
    Holds P (refAway s) := by
  have k0 : Kept [.regs, .events, .time, .host] P := kp.mono (by decide)
  have k1 : Kept [.clock] P := kp.mono (by decide)
  have k2 : Kept [.regs] P := kp.mono (by decide)
  unfold refAway
  repeat' with_reducible first
    | exact hP | assumption | apply kept_setServo k0 | apply kept_modClock k1 | apply kept_setClk k2

theorem kept_doRefLoss (kp : Kept [.regs, .events, .clock, .time, .host] P) (s : State) (hP : Holds P s) :
    Holds P (doRefLoss s) := by
  have k0 : Kept [.regs, .events, .time, .host] P := kp.mono (by decide)
  have k1 : Kept [.regs, .events, .clock, .time, .host] P := kp.mono (by decide)
  unfold doRefLoss
  repeat' with_reducible first
    | exact hP | assumption | apply kept_clkStick k0 | apply kept_refAway k1 | apply holds_if | intro _

theorem kept_doWzRefLoss (kp : Kept [.regs, .events, .clock, .time, .host] P) (s : State) (hP : Holds P s) :
    Holds P (doWzRefLoss s) := by
  have k0 : Kept [.regs, .events, .time, .host] P := kp.mono (by decide)
  have k1 : Kept [.regs, .events, .clock, .time, .host] P := kp.mono (by decide)
  unfold doWzRefLoss
  repeat' with_reducible first
    | exact hP | assumption | apply kept_clkStick k0 | apply kept_refAway k1 | apply holds_if | intro _

theorem kept_doRootLol (kp : Kept [.regs, .events, .time, .host] P) (s : State) (hP : Holds P s) :
    Holds P (doRootLol s) := by
  have k0 : Kept [.regs, .events, .time, .host] P := kp.mono (by decide)
  have k1 : Kept [.regs] P := kp.mono (by decide)
  unfold doRootLol
  repeat' with_reducible first
    | exact hP | assumption | apply kept_clkStick k0 | apply kept_setClk k1 | apply holds_if | intro _

theorem kept_doMLol (kp : Kept [.regs, .events, .dirty, .links, .time, .host] P) (s : State) (hP : Holds P s) :
    Holds P (doMLol s) := by
  have k0 : Kept [.regs, .dirty, .links] P := kp.mono (by decide)
  have k1 : Kept [.regs, .events, .time, .host] P := kp.mono (by decide)
  have k2 : Kept [.regs] P := kp.mono (by decide)
  unfold doMLol
  repeat' with_reducible first
    | exact hP | assumption | apply kept_linkFail k0 | apply kept_clkStick k1 | apply kept_setClk k2 | apply holds_if
    | apply holds_forEach | intro _

theorem kept_doFineCalFail (kp : Kept [.regs, .events, .clock, .time, .host] P) (gen : Nat) (s : State) (hP : Holds P s) :
    Holds P (doFineCalFail gen s) := by
  have k0 : Kept [.regs, .events, .time, .host] P := kp.mono (by decide)
  have k1 : Kept [.clock] P := kp.mono (by decide)
  unfold doFineCalFail
  repeat' with_reducible first
    | exact hP | assumption | apply kept_clkStick k0 | apply kept_modClock k1

theorem kept_doLockReacquired (kp : Kept [.regs, .events, .clock] P) (m : Bool) (s : State) (hP : Holds P s) :
    Holds P (doLockReacquired m s) := by
  have k0 : Kept [.regs] P := kp.mono (by decide)
  have k1 : Kept [.regs, .events, .clock] P := kp.mono (by decide)
  unfold doLockReacquired
  repeat' with_reducible first
    | exact hP | assumption | apply kept_setClk k0 | apply kept_lockPll k1 | apply holds_if | intro _

theorem kept_clkReassert (kp : Kept [.regs, .events, .time, .host] P) (s : State) (hP : Holds P s) :
    Holds P (clkReassert s) := by
  have k0 : Kept [.regs, .events, .time, .host] P := kp.mono (by decide)
  unfold clkReassert
  dsimp only
  repeat' with_reducible first
    | exact hP | assumption | apply kept_clkStick k0 | apply holds_if | intro _

theorem kept_doSscApply (kp : Kept [.clock] P) (v : Word) (s : State) (hP : Holds P s) :
    Holds P (doSscApply v s) := by
  have k0 : Kept [.clock] P := kp.mono (by decide)
  unfold doSscApply
  repeat' with_reducible first
    | exact hP | assumption | apply kept_modClock k0 | apply holds_if | intro _

theorem kept_newRun (kp : Kept [.regs, .clock] P) (c : Word) (s : State) (hP : Holds P s) :
    Holds P (newRun c s) := by
  have k0 : Kept [.clock] P := kp.mono (by decide)
  have k1 : Kept [.regs] P := kp.mono (by decide)
  unfold newRun
  repeat' with_reducible first
    | exact hP | assumption | apply kept_modClock k0 | apply kept_setClk k1 | apply kept_wr k1

theorem kept_doProfileOrigin (kp : Kept [.regs, .clock] P) (s : State) (hP : Holds P s) :
    Holds P (doProfileOrigin s) := by
  have k0 : Kept [.regs] P := kp.mono (by decide)
  have k1 : Kept [.clock] P := kp.mono (by decide)
  have k2 : Kept [.regs, .clock] P := kp.mono (by decide)
  unfold doProfileOrigin
  dsimp only
  repeat' with_reducible first
    | exact hP | assumption | apply kept_wr k0 | apply kept_modClock k1 | apply kept_newRun k2 | apply holds_if
    | split | intro _

theorem kept_doRefSelWrite (kp : Kept [.regs, .events, .clock, .time, .host] P) (v : Word) (s : State) (hP : Holds P s) :
    Holds P (doRefSelWrite v s) := by
  have k0 : Kept [.regs, .events, .time, .host] P := kp.mono (by decide)
  have k1 : Kept [.regs] P := kp.mono (by decide)
  have k2 : Kept [.regs, .events, .clock, .time, .host] P := kp.mono (by decide)
  have k3 : Kept [.clock] P := kp.mono (by decide)
  unfold doRefSelWrite
  dsimp only
  repeat' with_reducible first
    | exact hP | assumption | apply kept_clkStick k0 | apply kept_wr k1 | apply kept_clampSeen k0
    | apply kept_refBack k2 | apply kept_modClock k3 | apply holds_if | intro _

theorem kept_doClkMon (kp : KeptDev [.regs, .events, .dev, .groups, .links, .mod, .gorse, .time, .meas, .host, .power] P) (edgeClk : Bool)
    (s : State) (hP : Holds P s) :
    Holds P (doClkMon edgeClk s) := by
  have k0 : KeptDev [.regs, .events, .dev, .groups, .links, .mod, .gorse, .time, .meas, .host, .power] P := kp.mono (by decide)
  have k1 : Kept [.regs, .events, .links, .mod, .gorse, .time, .host] P := kp.toKept.mono (by decide)
  unfold doClkMon
  repeat' with_reducible first
    | exact hP | assumption | apply kept_bRise k0 | apply kept_safeRow k1

theorem kept_recSample (kp : Kept [.dram, .meas] P) (eff : Nat → Int) (flags : Nat) (s : State) (hP : Holds P s) :
    Holds P (recSample eff flags s) := by
  have k0 : Kept [.meas] P := kp.mono (by decide)
  have k1 : Kept [.dram] P := kp.mono (by decide)
  unfold recSample
  dsimp only
  repeat' with_reducible first
    | exact hP | assumption | apply kept_modMeas k0 | apply kept_dramPut k1 | apply holds_if | apply holds_foldl
    | intro _

theorem kept_doRecFreeze (kp : Kept [.regs, .events, .time, .meas, .host] P) (s : State) (hP : Holds P s) :
    Holds P (doRecFreeze s) := by
  have k0 : Kept [.regs, .events, .time, .host] P := kp.mono (by decide)
  have k1 : Kept [.meas] P := kp.mono (by decide)
  have k2 : Kept [.regs, .events] P := kp.mono (by decide)
  unfold doRecFreeze
  dsimp only
  repeat' with_reducible first
    | exact hP | assumption | apply kept_irq k0 | apply kept_modMeas k1 | apply kept_cntUp k2 | apply holds_if
    | split | intro _

theorem kept_doRecForce (kp : Kept [.meas] P) (v : Word) (s : State) (hP : Holds P s) :
    Holds P (doRecForce v s) := by
  have k0 : Kept [.meas] P := kp.mono (by decide)
  unfold doRecForce
  repeat' with_reducible first
    | exact hP | assumption | apply kept_recTrigger k0 | apply holds_if | intro _

theorem kept_doRecRelease (kp : Kept [.meas] P) (v : Word) (s : State) (hP : Holds P s) :
    Holds P (doRecRelease v s) := by
  have k0 : Kept [.meas] P := kp.mono (by decide)
  unfold doRecRelease
  repeat' with_reducible first
    | exact hP | assumption | apply kept_modMeas k0

theorem kept_recApply (kp : Kept [.meas] P) (old new : Word) (s : State) (hP : Holds P s) :
    Holds P (recApply old new s) := by
  have k0 : Kept [.meas] P := kp.mono (by decide)
  unfold recApply
  dsimp only
  repeat' with_reducible first
    | exact hP | assumption | apply kept_modMeas k0 | apply holds_if | intro _

theorem kept_doWaveDumpDone (kp : Kept [.regs, .events, .dram, .time, .host] P) (s : State) (hP : Holds P s) :
    Holds P (doWaveDumpDone s) := by
  have k0 : Kept [.regs, .events, .time, .host] P := kp.mono (by decide)
  have k1 : Kept [.dram] P := kp.mono (by decide)
  unfold doWaveDumpDone
  dsimp only
  repeat' with_reducible first
    | exact hP | assumption | apply kept_endSlot k0 | apply kept_dramPut k1 | apply holds_if | split | intro _

theorem kept_adcLand (kp : Kept [.regs, .events] P) (n data flags : Nat) (s : State) (hP : Holds P s) :
    Holds P (adcLand n data flags s) := by
  have k0 : Kept [.regs, .events] P := kp.mono (by decide)
  unfold adcLand
  dsimp only
  repeat' with_reducible first
    | exact hP | assumption | apply kept_landNew k0

theorem kept_pmuFlag (kp : Kept [.meas] P) (n fl : Nat) (s : State) (hP : Holds P s) :
    Holds P (pmuFlag n fl s) := by
  have k0 : Kept [.meas] P := kp.mono (by decide)
  unfold pmuFlag
  repeat' with_reducible first
    | exact hP | assumption | apply kept_modMeas k0 | apply holds_if | intro _

theorem kept_sampleOne (kp : Kept [.regs, .events, .conv, .time, .meas, .meter, .host, .therm] P) (n : Nat) (code : Int) (s : State)
    (hP : Holds P s) :
    Holds P (sampleOne n code s) := by
  have k0 : Kept [.conv] P := kp.mono (by decide)
  have k1 : Kept [.regs, .events, .time, .host] P := kp.mono (by decide)
  have k2 : Kept [.regs, .events] P := kp.mono (by decide)
  have k3 : Kept [.meas] P := kp.mono (by decide)
  have k4 : Kept [.meter] P := kp.mono (by decide)
  have k5 : Kept [.regs, .events, .time, .host, .therm] P := kp.mono (by decide)
  unfold sampleOne
  dsimp only
  repeat' with_reducible first
    | exact hP | assumption | apply kept_modConv k0 | apply kept_convStick k1 | apply kept_cntSat k2
    | apply kept_pmuFlag k3 | apply kept_meterFlag k4 | apply kept_adcLand k2 | apply kept_histFeed k5
    | apply holds_if | apply holds_forEach | intro _

theorem kept_twPush (kp : Kept [.meas] P) (s : State) (hP : Holds P s) :
    Holds P (twPush s) := by
  have k0 : Kept [.meas] P := kp.mono (by decide)
  unfold twPush
  dsimp only
  repeat' with_reducible first
    | exact hP | assumption | apply kept_modMeas k0 | apply holds_if | split | intro _

theorem kept_doConverterSample (kp : Kept [.regs, .events, .dram, .conv, .time, .meas, .meter, .host, .therm] P) (codes : List Int)
    (s : State) (hP : Holds P s) :
    Holds P (doConverterSample codes s) := by
  have k0 : Kept [.regs, .events, .conv, .time, .meas, .meter, .host, .therm] P := kp.mono (by decide)
  have k1 : Kept [.meas] P := kp.mono (by decide)
  have k2 : Kept [.dram, .meas] P := kp.mono (by decide)
  unfold doConverterSample
  dsimp only
  repeat' with_reducible first
    | exact hP | assumption | apply kept_sampleOne k0 | apply kept_twPush k1 | apply kept_recSample k2
    | apply holds_forEach | apply holds_foldl | intro _

theorem kept_convBoundary (kp : Kept [.regs, .events, .conv, .time, .host, .therm] P) (g : Nat) (s : State) (hP : Holds P s) :
    Holds P (convBoundary g s) := by
  have k0 : Kept [.conv] P := kp.mono (by decide)
  have k1 : Kept [.regs, .events, .time, .host, .therm] P := kp.mono (by decide)
  have k2 : Kept [.regs] P := kp.mono (by decide)
  have k3 : Kept [.regs, .events] P := kp.mono (by decide)
  unfold convBoundary
  dsimp only
  repeat' with_reducible first
    | exact hP | assumption | apply kept_modConv k0 | apply kept_histFeed k1 | apply kept_wr k2
    | apply kept_adcLand k3 | apply holds_if | apply holds_forEach | intro _

theorem kept_doSpotTrig (kp : Kept [.conv] P) (v : Word) (s : State) (hP : Holds P s) :
    Holds P (doSpotTrig v s) := by
  have k0 : Kept [.conv] P := kp.mono (by decide)
  unfold doSpotTrig
  repeat' with_reducible first
    | exact hP | assumption | apply kept_modConv k0

theorem kept_doSpotPeriodicCapture (kp : Kept [.regs, .events] P) (n : Nat) (s : State) (hP : Holds P s) :
    Holds P (doSpotPeriodicCapture n s) := by
  have k0 : Kept [.regs, .events] P := kp.mono (by decide)
  unfold doSpotPeriodicCapture
  repeat' with_reducible first
    | exact hP | assumption | apply kept_adcLand k0 | apply holds_if | intro _

theorem kept_doRefEnWrite (kp : Kept [.regs, .events, .conv, .time, .host] P) (v : Word) (s : State) (hP : Holds P s) :
    Holds P (doRefEnWrite v s) := by
  have k0 : Kept [.regs] P := kp.mono (by decide)
  have k1 : Kept [.conv] P := kp.mono (by decide)
  have k2 : Kept [.regs, .events, .time, .host] P := kp.mono (by decide)
  unfold doRefEnWrite
  repeat' with_reducible first
    | exact hP | assumption | apply kept_wr k0 | apply kept_modConv k1 | apply kept_convStick k2 | apply holds_if
    | intro _

theorem kept_doRefSettled (kp : Kept [.conv] P) (s : State) (hP : Holds P s) :
    Holds P (doRefSettled s) := by
  have k0 : Kept [.conv] P := kp.mono (by decide)
  unfold doRefSettled
  repeat' with_reducible first
    | exact hP | assumption | apply kept_modConv k0 | apply holds_if | intro _

theorem kept_calStart (kp : Kept [.regs, .events, .conv, .time, .host] P) (i : Nat) (s : State) (hP : Holds P s) :
    Holds P (calStart i s) := by
  have k0 : Kept [.regs, .events, .time, .host] P := kp.mono (by decide)
  have k1 : Kept [.conv] P := kp.mono (by decide)
  unfold calStart
  dsimp only
  repeat' with_reducible first
    | exact hP | assumption | apply kept_failSlot k0 | apply kept_modConv k1 | apply holds_if | intro _

theorem kept_calAbandon (kp : Kept [.conv] P) (s : State) (hP : Holds P s) :
    Holds P (calAbandon s) := by
  have k0 : Kept [.conv] P := kp.mono (by decide)
  unfold calAbandon
  repeat' with_reducible first
    | exact hP | assumption | apply kept_modConv k0

theorem kept_doSelfCalCommit (kp : Kept [.regs, .events, .conv, .time, .host] P) (found : List CalFactors) (s : State) (hP : Holds P s) :
    Holds P (doSelfCalCommit found s) := by
  have k0 : Kept [.regs] P := kp.mono (by decide)
  have k1 : Kept [.conv] P := kp.mono (by decide)
  have k2 : Kept [.regs, .events, .time, .host] P := kp.mono (by decide)
  unfold doSelfCalCommit
  dsimp only
  repeat' with_reducible first
    | exact hP | assumption | apply kept_wr k0 | apply kept_calAbandon k1 | apply kept_modConv k1
    | apply kept_endSlot k2 | apply holds_if | apply holds_foldl | split | intro _

theorem kept_doUcalSave (kp : Kept [.conv] P) (v : Word) (s : State) (hP : Holds P s) :
    Holds P (doUcalSave v s) := by
  have k0 : Kept [.conv] P := kp.mono (by decide)
  unfold doUcalSave
  dsimp only
  repeat' with_reducible first
    | exact hP | assumption | apply kept_modConv k0 | apply holds_if | intro _

theorem kept_doUcalSaveDone (kp : Kept [.conv] P) (s : State) (hP : Holds P s) :
    Holds P (doUcalSaveDone s) := by
  have k0 : Kept [.conv] P := kp.mono (by decide)
  unfold doUcalSaveDone
  repeat' with_reducible first
    | exact hP | assumption | apply kept_modConv k0 | apply holds_if | intro _

theorem kept_loadReg (kp : Kept [.regs, .force, .dirty] P) (a : Nat) (v : Word) (s : State) (hP : Holds P s) :
    Holds P (loadReg a v s) := by
  have k0 : Kept [.force] P := kp.mono (by decide)
  have k1 : Kept [.regs] P := kp.mono (by decide)
  have k2 : Kept [.dirty] P := kp.mono (by decide)
  unfold loadReg
  dsimp only
  repeat' with_reducible first
    | exact hP | assumption | apply kept_setFo k0 | apply kept_wr k1 | apply kept_dirtySet k2

theorem kept_ucalLoad (kp : Kept [.regs, .force, .dirty, .conv] P) (s : State) (hP : Holds P s) :
    Holds P (ucalLoad s) := by
  have k0 : Kept [.regs, .force, .dirty] P := kp.mono (by decide)
  have k1 : Kept [.conv] P := kp.mono (by decide)
  unfold ucalLoad
  dsimp only
  repeat' with_reducible first
    | exact hP | assumption | apply kept_loadReg k0 | apply kept_modConv k1 | apply holds_if | apply holds_forEach
    | intro _

theorem kept_capture (kp : Kept [.regs, .events, .time, .meas, .host] P) (k c : Nat) (leaving : Bool) (s : State) (hP : Holds P s) :
    Holds P (capture k c leaving s) := by
  have k0 : Kept [.meas] P := kp.mono (by decide)
  have k1 : Kept [.regs, .events, .time, .host] P := kp.mono (by decide)
  have k2 : Kept [.regs, .events] P := kp.mono (by decide)
  have k3 : Kept [.regs] P := kp.mono (by decide)
  unfold capture
  dsimp only
  repeat' with_reducible first
    | exact hP | assumption | apply kept_recTrigger k0 | apply kept_irq k1 | apply kept_landNew k2 | apply kept_wr k3

theorem kept_wcOutput (kp : Kept [.regs, .events, .time, .meas, .host, .power] P) (c : Nat) (out : Bool) (s : State) (hP : Holds P s) :
    Holds P (wcOutput c out s) := by
  have k0 : Kept [.regs, .events, .time, .host] P := kp.mono (by decide)
  have k1 : Kept [.regs, .events, .time, .meas, .host] P := kp.mono (by decide)
  have k2 : Kept [.power] P := kp.mono (by decide)
  unfold wcOutput
  dsimp only
  repeat' with_reducible first
    | exact hP | assumption | apply kept_stick k0 | apply kept_irq k0 | apply kept_capture k1 | apply kept_wake k2
    | apply holds_if | intro _

theorem kept_wcSet (kp : Kept [.regs, .events, .conv, .time, .meas, .host, .power] P) (c : Nat) (above below : Bool) (s : State) (hP : Holds P s) :
    Holds P (wcSet c above below s) := by
  have k0 : Kept [.conv] P := kp.mono (by decide)
  have k1 : Kept [.regs, .events, .time, .meas, .host, .power] P := kp.mono (by decide)
  unfold wcSet
  dsimp only
  repeat' with_reducible first
    | exact hP | assumption | apply kept_modCmp k0 | apply kept_wcOutput k1 | apply holds_if | intro _

theorem kept_doWcCrossing (kp : Kept [.regs, .events, .conv, .time, .meas, .host, .power] P) (c : Nat) (x : Crossing) (s : State) (hP : Holds P s) :
    Holds P (doWcCrossing c x s) := by
  have k0 : Kept [.regs, .events, .conv, .time, .meas, .host, .power] P := kp.mono (by decide)
  unfold doWcCrossing
  dsimp only
  repeat' with_reducible first
    | exact hP | assumption | apply kept_wcSet k0 | apply holds_if | split | intro _

theorem kept_doWcSettled (kp : Kept [.regs, .events, .conv, .time, .meas, .host, .power] P) (c : Nat) (uV : Int) (s : State) (hP : Holds P s) :
    Holds P (doWcSettled c uV s) := by
  have k0 : Kept [.conv] P := kp.mono (by decide)
  have k1 : Kept [.regs, .events, .conv, .time, .meas, .host, .power] P := kp.mono (by decide)
  have k2 : Kept [.regs, .events, .time, .host] P := kp.mono (by decide)
  unfold doWcSettled
  dsimp only
  repeat' with_reducible first
    | exact hP | assumption | apply kept_modCmp k0 | apply kept_wcSet k1 | apply kept_stick k2 | apply holds_if
    | intro _

theorem kept_wcChanged (kp : Kept [.regs, .events, .conv, .time, .meas, .host, .power] P) (c : Nat) (was : Bool) (s : State) (hP : Holds P s) :
    Holds P (wcChanged c was s) := by
  have k0 : Kept [.regs, .events, .conv, .time, .meas, .host, .power] P := kp.mono (by decide)
  have k1 : Kept [.conv] P := kp.mono (by decide)
  unfold wcChanged
  dsimp only
  repeat' with_reducible first
    | exact hP | assumption | apply kept_wcSet k0 | apply kept_modCmp k1 | apply holds_if | intro _

theorem kept_wcApplyCfg (kp : Kept [.regs, .events, .force, .conv, .time, .meas, .host, .power] P) (c : Nat) (v : Word) (s : State) (hP : Holds P s) :
    Holds P (wcApplyCfg c v s) := by
  have k0 : Kept [.regs, .events, .conv, .time, .meas, .host, .power] P := kp.mono (by decide)
  have k1 : Kept [.regs, .events, .time, .host] P := kp.mono (by decide)
  have k2 : Kept [.force] P := kp.mono (by decide)
  have k3 : Kept [.regs] P := kp.mono (by decide)
  unfold wcApplyCfg
  dsimp only
  repeat' with_reducible first
    | exact hP | assumption | apply kept_wcChanged k0 | apply kept_convStick k1 | apply kept_setFo k2
    | apply kept_wr k3 | apply holds_if | intro _

theorem kept_wcLoad (kp : Kept [.regs, .events, .force, .dirty, .conv, .time, .meas, .host, .power] P) (m : MeasContent) (s : State)
    (hP : Holds P s) :
    Holds P (wcLoad m s) := by
  have k0 : Kept [.regs, .events, .conv, .time, .meas, .host, .power] P := kp.mono (by decide)
  have k1 : Kept [.regs, .force, .dirty] P := kp.mono (by decide)
  unfold wcLoad
  dsimp only
  repeat' with_reducible first
    | exact hP | assumption | apply kept_wcChanged k0 | apply kept_loadReg k1 | apply holds_forEach | intro _

theorem kept_doRbCtrl (kp : Kept [.regs, .events, .conv, .time, .host] P) (v : Word) (s : State) (hP : Holds P s) :
    Holds P (doRbCtrl v s) := by
  have k0 : Kept [.regs, .events, .time, .host] P := kp.mono (by decide)
  have k1 : Kept [.regs] P := kp.mono (by decide)
  have k2 : Kept [.conv] P := kp.mono (by decide)
  unfold doRbCtrl
  dsimp only
  repeat' with_reducible first
    | exact hP | assumption | apply kept_convStick k0 | apply kept_wr k1 | apply kept_modConv k2
    | apply kept_clampSeen k0 | apply holds_if | intro _

theorem kept_doReadbackDone (kp : Kept [.regs, .conv] P) (levels : List Int) (s : State) (hP : Holds P s) :
    Holds P (doReadbackDone levels s) := by
  have k0 : Kept [.regs] P := kp.mono (by decide)
  have k1 : Kept [.conv] P := kp.mono (by decide)
  unfold doReadbackDone
  repeat' with_reducible first
    | exact hP | assumption | apply kept_wr k0 | apply kept_modConv k1 | split

theorem kept_cmpTestStart (kp : Kept [.conv] P) (i : Nat) (s : State) (hP : Holds P s) :
    Holds P (cmpTestStart i s) := by
  have k0 : Kept [.conv] P := kp.mono (by decide)
  unfold cmpTestStart
  dsimp only
  repeat' with_reducible first
    | exact hP | assumption | apply kept_modConv k0

theorem kept_doCmpSelftestDone (kp : Kept [.regs, .events, .conv, .time, .host] P) (res : Nat) (s : State) (hP : Holds P s) :
    Holds P (doCmpSelftestDone res s) := by
  have k0 : Kept [.regs, .events, .time, .host] P := kp.mono (by decide)
  have k1 : Kept [.conv] P := kp.mono (by decide)
  have k2 : Kept [.regs] P := kp.mono (by decide)
  unfold doCmpSelftestDone
  dsimp only
  repeat' with_reducible first
    | exact hP | assumption | apply kept_endSlot k0 | apply kept_modConv k1 | apply kept_wr k2 | apply holds_if
    | apply holds_foldl | split

end Sys2Proof.Laws
end

