-- ==== Sys2Proof/Laws/KeptCommands.lean ====
section
/-! SUPPORT. What images, commits, protection, operations, the network, power and the interfaces keep: one lemma per
operation. -/

namespace Sys2Proof.Laws

open Sys2Proof Sys2Proof.Machine

variable {P : State → Prop}

theorem kept_loadDash (kp : Kept [.regs, .force, .dirty] P) (swap : Bool) (mask a : Nat) (v : Word) (s : State) (h : Holds P s) :
    Holds P (loadDash swap mask a v s) := by
  unfold loadDash
  extract_lets put keep s1
  have h1 : Holds P s1 := kept_setFo (kp.mono (by decide)) _ _ _ (holds_if (fun _ => h) (fun _ => kept_wr (kp.mono (by decide)) _ _ _ h))
  exact holds_if (fun _ => h1) (fun _ => kept_dirtySet (kp.mono (by decide)) _ _ h1)

theorem kept_loadMod (kp : Kept [.regs, .force, .dirty, .mod] P) (swap : Bool) (m : ModContent) (s : State) (h : Holds P s) :
    Holds P (loadMod swap m s) := by
  have hd := fun b a c v s (h : Holds P s) => kept_loadDash (kp.mono (by decide)) b a c v s h
  unfold loadMod
  extract_lets s1 mask s2 s3 s4
  have h1 : Holds P s1 := holds_foldl _ (fun s p h => hd _ _ _ _ _ h) _ _ h
  have h2 : Holds P s2 := kept_modMod (kp.mono (by decide)) _ _ (fun _ => Nat.and_self _) h1
  have h3 : Holds P s3 := holds_foldl _ (fun s p h => hd _ _ _ _ _ h) _ _ h2
  have h4 : Holds P s4 :=
    holds_foldl _ (fun s p h => hd _ _ _ _ _ (hd _ _ _ _ _ (hd _ _ _ _ _ (hd _ _ _ _ _ h)))) _ _ h3
  exact holds_foldl _ (fun s p h => hd _ _ _ _ _ (hd _ _ _ _ _ (hd _ _ _ _ _ (hd _ _ _ _ _ h)))) _ _ h4

theorem kept_regsForceClr (kp : Kept [.regs, .force] P) (lo hi : Nat) (s : State) (h : Holds P s) :
    Holds P { s with regs := tclr s.regs lo hi, force := tclr s.force lo hi } :=
  kp.forceClr (by decide) _ lo hi (kp.regsClr (by decide) s lo hi h)

theorem kept_loadWindow (kp : Kept [.regs, .force, .dirty] P) (base n : Nat) (ws : Tbl Word) (s : State) (h : Holds P s) :
    Holds P (loadWindow base n ws s) := by
  unfold loadWindow
  extract_lets s1
  have h1 : Holds P s1 := kept_regsForceClr (kp.mono (by decide)) _ _ _ h
  exact holds_foldl _ (fun s p h => holds_if (fun _ => kept_loadReg (kp.mono (by decide)) _ _ _ h) (fun _ => h)) _ _ h1

theorem kept_loadUnit (kp : Kept [.regs, .events, .force, .dirty, .time, .host] P) (swap : Bool) (u : Nat) (c : UnitCfg) (s : State) (h : Holds P s) :
    Holds P (loadUnit swap u c s) := by
  have hw := fun b n w s (h : Holds P s) => kept_loadWindow (kp.mono (by decide)) b n w s h
  unfold loadUnit
  extract_lets lost own s1 s2
  have h1 : Holds P s1 := by
    refine holds_if (fun _ => ?_) (fun _ => h)
    exact holds_foldl _ (fun s a h => holds_if (fun _ => kept_wr (kp.mono (by decide)) _ _ _ h) (fun _ => h)) _ _ (kept_dirtySet (kp.mono (by decide)) _ _ h)
  have h2 : Holds P s2 := hw _ _ _ _ (hw _ _ _ _ (hw _ _ _ _ (hw _ _ _ _ (hw _ _ _ _ h1))))
  exact holds_if (fun _ => kept_dmkFlag (kp.mono (by decide)) _ _ h2) (fun _ => h2)

theorem kept_loadCtrl (kp : Kept [.regs, .events, .force, .dirty, .time, .host] P) (swap : Bool) (t : Nat) (c : CtrlContent) (s : State)
    (hP : Holds P s) :
    Holds P (loadCtrl swap t c s) := by
  have k0 : Kept [.regs, .events, .force, .dirty, .time, .host] P := kp.mono (by decide)
  unfold loadCtrl
  repeat' with_reducible first
    | exact hP | assumption | apply kept_loadUnit k0

theorem kept_loadMeter (kp : Kept [.regs, .force, .dirty] P) (m : MeterContent) (s : State) (hP : Holds P s) :
    Holds P (loadMeter m s) := by
  have k0 : Kept [.regs, .force, .dirty] P := kp.mono (by decide)
  unfold loadMeter
  dsimp only
  repeat' with_reducible first
    | exact hP | assumption | apply kept_loadReg k0 | apply holds_forEach | intro _

theorem kept_loadTile (kp : Kept [.regs, .events, .force, .dirty, .mod, .conv, .time, .meas, .host, .power] P) (swap : Bool) (t : Nat)
    (s : State) (hP : Holds P s) :
    Holds P (loadTile swap t s) := by
  have k0 : Kept [.regs, .force, .dirty, .mod] P := kp.mono (by decide)
  have k1 : Kept [.regs, .events, .force, .dirty, .time, .host] P := kp.mono (by decide)
  have k2 : Kept [.regs, .events, .force, .dirty, .conv, .time, .meas, .host, .power] P := kp.mono (by decide)
  have k3 : Kept [.regs, .force, .dirty] P := kp.mono (by decide)
  unfold loadTile
  dsimp only
  repeat' with_reducible first
    | exact hP | assumption | apply kept_loadMod k0 | apply kept_loadCtrl k1 | apply kept_wcLoad k2
    | apply kept_loadMeter k3 | apply holds_if | split | intro _

theorem kept_loadNext (kp : Kept [.regs, .events, .damask, .time, .host] P) (s : State) (hP : Holds P s) :
    Holds P (loadNext s) := by
  have k0 : Kept [.regs, .events, .damask, .time, .host] P := kp.mono (by decide)
  have k1 : Kept [.damask] P := kp.mono (by decide)
  unfold loadNext
  dsimp only
  repeat' with_reducible first
    | exact hP | assumption | apply kept_failLoad k0 | apply kept_setTile k0 | apply kept_modTile k1 | apply holds_if
    | split | intro _

theorem kept_shadowEnter (kp : Kept [.regs, .events, .damask, .time, .host] P) (t : Nat) (s : State) (hP : Holds P s) :
    Holds P (shadowEnter t s) := by
  have k0 : Kept [.regs, .events, .damask, .time, .host] P := kp.mono (by decide)
  have k1 : Kept [.damask] P := kp.mono (by decide)
  unfold shadowEnter
  repeat' with_reducible first
    | exact hP | assumption | apply kept_setTile k0 | apply kept_modTile k1

theorem kept_loadEnd (kp : Kept [.regs, .events, .damask, .time, .host] P) (s : State) (hP : Holds P s) :
    Holds P (loadEnd s) := by
  have k0 : Kept [.damask] P := kp.mono (by decide)
  have k1 : Kept [.regs, .events, .damask, .time, .host] P := kp.mono (by decide)
  have k2 : Kept [.regs, .events, .time, .host] P := kp.mono (by decide)
  unfold loadEnd
  dsimp only
  repeat' with_reducible first
    | exact hP | assumption | apply kept_modDamask k0 | apply kept_shadowEnter k1 | apply kept_endSlot k2
    | apply holds_if | apply holds_forEach | split | intro _

theorem kept_loadAdvance (kp : Kept [.regs, .events, .damask, .time, .host] P) (doneTile : Option Nat) (s : State) (hP : Holds P s) :
    Holds P (loadAdvance doneTile s) := by
  have k0 : Kept [.damask] P := kp.mono (by decide)
  have k1 : Kept [.regs, .events, .damask, .time, .host] P := kp.mono (by decide)
  unfold loadAdvance
  dsimp only
  repeat' with_reducible first
    | exact hP | assumption | apply kept_modDamask k0 | apply kept_loadEnd k1 | apply kept_loadNext k1
    | apply holds_if | split | intro _

theorem kept_doSectionProgramDone (kp : Kept [.regs, .events, .damask, .time, .host] P) (t : Nat) (readbackOk : Bool) (s : State) (hP : Holds P s) :
    Holds P (doSectionProgramDone t readbackOk s) := by
  have k0 : Kept [.regs, .events, .damask, .time, .host] P := kp.mono (by decide)
  have k1 : Kept [.damask] P := kp.mono (by decide)
  unfold doSectionProgramDone
  dsimp only
  repeat' with_reducible first
    | exact hP | assumption | apply kept_loadAdvance k0 | apply kept_failLoad k0 | apply kept_modTile k1
    | apply holds_if | split | intro _

theorem kept_loadRefuse (kp : Kept [.regs, .events, .damask, .time, .host] P) (sl : Option Nat) (r : Nat × Nat) (s : State) (hP : Holds P s) :
    Holds P (loadRefuse sl r s) := by
  have k0 : Kept [.regs, .events, .time, .host] P := kp.mono (by decide)
  have k1 : Kept [.damask] P := kp.mono (by decide)
  unfold loadRefuse
  repeat' with_reducible first
    | exact hP | assumption | apply kept_failSlot k0 | apply kept_modDamask k1 | apply kept_bootFail k1
    | apply holds_if | split | intro _

theorem kept_loadStart (kp : Kept [.regs, .events, .damask, .time, .host] P) (sl : Option Nat) (off mask : Nat) (cold : Bool) (s : State)
    (hP : Holds P s) :
    Holds P (loadStart sl off mask cold s) := by
  have k0 : Kept [.regs, .events, .damask, .time, .host] P := kp.mono (by decide)
  have k1 : Kept [.damask] P := kp.mono (by decide)
  unfold loadStart
  dsimp only
  repeat' with_reducible first
    | exact hP | assumption | apply kept_loadRefuse k0 | apply kept_modDamask k1 | apply kept_loadEnd k0
    | apply kept_loadNext k0 | apply kept_damaskSet k1 | apply holds_if | split | intro _

theorem kept_takeIdentity (kp : Kept [.regs, .damask, .eth] P) (b : List Byte) (s : State) (hP : Holds P s) :
    Holds P (takeIdentity b s) := by
  have k0 : Kept [.eth] P := kp.mono (by decide)
  have k1 : Kept [.regs] P := kp.mono (by decide)
  have k2 : Kept [.damask] P := kp.mono (by decide)
  unfold takeIdentity
  dsimp only
  repeat' with_reducible first
    | exact hP | assumption | apply kept_modEth k0 | apply kept_wr k1 | apply kept_modDamask k2 | apply holds_if
    | intro _

theorem kept_meterRestore (kp : Kept [.regs, .events, .time, .meter, .host] P) (s : State) (hP : Holds P s) :
    Holds P (meterRestore s) := by
  have k0 : Kept [.meter] P := kp.mono (by decide)
  have k1 : Kept [.regs, .events, .time, .host] P := kp.mono (by decide)
  unfold meterRestore
  dsimp only
  repeat' with_reducible first
    | exact hP | assumption | apply kept_modMeter k0 | apply kept_meterStick k1 | apply holds_if | apply holds_foldl
    | split | intro _

theorem kept_activateImage (kp : Kept [.regs, .events, .force, .dirty, .dev, .groups, .present, .damask, .links, .mod, .units, .gorse, .conv, .time, .eth, .meas, .meter, .host, .power] P) (ld : Load) (s : State) (hr : ∀ t, P t → P { t with dev := .run })
    (ht : ∀ t, P t → P { t with dev := .tripped }) (h : Holds P s) : Holds P (activateImage ld s) := by
  unfold activateImage
  extract_lets b s1 s2 s3 s4 s5 s6 s7 s8 s9 s10 s11 s12 s13
  have h1 : Holds P s1 := holds_forEach _ (fun _ _ h => kept_setTile (kp.mono (by decide)) _ _ _ (kept_modTile (kp.mono (by decide)) _ _ _ h)) _ _ h
  have h2 : Holds P s2 := kept_takeIdentity (kp.mono (by decide)) _ _ h1
  have h3 : Holds P s3 := kept_modDamask (kp.mono (by decide)) _ _ h2
  have h4 : Holds P s4 := kept_wr (kp.mono (by decide)) _ _ _ (kept_wr (kp.mono (by decide)) _ _ _ (kept_wr (kp.mono (by decide)) _ _ _ h3))
  have h5 : Holds P s5 := kept_modMeas (kp.mono (by decide)) _ _ (kp.groups (by decide) { s4 with present := presentMask s4 } _ (kp.present (by decide) _ _ h4))
  have h6 : Holds P s6 := holds_forEach _ (fun _ _ h => kept_loadTile (kp.mono (by decide)) _ _ _ h) _ _ h5
  have h7 : Holds P s7 := holds_forEach _ (fun _ _ h => kept_modGroup (kp.mono (by decide)) _ _ _ h) _ _ h6
  have h8 : Holds P s8 := holds_forEach _ (fun _ _ h => kept_unitInit (kp.mono (by decide)) _ _ h) _ _ h7
  have h9 : Holds P s9 := holds_if (fun _ => kept_meterRestore (kp.mono (by decide)) _ (kept_ucalLoad (kp.mono (by decide)) _ h8)) (fun _ => kept_ucalLoad (kp.mono (by decide)) _ h8)
  have h10 : Holds P s10 := kept_logEv (kp.mono (by decide)) _ _ _ h9
  have h12 : Holds P s12 := kept_scUpdate (kp.mono (by decide)) _ (kept_modGorse (kp.mono (by decide)) _ _ h10)
  have h13 : Holds P s13 := by
    unfold s13
    split
    · exact kept_endSlot (kp.mono (by decide)) _ _ _ _ h12
    · exact h12
  have h14 : Holds P (forEach [36, 37] blockWz s13) := holds_forEach _ (fun _ _ h => kept_blockWz (kp.mono (by decide)) _ _ h) _ _ h13
  exact holds_if (fun _ => kept_enterRun (kp.mono (by decide)) _ hr h13) (fun _ => kept_setDev (kp.mono (by decide)) _ _ (ht _ h14) h14)

theorem kept_doImageActivation (kp : Kept [.regs, .events, .force, .dirty, .dev, .groups, .present, .damask, .links, .mod, .units, .gorse, .conv, .time, .eth, .meas, .meter, .host, .power] P) (s : State) (hr : ∀ t, P t → P { t with dev := .run })
    (ht : ∀ t, P t → P { t with dev := .tripped }) (h : Holds P s) : Holds P (doImageActivation s) := by
  unfold doImageActivation
  split
  · exact h
  · extract_lets role sel bad
    exact holds_if (fun _ => holds_if (fun _ => kept_failLoad (kp.mono (by decide)) _ _ _ h) (fun _ => holds_if
      (fun _ => holds_forEach _ (fun _ _ h => kept_protoStick (kp.mono (by decide)) _ _ _ h) _ _ h)
      (fun _ => kept_activateImage (kp.mono (by decide)) _ _ hr ht h))) (fun _ => h)

theorem kept_unitSwap (kp : Kept [.units] P) (t v : Nat) (old : Tile) (s : State) (hP : Holds P s) :
    Holds P (unitSwap t v old s) := by
  have k0 : Kept [.units] P := kp.mono (by decide)
  unfold unitSwap
  dsimp only
  repeat' with_reducible first
    | exact hP | assumption | apply kept_modUnit k0

theorem kept_swapPerform
    (kp : Kept [.regs, .events, .force, .dirty, .damask, .mod, .units, .gorse, .conv, .time, .meas, .meter, .host, .power] P) (s : State) (hP : Holds P s) :
    Holds P (swapPerform s) := by
  have k0 : Kept [.regs, .events, .damask, .time, .host] P := kp.mono (by decide)
  have k1 : Kept [.damask] P := kp.mono (by decide)
  have k2 : Kept [.regs, .events, .force, .dirty, .mod, .conv, .time, .meas, .host, .power] P := kp.mono (by decide)
  have k3 : Kept [.units] P := kp.mono (by decide)
  have k4 : Kept [.mod] P := kp.mono (by decide)
  have k5 : Kept [.gorse] P := kp.mono (by decide)
  have k6 : Kept [.meas] P := kp.mono (by decide)
  have k7 : Kept [.meter] P := kp.mono (by decide)
  unfold swapPerform
  dsimp only
  repeat' with_reducible first
    | exact hP | assumption | apply kept_setTile k0 | apply kept_modTile k1 | apply kept_modDamask k1
    | apply kept_loadTile k2 | apply kept_unitSwap k3 | exact fun _ => Nat.and_self _ | exact fun _ => Nat.zero_and _
    | exact fun _ => and_mask _ _ | apply kept_modMod k4 | apply kept_modGorse k5 | apply kept_cfgMark k6
    | apply kept_modMeter k7 | apply kept_endSwap k0 | apply kept_scUpdate k5 | apply holds_if | apply holds_forEach
    | split | intro _

theorem kept_swapStart
    (kp : Kept [.regs, .events, .force, .dirty, .damask, .mod, .units, .gorse, .conv, .time, .meas, .meter, .host, .power] P) (i : Nat) (s : State) (hP : Holds P s) :
    Holds P (swapStart i s) := by
  have k0 : Kept [.regs, .events, .time, .host] P := kp.mono (by decide)
  have k1 : Kept [.damask] P := kp.mono (by decide)
  have k2 : Kept [.regs, .events, .damask, .time, .host] P := kp.mono (by decide)
  have k3 : Kept [.regs, .events, .force, .dirty, .damask, .mod, .units, .gorse, .conv, .time, .meas, .meter, .host, .power] P := kp.mono (by decide)
  unfold swapStart
  dsimp only
  repeat' with_reducible first
    | exact hP | assumption | apply kept_failSlot k0 | apply kept_modTile k1 | apply kept_setTile k2
    | apply kept_modDamask k1 | apply kept_swapPerform k3 | apply holds_if | apply holds_forEach | split | intro _

theorem kept_suspendSlot (kp : Kept [.regs, .events, .time, .host] P) (i : Nat) (s : State) (hP : Holds P s) :
    Holds P (suspendSlot i s) := by
  have k0 : Kept [.regs, .events, .time, .host] P := kp.mono (by decide)
  have k1 : Kept [.host] P := kp.mono (by decide)
  unfold suspendSlot
  repeat' with_reducible first
    | exact hP | assumption | apply kept_opEvent k0 | apply kept_modSlot k1

theorem kept_swapCutoff (kp : Kept [.regs, .events, .damask, .time, .host] P) (g : Nat) (s : State) (hP : Holds P s) :
    Holds P (swapCutoff g s) := by
  have k0 : Kept [.regs, .events, .time, .host] P := kp.mono (by decide)
  have k1 : Kept [.regs, .events, .damask, .time, .host] P := kp.mono (by decide)
  have k2 : Kept [.damask] P := kp.mono (by decide)
  unfold swapCutoff
  dsimp only
  repeat' with_reducible first
    | exact hP | assumption | apply kept_suspendSlot k0 | apply kept_setTile k1 | apply kept_modDamask k2
    | apply holds_if | apply holds_forEach | split | intro _

theorem kept_swapCount (kp : Kept [.regs, .events, .damask, .time, .host] P) (w : Swap) (s : State) (hP : Holds P s) :
    Holds P (swapCount w s) := by
  have k0 : Kept [.regs, .events, .time, .host] P := kp.mono (by decide)
  have k1 : Kept [.damask] P := kp.mono (by decide)
  have k2 : Kept [.regs, .events, .damask, .time, .host] P := kp.mono (by decide)
  unfold swapCount
  dsimp only
  repeat' with_reducible first
    | exact hP | assumption | apply kept_suspendSlot k0 | apply kept_modDamask k1 | apply kept_modTile k1
    | apply kept_failSwap k2 | apply holds_if | apply holds_forEach | intro _

theorem kept_damaskBoundary (kp : Kept [.regs, .events, .damask, .time, .host] P) (g : Nat) (s : State) (hP : Holds P s) :
    Holds P (damaskBoundary g s) := by
  have k0 : Kept [.regs, .events, .damask, .time, .host] P := kp.mono (by decide)
  unfold damaskBoundary
  dsimp only
  repeat' with_reducible first
    | exact hP | assumption | apply kept_shadowEnter k0 | apply kept_swapCount k0 | apply holds_if
    | apply holds_forEach | split | intro _

theorem kept_swapResume (kp : Kept [.damask] P) (s : State) (hP : Holds P s) :
    Holds P (swapResume s) := by
  have k0 : Kept [.damask] P := kp.mono (by decide)
  unfold swapResume
  dsimp only
  repeat' with_reducible first
    | exact hP | assumption | apply kept_modTile k0 | apply kept_modDamask k0 | apply holds_forEach | split | intro _

theorem kept_shadowLost (kp : Kept [.regs, .events, .damask, .time, .host] P) (code t : Nat) (s : State) (hP : Holds P s) :
    Holds P (shadowLost code t s) := by
  have k0 : Kept [.regs, .events, .damask, .time, .host] P := kp.mono (by decide)
  have k1 : Kept [.damask] P := kp.mono (by decide)
  unfold shadowLost
  dsimp only
  repeat' with_reducible first
    | exact hP | assumption | apply kept_failSwapOf k0 | apply kept_modDamask k1 | apply kept_setTile k0
    | apply kept_clearShadow k1

theorem kept_doTileDiscard (kp : Kept [.regs, .events, .damask, .time, .host] P) (v : Word) (s : State) (hP : Holds P s) :
    Holds P (doTileDiscard v s) := by
  have k0 : Kept [.regs, .events, .time, .host] P := kp.mono (by decide)
  have k1 : Kept [.regs, .events, .damask, .time, .host] P := kp.mono (by decide)
  have k2 : Kept [.damask] P := kp.mono (by decide)
  unfold doTileDiscard
  repeat' with_reducible first
    | exact hP | assumption | apply kept_dmkFlag k0 | apply kept_shadowLost k1 | apply kept_clearShadow k2
    | apply holds_forEach | split | intro _

theorem kept_scrubOne
    (kp : KeptDev [.regs, .events, .dirty, .dev, .groups, .damask, .links, .mod, .gorse, .time, .meas, .meter, .host, .power] P) (u : Upset) (s : State) (hP : Holds P s) :
    Holds P (scrubOne u s) := by
  have k0 : Kept [.regs, .events] P := kp.toKept.mono (by decide)
  have k1 : Kept [.regs, .events, .time, .host] P := kp.toKept.mono (by decide)
  have k2 : KeptDev [.regs, .events, .dirty, .dev, .groups, .damask, .links, .mod, .gorse, .time, .meas, .meter, .host, .power] P := kp.mono (by decide)
  have k3 : Kept [.damask] P := kp.toKept.mono (by decide)
  have k4 : Kept [.regs, .events, .damask, .time, .host] P := kp.toKept.mono (by decide)
  unfold scrubOne
  dsimp only
  repeat' with_reducible first
    | exact hP | assumption | apply kept_cntUp k0 | apply kept_stick k1 | apply kept_irq k1 | apply kept_tileFault k2
    | apply kept_modTile k3 | apply kept_shadowLost k4 | apply kept_clearShadow k3 | apply holds_if | split | intro _

theorem kept_doScrubSweep
    (kp : KeptDev [.regs, .events, .dirty, .dev, .groups, .damask, .links, .mod, .gorse, .time, .meas, .meter, .host, .power] P) (found : List Upset) (s : State) (hP : Holds P s) :
    Holds P (doScrubSweep found s) := by
  have k0 : KeptDev [.regs, .events, .dirty, .dev, .groups, .damask, .links, .mod, .gorse, .time, .meas, .meter, .host, .power] P := kp.mono (by decide)
  unfold doScrubSweep
  repeat' with_reducible first
    | exact hP | assumption | apply kept_scrubOne k0 | apply holds_foldl | intro _

theorem kept_doKeyProg (kp : Kept [.damask] P) (v : Word) (s : State) (hP : Holds P s) :
    Holds P (doKeyProg v s) := by
  have k0 : Kept [.damask] P := kp.mono (by decide)
  unfold doKeyProg
  dsimp only
  repeat' with_reducible first
    | exact hP | assumption | apply kept_modDamask k0 | apply holds_if | intro _

theorem kept_doKeyProgDone (kp : Kept [.damask] P) (ok : Bool) (s : State) (hP : Holds P s) :
    Holds P (doKeyProgDone ok s) := by
  have k0 : Kept [.damask] P := kp.mono (by decide)
  unfold doKeyProgDone
  repeat' with_reducible first
    | exact hP | assumption | apply kept_modDamask k0 | apply holds_if | intro _

theorem kept_doQspiReadDone (kp : Kept [.regs, .events, .dram, .damask, .time, .host] P) (supported : Bool) (image : List Byte)
    (s : State) (hP : Holds P s) :
    Holds P (doQspiReadDone supported image s) := by
  have k0 : Kept [.damask] P := kp.mono (by decide)
  have k1 : Kept [.regs, .events, .damask, .time, .host] P := kp.mono (by decide)
  have k2 : Kept [.dram] P := kp.mono (by decide)
  unfold doQspiReadDone
  repeat' with_reducible first
    | exact hP | assumption | apply kept_bootFail k0 | apply kept_loadStart k1 | apply kept_dramPut k2
    | apply kept_modDamask k0 | apply holds_if | intro _

theorem kept_requestCommit (kp : Kept [.regs, .events, .groups] P) (g : Nat) (s : State) (hP : Holds P s) :
    Holds P (requestCommit g s) := by
  have k0 : Kept [.regs, .events] P := kp.mono (by decide)
  have k1 : Kept [.groups] P := kp.mono (by decide)
  unfold requestCommit
  dsimp only
  repeat' with_reducible first
    | exact hP | assumption | apply kept_cntUp k0 | apply kept_modGroup k1 | apply holds_if | intro _

theorem kept_doCommitReq (kp : Kept [.regs, .events, .groups, .time, .host] P) (v : Word) (s : State) (hP : Holds P s) :
    Holds P (doCommitReq v s) := by
  have k0 : Kept [.regs, .events, .time, .host] P := kp.mono (by decide)
  have k1 : Kept [.regs, .events, .groups] P := kp.mono (by decide)
  unfold doCommitReq
  repeat' with_reducible first
    | exact hP | assumption | apply kept_stick k0 | apply kept_requestCommit k1 | apply holds_if
    | apply holds_forEach | intro _

theorem kept_takeEnables (kp : Kept [.regs, .events, .groups, .mod, .time, .host] P) (g : Nat) (s : State) (hP : Holds P s) :
    Holds P (takeEnables g s) := by
  have k0 : Kept [.mod] P := kp.mono (by decide)
  have k1 : Kept [.groups] P := kp.mono (by decide)
  have k2 : Kept [.regs, .events, .time, .host] P := kp.mono (by decide)
  unfold takeEnables
  dsimp only
  repeat' with_reducible first
    | exact hP | assumption | exact fun _ => Nat.and_self _ | exact fun _ => Nat.zero_and _
    | exact fun _ => and_mask _ _ | apply kept_modMod k0 | apply kept_modGroup k1 | apply kept_modStick k2
    | apply holds_if | intro _

theorem kept_takeIn (kp : Kept [.regs, .events, .dirty, .groups, .mod, .time, .host] P) (g : Nat) (s : State) (hP : Holds P s) :
    Holds P (takeIn g s) := by
  have k0 : Kept [.groups] P := kp.mono (by decide)
  have k1 : Kept [.regs, .events, .groups, .mod, .time, .host] P := kp.mono (by decide)
  have k2 : Kept [.dirty] P := kp.mono (by decide)
  unfold takeIn
  dsimp only
  repeat' with_reducible first
    | exact hP | assumption | apply kept_modGroup k0 | apply kept_takeEnables k1 | apply kept_dirtySet k2

theorem kept_judgeCommit (kp : Kept [.regs, .events, .dirty, .groups, .mod, .time, .host] P) (g : Nat) (s : State) (hP : Holds P s) :
    Holds P (judgeCommit g s) := by
  have k0 : Kept [.regs, .events] P := kp.mono (by decide)
  have k1 : Kept [.groups] P := kp.mono (by decide)
  have k2 : Kept [.regs, .events, .dirty, .groups, .mod, .time, .host] P := kp.mono (by decide)
  unfold judgeCommit
  repeat' with_reducible first
    | exact hP | assumption | apply kept_cntUp k0 | apply kept_modGroup k1 | apply kept_takeIn k2 | apply holds_if
    | intro _

theorem kept_doCutoff (kp : Kept [.regs, .events, .dirty, .groups, .damask, .links, .mod, .units, .gorse, .time, .host, .therm] P)
    (g : Nat) (s : State) (hP : Holds P s) :
    Holds P (doCutoff g s) := by
  have k0 : Kept [.regs, .events, .time, .host] P := kp.mono (by decide)
  have k1 : Kept [.regs, .events, .damask, .units, .time, .host, .therm] P := kp.mono (by decide)
  have k2 : Kept [.regs, .events, .dirty, .groups, .mod, .time, .host] P := kp.mono (by decide)
  have k3 : Kept [.regs, .events, .damask, .time, .host] P := kp.mono (by decide)
  have k4 : Kept [.regs, .events, .groups, .links, .mod, .time, .host] P := kp.mono (by decide)
  have k5 : Kept [.gorse] P := kp.mono (by decide)
  have k6 : Kept [.groups] P := kp.mono (by decide)
  unfold doCutoff
  dsimp only
  repeat' with_reducible first
    | exact hP | assumption | apply kept_modStick k0 | apply kept_unitsCutoff k1 | apply kept_judgeCommit k2
    | apply kept_swapCutoff k3 | apply kept_edgeCompute k4 | apply kept_modGorse k5 | apply kept_modGroup k6
    | apply holds_if | intro _

theorem kept_applyReg (kp : Kept [.regs, .events, .force, .conv, .time, .meas, .meter, .host, .power] P) (p : Nat × Word) (s : State)
    (hP : Holds P s) :
    Holds P (applyReg p s) := by
  have k0 : Kept [.regs, .events, .force, .conv, .time, .meas, .host, .power] P := kp.mono (by decide)
  have k1 : Kept [.meas] P := kp.mono (by decide)
  have k2 : Kept [.force] P := kp.mono (by decide)
  have k3 : Kept [.regs, .events, .force, .time, .meter, .host] P := kp.mono (by decide)
  have k4 : Kept [.regs] P := kp.mono (by decide)
  unfold applyReg
  dsimp only
  repeat' with_reducible first
    | exact hP | assumption | apply kept_wcApplyCfg k0 | apply kept_recApply k1 | apply kept_setFo k2
    | apply kept_cfgMark k1 | apply kept_meterCfgApply k3 | apply kept_wr k4 | apply holds_if | intro _

theorem kept_commitApply (kp : Kept [.regs, .events, .force, .dirty, .groups, .mod, .units, .conv, .time, .meas, .meter, .host, .power] P) (g : Nat) (s : State) (he : ∀ t x, P t → P { t with mod := x }) (h : Holds P s) :
    Holds P (commitApply g s) := by
  unfold commitApply
  extract_lets x s1 s2
  have h1 : Holds P s1 := kept_banksAt (kp.mono (by decide)) _ _ _ (holds_foldl _ (fun _ _ h => kept_applyReg (kp.mono (by decide)) _ _ h) _ _ h)
  have h2 : Holds P s2 := he _ _ h1
  exact holds_if (fun _ => kept_irq (kp.mono (by decide)) _ _ (kept_modGroup (kp.mono (by decide)) _ _ _ h2)) (fun _ => kept_banksAt (kp.mono (by decide)) _ _ _ h)

theorem kept_midSkip (kp : Kept [.regs, .events, .time, .host] P) (g : Nat) (s : State) (hP : Holds P s) :
    Holds P (midSkip g s) := by
  have k0 : Kept [.regs, .events, .time, .host] P := kp.mono (by decide)
  have k1 : Kept [.regs, .events] P := kp.mono (by decide)
  unfold midSkip
  repeat' with_reducible first
    | exact hP | assumption | apply kept_modStick k0 | apply kept_cntUp k1 | apply holds_if | intro _

theorem kept_purgeReports (kp : Kept [.links] P) (g k : Nat) (s : State) (hP : Holds P s) :
    Holds P (purgeReports g k s) := by
  have k0 : Kept [.links] P := kp.mono (by decide)
  unfold purgeReports
  dsimp only
  repeat' with_reducible first
    | exact hP | assumption | apply kept_modLink k0 | apply holds_if | apply holds_forEach | intro _

theorem kept_mirrorBegin (kp : Kept [.groups] P) (g : Nat) (s : State) (hP : Holds P s) :
    Holds P (mirrorBegin g s) := by
  have k0 : Kept [.groups] P := kp.mono (by decide)
  unfold mirrorBegin
  dsimp only
  repeat' with_reducible first
    | exact hP | assumption | apply kept_modGroup k0

theorem kept_ssPop (kp : Kept [.regs, .events, .groups, .links, .mod, .gorse, .time, .host] P) (s : State) (hP : Holds P s) :
    Holds P (ssPop s) := by
  have k0 : Kept [.gorse] P := kp.mono (by decide)
  have k1 : Kept [.regs, .events, .groups, .links, .mod, .gorse, .time, .host] P := kp.mono (by decide)
  unfold ssPop
  dsimp only
  repeat' with_reducible first
    | exact hP | assumption | apply kept_modGorse k0 | apply kept_ssEnd k1 | apply holds_if | intro _

theorem kept_rampDone (kp : Kept [.regs, .events, .groups, .links, .mod, .gorse, .time, .host] P) (s : State) (hP : Holds P s) :
    Holds P (rampDone s) := by
  have k0 : Kept [.regs, .events, .groups, .links, .mod, .gorse, .time, .host] P := kp.mono (by decide)
  have k1 : Kept [.gorse] P := kp.mono (by decide)
  unfold rampDone
  repeat' with_reducible first
    | exact hP | assumption | apply kept_ssPop k0 | apply kept_modGorse k1 | apply holds_if | split | intro _

theorem kept_doPeriodBoundary (kp : Kept [.regs, .events, .force, .dirty, .groups, .damask, .links, .mod, .units, .gorse, .conv, .time, .meas, .meter, .host, .therm, .power] P) (g : Nat) (s : State) (he : ∀ t x, P t → P { t with mod := x })
    (h : Holds P s) : Holds P (doPeriodBoundary g s) := by
  unfold doPeriodBoundary
  extract_lets x per k tap s1 s2 s3 s4 s5 now s6 s7 s8
  refine holds_if (fun _ => ?_) (fun _ => h)
  have h1 : Holds P s1 := holds_foldl _ (fun _ _ h => kept_setFo (kp.mono (by decide)) _ _ _ h) _ _ h
  have h2 : Holds P s2 := kept_damaskBoundary (kp.mono (by decide)) _ _ (kept_convBoundary (kp.mono (by decide)) _ _ h1)
  have h3 : Holds P s3 := kept_commitApply (kp.mono (by decide)) _ _ he (kept_modGroup (kp.mono (by decide)) _ _ _ h2)
  have h4 : Holds P s4 := holds_forEach _ (fun _ _ h => kept_pairBoundary (kp.mono (by decide)) _ _ _ h) _ _ h3
  have h5 : Holds P s5 := holds_forEach _ (fun _ _ h => kept_modCell (kp.mono (by decide)) _ _ _ (kept_modVCell (kp.mono (by decide)) _ _ _ h)) _ _ h4
  have h6 : Holds P s6 := by
    refine kept_unitsBoundary (kp.mono (by decide)) _ _ _ _ (fun s h => ?_) h5
    split
    · exact kept_swapPerform (kp.mono (by decide)) _ h
    · exact h
  have h7 : Holds P s7 := kept_rampDone (kp.mono (by decide)) _ (kept_rampsLatched (kp.mono (by decide)) _ _ h6)
  have h8 : Holds P s8 := holds_if (fun _ => kept_modGorse (kp.mono (by decide)) _ _ h7) (fun _ => h7)
  exact kept_midSkip (kp.mono (by decide)) _ _ (kept_mirrorBegin (kp.mono (by decide)) _ _ (kept_purgeReports (kp.mono (by decide)) _ _ _ h8))

theorem kept_doMirrorCopyEnd (kp : Kept [.groups] P) (g : Nat) (s : State) (hP : Holds P s) :
    Holds P (doMirrorCopyEnd g s) := by
  have k0 : Kept [.groups] P := kp.mono (by decide)
  unfold doMirrorCopyEnd
  repeat' with_reducible first
    | exact hP | assumption | apply kept_modGroup k0 | apply holds_if | intro _

theorem kept_doMidCutoff (kp : Kept [.regs, .events, .dirty, .groups, .links, .mod, .time, .host] P) (g : Nat) (s : State) (h : Holds P s) : Holds P (doMidCutoff g s) := by
  unfold doMidCutoff
  extract_lets x s0 ws chg val s1 s2
  have h0 : Holds P s0 := kept_modGroup (kp.mono (by decide)) _ _ _ h
  have h1 : Holds P s1 := kept_modGroup (kp.mono (by decide)) _ _ _ (kept_dirtySet (kp.mono (by decide)) _ _ h0)
  have h2 : Holds P s2 := holds_forEach _ (fun _ _ h => holds_if (fun _ => kept_pairMid (kp.mono (by decide)) _ _ _ _ _ h) (fun _ => h)) _ _ h1
  exact holds_if (fun _ => holds_if (fun _ => holds_forEach _
    (fun _ _ h => holds_if (fun _ => kept_cellMid (kp.mono (by decide)) _ _ _ _ _ _ h) (fun _ => h)) _ _ h2) (fun _ => h0)) (fun _ => h)

theorem kept_doMidPeriodTransfer (kp : Kept [.force, .groups, .links] P) (g : Nat) (s : State) (hP : Holds P s) :
    Holds P (doMidPeriodTransfer g s) := by
  have k0 : Kept [.groups] P := kp.mono (by decide)
  have k1 : Kept [.force] P := kp.mono (by decide)
  have k2 : Kept [.links] P := kp.mono (by decide)
  unfold doMidPeriodTransfer
  dsimp only
  repeat' with_reducible first
    | exact hP | assumption | apply kept_modGroup k0 | apply kept_setFo k1 | apply kept_modCell k2
    | apply holds_forEach | apply holds_foldl | intro _

theorem kept_groupCreate (kp : Kept [.groups] P) (g k tap : Nat) (s : State) (hP : Holds P s) :
    Holds P (groupCreate g k tap s) := by
  have k0 : Kept [.groups] P := kp.mono (by decide)
  unfold groupCreate
  repeat' with_reducible first
    | exact hP | assumption | apply kept_modGroup k0

theorem kept_midFirst (kp : Kept [.groups] P) (g : Nat) (s : State) (hP : Holds P s) :
    Holds P (midFirst g s) := by
  have k0 : Kept [.groups] P := kp.mono (by decide)
  unfold midFirst
  dsimp only
  repeat' with_reducible first
    | exact hP | assumption | apply kept_modGroup k0

theorem kept_groupStart (kp : Kept [.regs, .events, .groups, .damask, .units, .time, .host] P) (g : Nat) (s : State) (h : Holds P s) : Holds P (groupStart g s) :=
  kept_midSkip (kp.mono (by decide)) _ _ (kept_mirrorBegin (kp.mono (by decide)) _ _ (kept_unitsBoundary (kp.mono (by decide)) _ _ _ _
    (fun _ h => h) (kept_midFirst (kp.mono (by decide)) _ _ (kept_groupCreate (kp.mono (by decide)) _ _ _ _ h))))

theorem kept_doClockGroupStart (kp : Kept [.regs, .events, .groups, .damask, .units, .time, .host] P) (s : State) (hP : Holds P s) :
    Holds P (doClockGroupStart s) := by
  have k0 : Kept [.regs, .events, .groups, .damask, .units, .time, .host] P := kp.mono (by decide)
  unfold doClockGroupStart
  repeat' with_reducible first
    | exact hP | assumption | apply kept_groupStart k0 | apply holds_if | apply holds_forEach | intro _

theorem kept_doDsatCrossing (kp : KeptDev [.regs, .events, .dev, .groups, .links, .mod, .gorse, .time, .meas, .host, .power] P) (p : Nat)
    (s : State) (hP : Holds P s) :
    Holds P (doDsatCrossing p s) := by
  have k0 : Kept [.mod] P := kp.toKept.mono (by decide)
  have k1 : Kept [.regs, .events] P := kp.toKept.mono (by decide)
  have k2 : KeptDev [.regs, .events, .dev, .groups, .links, .mod, .gorse, .time, .meas, .host, .power] P := kp.mono (by decide)
  unfold doDsatCrossing
  dsimp only
  repeat' with_reducible first
    | exact hP | assumption | apply kept_modPair k0 | apply kept_cntSat k1 | apply kept_bAssert k2 | apply holds_if
    | intro _

theorem kept_undrop (kp : Kept [.regs, .events] P) (s : State) (hP : Holds P s) :
    Holds P (undrop s) := by
  have k0 : Kept [.regs] P := kp.mono (by decide)
  have k1 : Kept [.events] P := kp.mono (by decide)
  unfold undrop
  dsimp only
  repeat' with_reducible first
    | exact hP | assumption | apply kept_wr k0 | apply kept_noteEvent k1 | apply holds_if | intro _

theorem kept_doBlankingEnd (kp : KeptDev [.regs, .events, .dev, .groups, .links, .mod, .gorse, .time, .meas, .host, .power] P) (p : Nat)
    (beyond : Bool) (s : State) (hP : Holds P s) :
    Holds P (doBlankingEnd p beyond s) := by
  have k0 : Kept [.gorse] P := kp.toKept.mono (by decide)
  have k1 : Kept [.mod] P := kp.toKept.mono (by decide)
  have k2 : KeptDev [.regs, .events, .dev, .groups, .links, .mod, .gorse, .time, .meas, .host, .power] P := kp.mono (by decide)
  have k3 : Kept [.regs, .events] P := kp.toKept.mono (by decide)
  unfold doBlankingEnd
  dsimp only
  repeat' with_reducible first
    | exact hP | assumption | apply kept_modGorse k0 | apply kept_modPair k1 | apply kept_bAssert k2
    | apply kept_undrop k3 | apply kept_cntSat k3 | apply holds_if | split | intro _

theorem kept_doCSourceFiltered (kp : KeptDev [.regs, .events, .dev, .groups, .links, .mod, .gorse, .time, .meas, .host, .power] P)
    (n : Nat) (a b : Bool) (s : State) (hP : Holds P s) :
    Holds P (doCSourceFiltered n a b s) := by
  have k0 : Kept [.gorse] P := kp.toKept.mono (by decide)
  have k1 : Kept [.regs, .events, .gorse, .time, .host] P := kp.toKept.mono (by decide)
  have k2 : KeptDev [.regs, .events, .dev, .groups, .links, .mod, .gorse, .time, .meas, .host, .power] P := kp.mono (by decide)
  unfold doCSourceFiltered
  dsimp only
  repeat' with_reducible first
    | exact hP | assumption | apply kept_setLive k0 | apply kept_xchk k1 | apply kept_modGorse k0
    | apply kept_fabric k2 | apply holds_if | intro _

theorem kept_doXchkReplayDone (kp : KeptDev [.regs, .events, .dev, .groups, .damask, .links, .mod, .gorse, .time, .meas, .host, .power] P)
    (aFails bFails : Bool) (s : State) (hP : Holds P s) :
    Holds P (doXchkReplayDone aFails bFails s) := by
  have k0 : Kept [.gorse] P := kp.toKept.mono (by decide)
  have k1 : KeptDev [.regs, .events, .dev, .groups, .damask, .links, .mod, .gorse, .time, .meas, .host, .power] P := kp.mono (by decide)
  have k2 : Kept [.regs, .events, .time, .host] P := kp.toKept.mono (by decide)
  unfold doXchkReplayDone
  dsimp only
  repeat' with_reducible first
    | exact hP | assumption | apply kept_modGorse k0 | apply kept_withdraw k1 | apply kept_gorseStick k2
    | apply holds_if | split | intro _

theorem kept_doGorseSelftest
    (kp : KeptDev [.regs, .events, .dirty, .dev, .groups, .damask, .links, .mod, .gorse, .time, .meas, .meter, .host, .therm, .power] P) (chB pass : Bool) (delayPs : Nat) (s : State) (hP : Holds P s) :
    Holds P (doGorseSelftest chB pass delayPs s) := by
  have k0 : Kept [.regs, .events, .time, .host, .therm] P := kp.toKept.mono (by decide)
  have k1 : Kept [.gorse] P := kp.toKept.mono (by decide)
  have k2 : KeptDev [.regs, .events, .dirty, .dev, .groups, .damask, .links, .mod, .gorse, .time, .meas, .meter, .host, .power] P := kp.mono (by decide)
  have k3 : KeptDev [.regs, .events, .dev, .groups, .damask, .links, .mod, .gorse, .time, .meas, .host, .power] P := kp.mono (by decide)
  unfold doGorseSelftest
  dsimp only
  repeat' with_reducible first
    | exact hP | assumption | apply kept_histFeed k0 | apply kept_modGorse k1 | apply kept_tileFault k2
    | apply kept_withdraw k3 | apply kept_vote k1 | apply holds_if | intro _

theorem kept_doSingleChLimit (kp : KeptDev [.regs, .events, .dev, .groups, .links, .mod, .gorse, .time, .meas, .host, .power] P)
    (s : State) (hP : Holds P s) :
    Holds P (doSingleChLimit s) := by
  have k0 : KeptDev [.regs, .events, .dev, .groups, .links, .mod, .gorse, .time, .meas, .host, .power] P := kp.mono (by decide)
  unfold doSingleChLimit
  repeat' with_reducible first
    | exact hP | assumption | apply kept_bRise k0 | apply holds_if | intro _

theorem kept_doHostTrip (kp : KeptDev [.regs, .events, .dev, .groups, .links, .mod, .gorse, .time, .meas, .host, .power] P) (v : Word)
    (s : State) (hP : Holds P s) :
    Holds P (doHostTrip v s) := by
  have k0 : KeptDev [.regs, .events, .dev, .groups, .links, .mod, .gorse, .time, .meas, .host, .power] P := kp.mono (by decide)
  unfold doHostTrip
  repeat' with_reducible first
    | exact hP | assumption | apply kept_bAssert k0 | apply holds_if | intro _

theorem kept_doHostSafeStop (kp : KeptDev [.regs, .events, .dev, .groups, .links, .mod, .gorse, .time, .meas, .host, .power] P) (v : Word)
    (s : State) (hP : Holds P s) :
    Holds P (doHostSafeStop v s) := by
  have k0 : KeptDev [.regs, .events, .dev, .groups, .links, .mod, .gorse, .time, .meas, .host, .power] P := kp.mono (by decide)
  unfold doHostSafeStop
  repeat' with_reducible first
    | exact hP | assumption | apply kept_bAssert k0 | apply holds_if | intro _

theorem kept_doSafeStop (kp : KeptDev [.regs, .events, .dev, .groups, .links, .mod, .gorse, .time, .meas, .host, .power] P) (v : Word)
    (s : State) (hP : Holds P s) :
    Holds P (doSafeStop v s) := by
  have k0 : Kept [.regs, .events, .time, .host] P := kp.toKept.mono (by decide)
  have k1 : KeptDev [.regs, .events, .dev, .groups, .links, .mod, .gorse, .time, .meas, .host, .power] P := kp.mono (by decide)
  unfold doSafeStop
  repeat' with_reducible first
    | exact hP | assumption | apply kept_irq k0 | apply kept_bAssert k1 | apply holds_if | intro _

theorem kept_doSsStep (kp : Kept [.regs, .events, .groups, .links, .mod, .gorse, .time, .host] P) (s : State) (hP : Holds P s) :
    Holds P (doSsStep s) := by
  have k0 : Kept [.gorse] P := kp.mono (by decide)
  have k1 : Kept [.regs, .events, .groups, .links, .mod, .gorse, .time, .host] P := kp.mono (by decide)
  have k2 : Kept [.mod] P := kp.mono (by decide)
  unfold doSsStep
  dsimp only
  repeat' with_reducible first
    | exact hP | assumption | apply kept_modGorse k0 | apply kept_rampDone k1 | apply kept_ssPop k1
    | exact fun _ => Nat.and_self _ | exact fun _ => Nat.zero_and _ | exact fun _ => and_mask _ _
    | apply kept_modMod k2 | apply holds_if | split | intro _

theorem kept_doSsWaitEnd (kp : Kept [.regs, .events, .groups, .links, .mod, .gorse, .time, .host] P) (s : State) (hP : Holds P s) :
    Holds P (doSsWaitEnd s) := by
  have k0 : Kept [.regs, .events, .groups, .links, .mod, .gorse, .time, .host] P := kp.mono (by decide)
  unfold doSsWaitEnd
  repeat' with_reducible first
    | exact hP | assumption | apply kept_ssPop k0 | split

theorem kept_doSafeStopTimeout (kp : KeptDev [.regs, .events, .dev, .groups, .links, .mod, .gorse, .time, .meas, .host, .power] P)
    (s : State) (hP : Holds P s) :
    Holds P (doSafeStopTimeout s) := by
  have k0 : KeptDev [.regs, .events, .dev, .groups, .links, .mod, .gorse, .time, .meas, .host, .power] P := kp.mono (by decide)
  unfold doSafeStopTimeout
  repeat' with_reducible first
    | exact hP | assumption | apply kept_bAssert k0 | apply holds_if | intro _

theorem kept_doDebugHalt (kp : KeptDev [.regs, .events, .dev, .groups, .links, .mod, .gorse, .time, .meas, .host, .power] P) (s : State)
    (hP : Holds P s) :
    Holds P (doDebugHalt s) := by
  have k0 : KeptDev [.regs, .events, .dev, .groups, .links, .mod, .gorse, .time, .meas, .host, .power] P := kp.mono (by decide)
  have k1 : Kept [.regs, .events, .links, .mod, .gorse, .time, .host] P := kp.toKept.mono (by decide)
  unfold doDebugHalt
  repeat' with_reducible first
    | exact hP | assumption | apply kept_bRise k0 | apply kept_safeRow k1

theorem kept_doEnFall (kp : KeptDev [.regs, .events, .dev, .groups, .links, .mod, .gorse, .time, .meas, .host, .power] P) (s : State)
    (hP : Holds P s) :
    Holds P (doEnFall s) := by
  have k0 : KeptDev [.regs, .events, .dev, .groups, .links, .mod, .gorse, .time, .meas, .host, .power] P := kp.mono (by decide)
  have k1 : Kept [.power] P := kp.toKept.mono (by decide)
  have k2 : Kept [.gorse] P := kp.toKept.mono (by decide)
  unfold doEnFall
  repeat' with_reducible first
    | exact hP | assumption | apply kept_bRise k0 | apply kept_wake k1 | apply kept_modGorse k2 | apply holds_if
    | intro _

theorem kept_revote (kp : Kept [.gorse] P) (x : EnLive) (s : State) (hP : Holds P s) :
    Holds P (revote x s) := by
  have k0 : Kept [.gorse] P := kp.mono (by decide)
  unfold revote
  dsimp only
  repeat' with_reducible first
    | exact hP | assumption | apply kept_vote k0 | apply holds_if | intro _

theorem kept_clearCauses (kp : Kept [.links, .gorse] P) (m : Nat) (s : State) (hP : Holds P s) :
    Holds P (clearCauses m s) := by
  have k0 : Kept [.gorse] P := kp.mono (by decide)
  have k1 : Kept [.links] P := kp.mono (by decide)
  unfold clearCauses
  dsimp only
  repeat' with_reducible first
    | exact hP | assumption | apply kept_modGorse k0 | apply kept_modLink k1 | apply holds_if | apply holds_forEach
    | intro _

theorem kept_liveEnds (kp : Kept [.gorse] P) (x : EnLive) (s : State) (hP : Holds P s) :
    Holds P (liveEnds x s) := by
  have k0 : Kept [] P := kp.mono (by decide)
  have k1 : Kept [.gorse] P := kp.mono (by decide)
  unfold liveEnds
  repeat' with_reducible first
    | exact hP | assumption | apply kept_onlyIf k0 | apply kept_setLive k1

theorem kept_asyncRelease (kp : Kept [.mod] P) (s : State) (hP : Holds P s) :
    Holds P (asyncRelease s) := by
  have k0 : Kept [.mod] P := kp.mono (by decide)
  unfold asyncRelease
  dsimp only
  repeat' with_reducible first
    | exact hP | assumption | exact fun _ => Nat.and_self _ | exact fun _ => Nat.zero_and _
    | exact fun _ => and_mask _ _ | apply kept_modMod k0

theorem kept_enQualify (kp : KeptDev [.regs, .events, .dev, .links, .mod, .gorse, .time, .host] P) (x : EnLive) (s : State) (hr : ∀ t, P t → P { t with dev := .run })
    (h : Holds P s) : Holds P (enQualify x s) := by
  unfold enQualify
  extract_lets s1 m s2 s3 s4
  have h1 : Holds P s1 := kept_revote (kp.toKept.mono (by decide)) _ _ h
  have h2 : Holds P s2 := kept_asyncRelease (kp.toKept.mono (by decide)) _ (kept_clearCauses (kp.toKept.mono (by decide)) _ _ h1)
  have h3 : Holds P s3 := holds_forEach _ (fun _ _ h => holds_if (fun _ => kept_modPair (kp.toKept.mono (by decide)) _ _ _ h) (fun _ => h)) _ _ h2
  have h4 : Holds P s4 := kept_modGorse (kp.toKept.mono (by decide)) _ _ h3
  exact holds_if (fun _ => kept_enterRun (kp.toKept.mono (by decide)) _ hr h4) (fun _ => h4)

theorem kept_doEnRise (kp : KeptDev [.regs, .events, .dev, .links, .mod, .gorse, .time, .host] P) (x : EnLive) (s : State) (hr : ∀ t, P t → P { t with dev := .run })
    (h : Holds P s) : Holds P (doEnRise x s) := by
  unfold doEnRise
  extract_lets s1
  have h1 : Holds P s1 := kept_liveEnds (kp.toKept.mono (by decide)) _ _
    (kept_setLive (kp.toKept.mono (by decide)) _ _ _ (kept_modGorse (kp.toKept.mono (by decide)) _ _ h))
  exact holds_if (fun _ => h) (fun _ => holds_if (fun _ => kept_gorseStick (kp.toKept.mono (by decide)) _ _ h1)
    (fun _ => kept_enQualify (kp.mono (by decide)) _ _ hr h1))

theorem kept_doBrkTurnOn (kp : Kept [.gorse] P) (s : State) (hP : Holds P s) :
    Holds P (doBrkTurnOn s) := by
  have k0 : Kept [.gorse] P := kp.mono (by decide)
  unfold doBrkTurnOn
  repeat' with_reducible first
    | exact hP | assumption | apply kept_modGorse k0 | apply holds_if | intro _

theorem kept_brkApply (kp : Kept [.regs, .events, .conv, .time, .meas, .host, .power] P) (f : State → State) (s : State)
    (hf : ∀ u, Holds P u → Holds P (f u)) (hP : Holds P s) :
    Holds P (brkApply f s) := by
  have k0 : Kept [.regs, .events, .conv, .time, .meas, .host, .power] P := kp.mono (by decide)
  unfold brkApply
  repeat' with_reducible first
    | exact hP | assumption | apply kept_wcChanged k0 | intro _ | apply hf

theorem kept_doBrkTurnOff (kp : Kept [.regs, .events, .gorse, .conv, .time, .meas, .host, .power] P) (s : State) (hP : Holds P s) :
    Holds P (doBrkTurnOff s) := by
  have k0 : Kept [.gorse] P := kp.mono (by decide)
  have k1 : Kept [.regs, .events, .conv, .time, .meas, .host, .power] P := kp.mono (by decide)
  have k2 : Kept [.regs] P := kp.mono (by decide)
  unfold doBrkTurnOff
  dsimp only
  repeat' with_reducible first
    | exact hP | assumption | apply kept_setLive k0 | apply kept_modGorse k0 | apply kept_brkApply k1
    | apply kept_wr k2 | apply holds_if | split | intro _

theorem kept_brkCfgWrite (kp : Kept [.regs, .events, .gorse, .conv, .time, .meas, .host, .power] P) (v : Word) (s : State) (hP : Holds P s) :
    Holds P (brkCfgWrite v s) := by
  have k0 : Kept [.gorse] P := kp.mono (by decide)
  have k1 : Kept [.regs, .events, .conv, .time, .meas, .host, .power] P := kp.mono (by decide)
  have k2 : Kept [.regs] P := kp.mono (by decide)
  unfold brkCfgWrite
  repeat' with_reducible first
    | exact hP | assumption | apply kept_modGorse k0 | apply kept_brkApply k1 | apply kept_wr k2 | apply holds_if
    | intro _

theorem kept_brkThrWrite (kp : Kept [.regs, .events, .gorse, .conv, .time, .meas, .host, .power] P) (v : Word) (s : State) (hP : Holds P s) :
    Holds P (brkThrWrite v s) := by
  have k0 : Kept [.gorse] P := kp.mono (by decide)
  have k1 : Kept [.regs, .events, .conv, .time, .meas, .host, .power] P := kp.mono (by decide)
  have k2 : Kept [.regs] P := kp.mono (by decide)
  unfold brkThrWrite
  repeat' with_reducible first
    | exact hP | assumption | apply kept_modGorse k0 | apply kept_brkApply k1 | apply kept_wr k2 | apply holds_if
    | intro _

theorem kept_doBrkOvertime (kp : Kept [.gorse] P) (s : State) (hP : Holds P s) :
    Holds P (doBrkOvertime s) := by
  have k0 : Kept [.gorse] P := kp.mono (by decide)
  unfold doBrkOvertime
  repeat' with_reducible first
    | exact hP | assumption | apply kept_setLive k0 | apply holds_if | intro _

theorem kept_diagStart (kp : Kept [.regs, .events, .links, .time, .host] P) (i : Nat) (s : State) (hP : Holds P s) :
    Holds P (diagStart i s) := by
  have k0 : Kept [.regs] P := kp.mono (by decide)
  have k1 : Kept [.regs, .events, .time, .host] P := kp.mono (by decide)
  have k2 : Kept [.links] P := kp.mono (by decide)
  unfold diagStart
  dsimp only
  repeat' with_reducible first
    | exact hP | assumption | apply kept_wr k0 | apply kept_gorseStick k1 | apply kept_modLink k2
    | apply kept_dispatch k2 | apply holds_if | apply holds_forEach | intro _

theorem kept_doOffstateDiagDone (kp : Kept [.regs, .events, .links, .time, .host] P) (pairRes : Nat) (s : State) (hP : Holds P s) :
    Holds P (doOffstateDiagDone pairRes s) := by
  have k0 : Kept [.regs] P := kp.mono (by decide)
  have k1 : Kept [.links] P := kp.mono (by decide)
  have k2 : Kept [.regs, .events, .time, .host] P := kp.mono (by decide)
  unfold doOffstateDiagDone
  dsimp only
  repeat' with_reducible first
    | exact hP | assumption | apply kept_wr k0 | apply kept_modLink k1 | apply kept_endSlot k2 | apply holds_if
    | apply holds_forEach | apply holds_foldl | split | intro _

theorem kept_histStart (kp : Kept [.regs, .events, .time, .host, .therm] P) (i : Nat) (s : State) (hP : Holds P s) :
    Holds P (histStart i s) := by
  have k0 : Kept [.regs, .events, .time, .host] P := kp.mono (by decide)
  have k1 : Kept [.therm] P := kp.mono (by decide)
  unfold histStart
  dsimp only
  repeat' with_reducible first
    | exact hP | assumption | apply kept_failSlot k0 | apply kept_modHist k1 | apply kept_modTherm k1
    | apply holds_if | apply holds_forEach | split | intro _

theorem kept_histStop (kp : Kept [.therm] P) (i : Nat) (s : State) (hP : Holds P s) :
    Holds P (histStop i s) := by
  have k0 : Kept [.therm] P := kp.mono (by decide)
  unfold histStop
  repeat' with_reducible first
    | exact hP | assumption | apply kept_modHist k0 | apply kept_modTherm k0 | apply holds_forEach | intro _

theorem kept_histResume (kp : Kept [.therm] P) (i : Nat) (s : State) (hP : Holds P s) :
    Holds P (histResume i s) := by
  have k0 : Kept [.therm] P := kp.mono (by decide)
  unfold histResume
  dsimp only
  repeat' with_reducible first
    | exact hP | assumption | apply kept_modHist k0 | apply kept_modTherm k0 | apply holds_forEach | intro _

theorem kept_doHistCaptureEnd (kp : Kept [.regs, .events, .time, .host, .therm] P) (s : State) (hP : Holds P s) :
    Holds P (doHistCaptureEnd s) := by
  have k0 : Kept [.therm] P := kp.mono (by decide)
  have k1 : Kept [.regs, .events, .time, .host] P := kp.mono (by decide)
  unfold doHistCaptureEnd
  dsimp only
  repeat' with_reducible first
    | exact hP | assumption | apply kept_modHist k0 | apply kept_endSlot k1 | apply holds_if | apply holds_forEach
    | split | intro _

theorem kept_throttle (kp : Kept [.regs, .events, .time, .host, .therm] P) (s : State) (hP : Holds P s) :
    Holds P (throttle s) := by
  have k0 : Kept [.therm] P := kp.mono (by decide)
  have k1 : Kept [.regs, .events, .time, .host] P := kp.mono (by decide)
  unfold throttle
  dsimp only
  repeat' with_reducible first
    | exact hP | assumption | apply kept_modTherm k0 | apply kept_thermStick k1 | apply holds_if | intro _

theorem kept_tsOver (kp : Kept [.regs, .events, .time, .host, .therm] P) (n : Nat) (s : State) (hP : Holds P s) :
    Holds P (tsOver n s) := by
  have k0 : Kept [.therm] P := kp.mono (by decide)
  have k1 : Kept [.regs, .events, .time, .host] P := kp.mono (by decide)
  unfold tsOver
  dsimp only
  repeat' with_reducible first
    | exact hP | assumption | apply kept_modChan k0 | apply kept_thermStick k1 | apply holds_if | intro _

theorem kept_doTsConversion (kp : Kept [.regs, .events, .time, .host, .therm] P) (n : Nat) (x : TsInput) (s : State) (hP : Holds P s) :
    Holds P (doTsConversion n x s) := by
  have k0 : Kept [.regs, .events, .time, .host, .therm] P := kp.mono (by decide)
  have k1 : Kept [.therm] P := kp.mono (by decide)
  have k2 : Kept [.regs, .events, .time, .host] P := kp.mono (by decide)
  unfold doTsConversion
  dsimp only
  repeat' with_reducible first
    | exact hP | assumption | apply kept_histFeed k0 | apply kept_modChan k1 | apply kept_thermStick k2
    | apply kept_tsOver k0 | apply kept_throttle k0 | apply holds_if | split | intro _

theorem kept_spreadT (kp : Kept [.regs, .events, .time, .host, .power] P) (s : State) (hP : Holds P s) :
    Holds P (spreadT s) := by
  have k0 : Kept [.power] P := kp.mono (by decide)
  have k1 : Kept [.regs, .events, .time, .host] P := kp.mono (by decide)
  unfold spreadT
  dsimp only
  repeat' with_reducible first
    | exact hP | assumption | apply kept_modPower k0 | apply kept_pwrFlag k1 | apply holds_if | intro _

theorem kept_doDieSensorConversion (kp : Kept [.regs, .events, .time, .host, .therm, .power] P) (d reading : Nat) (s : State) (hP : Holds P s) :
    Holds P (doDieSensorConversion d reading s) := by
  have k0 : Kept [.therm] P := kp.mono (by decide)
  have k1 : Kept [.regs, .events, .time, .host] P := kp.mono (by decide)
  have k2 : Kept [.regs, .events, .time, .host, .power] P := kp.mono (by decide)
  have k3 : Kept [.regs, .events, .time, .host, .therm] P := kp.mono (by decide)
  unfold doDieSensorConversion
  dsimp only
  repeat' with_reducible first
    | exact hP | assumption | apply kept_modTherm k0 | apply kept_thermStick k1 | apply kept_spreadT k2
    | apply kept_histFeed k3 | apply holds_if | intro _

theorem kept_doQuadRailMeasure (kp : Kept [.regs, .events, .time, .host, .power] P) (mv : List Nat) (s : State) (hP : Holds P s) :
    Holds P (doQuadRailMeasure mv s) := by
  have k0 : Kept [.power] P := kp.mono (by decide)
  have k1 : Kept [.regs, .events, .time, .host, .power] P := kp.mono (by decide)
  have k2 : Kept [.regs, .events, .time, .host] P := kp.mono (by decide)
  unfold doQuadRailMeasure
  dsimp only
  repeat' with_reducible first
    | exact hP | assumption | apply kept_modPower k0 | apply kept_spreadT k1 | apply kept_pwrFlag k2 | apply holds_if
    | intro _

theorem kept_paramWrite (kp : Kept [.regs, .events, .time, .host] P) (i n : Nat) (v : Word) (s : State) (hP : Holds P s) :
    Holds P (paramWrite i n v s) := by
  have k0 : Kept [.regs, .events, .time, .host] P := kp.mono (by decide)
  have k1 : Kept [.regs] P := kp.mono (by decide)
  unfold paramWrite
  repeat' with_reducible first
    | exact hP | assumption | apply kept_opqFlag k0 | apply kept_wr k1 | apply holds_if | intro _

theorem kept_opSubmit (kp : Kept [.regs, .events, .time, .host] P) (i op : Nat) (s : State) (hP : Holds P s) :
    Holds P (opSubmit i op s) := by
  have k0 : Kept [.regs, .events, .time, .host] P := kp.mono (by decide)
  have k1 : Kept [.regs] P := kp.mono (by decide)
  have k2 : Kept [.host] P := kp.mono (by decide)
  unfold opSubmit
  dsimp only
  repeat' with_reducible first
    | exact hP | assumption | apply kept_opqFlag k0 | apply kept_wr k1 | apply kept_noteClamp k0
    | apply kept_modHost k2 | apply kept_modSlot k2 | apply kept_failSlot k0 | apply holds_if | apply holds_forEach
    | intro _

theorem kept_opWrite (kp : Kept [.regs, .events, .time, .host] P) (i op : Nat) (ps : List Word) (s : State) (hP : Holds P s) :
    Holds P (opWrite i op ps s) := by
  have k0 : Kept [.regs, .events, .time, .host] P := kp.mono (by decide)
  unfold opWrite
  repeat' with_reducible first
    | exact hP | assumption | apply kept_opSubmit k0 | apply kept_paramWrite k0 | apply holds_foldl | intro _

theorem kept_doSelfCal (kp : Kept [.regs, .events, .time, .host] P) (i : Nat) (p0 : Word) (s : State) (hP : Holds P s) :
    Holds P (doSelfCal i p0 s) := by
  have k0 : Kept [.regs, .events, .time, .host] P := kp.mono (by decide)
  unfold doSelfCal
  repeat' with_reducible first
    | exact hP | assumption | apply kept_opWrite k0

theorem kept_doTileLoad (kp : Kept [.regs, .events, .time, .host] P) (i : Nat) (p0 p1 p2 : Word) (s : State) (hP : Holds P s) :
    Holds P (doTileLoad i p0 p1 p2 s) := by
  have k0 : Kept [.regs, .events, .time, .host] P := kp.mono (by decide)
  unfold doTileLoad
  repeat' with_reducible first
    | exact hP | assumption | apply kept_opWrite k0

theorem kept_doTileSwap (kp : Kept [.regs, .events, .time, .host] P) (i : Nat) (p0 p1 p2 p3 : Word) (s : State) (hP : Holds P s) :
    Holds P (doTileSwap i p0 p1 p2 p3 s) := by
  have k0 : Kept [.regs, .events, .time, .host] P := kp.mono (by decide)
  unfold doTileSwap
  repeat' with_reducible first
    | exact hP | assumption | apply kept_opWrite k0

theorem kept_doLinkTrain (kp : Kept [.regs, .events, .time, .host] P) (i : Nat) (p0 p1 : Word) (s : State) (hP : Holds P s) :
    Holds P (doLinkTrain i p0 p1 s) := by
  have k0 : Kept [.regs, .events, .time, .host] P := kp.mono (by decide)
  unfold doLinkTrain
  repeat' with_reducible first
    | exact hP | assumption | apply kept_opWrite k0

theorem kept_doOffstateDiag (kp : Kept [.regs, .events, .time, .host] P) (i : Nat) (p0 p1 p2 : Word) (s : State) (hP : Holds P s) :
    Holds P (doOffstateDiag i p0 p1 p2 s) := by
  have k0 : Kept [.regs, .events, .time, .host] P := kp.mono (by decide)
  unfold doOffstateDiag
  repeat' with_reducible first
    | exact hP | assumption | apply kept_opWrite k0

theorem kept_doCmpSelftest (kp : Kept [.regs, .events, .time, .host] P) (i : Nat) (p0 : Word) (s : State) (hP : Holds P s) :
    Holds P (doCmpSelftest i p0 s) := by
  have k0 : Kept [.regs, .events, .time, .host] P := kp.mono (by decide)
  unfold doCmpSelftest
  repeat' with_reducible first
    | exact hP | assumption | apply kept_opWrite k0

theorem kept_doHistCapture (kp : Kept [.regs, .events, .time, .host] P) (i : Nat) (p0 p1 p2 p3 p4 : Word) (s : State) (hP : Holds P s) :
    Holds P (doHistCapture i p0 p1 p2 p3 p4 s) := by
  have k0 : Kept [.regs, .events, .time, .host] P := kp.mono (by decide)
  unfold doHistCapture
  repeat' with_reducible first
    | exact hP | assumption | apply kept_opWrite k0

theorem kept_doWaveDump (kp : Kept [.regs, .events, .time, .host] P) (i : Nat) (p0 p1 : Word) (s : State) (hP : Holds P s) :
    Holds P (doWaveDump i p0 p1 s) := by
  have k0 : Kept [.regs, .events, .time, .host] P := kp.mono (by decide)
  unfold doWaveDump
  repeat' with_reducible first
    | exact hP | assumption | apply kept_opWrite k0

theorem kept_doTwLocate (kp : Kept [.regs, .events, .time, .host] P) (i : Nat) (p0 p1 : Word) (s : State) (hP : Holds P s) :
    Holds P (doTwLocate i p0 p1 s) := by
  have k0 : Kept [.regs, .events, .time, .host] P := kp.mono (by decide)
  unfold doTwLocate
  repeat' with_reducible first
    | exact hP | assumption | apply kept_opWrite k0

theorem kept_doMramScrub (kp : Kept [.regs, .events, .time, .host] P) (i : Nat) (p0 : Word) (s : State) (hP : Holds P s) :
    Holds P (doMramScrub i p0 s) := by
  have k0 : Kept [.regs, .events, .time, .host] P := kp.mono (by decide)
  unfold doMramScrub
  repeat' with_reducible first
    | exact hP | assumption | apply kept_opWrite k0

theorem kept_doBadOpcode (kp : Kept [.regs, .events, .time, .host] P) (i op : Nat) (s : State) (hP : Holds P s) :
    Holds P (doBadOpcode i op s) := by
  have k0 : Kept [.regs, .events, .time, .host] P := kp.mono (by decide)
  unfold doBadOpcode
  repeat' with_reducible first
    | exact hP | assumption | apply kept_opSubmit k0

theorem kept_dumpStart (kp : Kept [.regs, .events, .time, .host] P) (i : Nat) (s : State) (hP : Holds P s) :
    Holds P (dumpStart i s) := by
  have k0 : Kept [.regs, .events, .time, .host] P := kp.mono (by decide)
  unfold dumpStart
  dsimp only
  repeat' with_reducible first
    | exact hP | assumption | apply kept_failSlot k0 | apply holds_if | intro _

theorem kept_opBegin
    (kp : Kept [.regs, .events, .force, .dirty, .damask, .links, .mod, .units, .gorse, .conv, .time, .meas, .meter, .host, .therm, .power] P) (op i : Nat) (s : State) (hP : Holds P s) :
    Holds P (opBegin op i s) := by
  have k0 : Kept [.regs, .events, .conv, .time, .host] P := kp.mono (by decide)
  have k1 : Kept [.regs, .events, .damask, .time, .host] P := kp.mono (by decide)
  have k2 : Kept [.regs, .events, .force, .dirty, .damask, .mod, .units, .gorse, .conv, .time, .meas, .meter, .host, .power] P := kp.mono (by decide)
  have k3 : Kept [.regs, .events, .dirty, .links, .time, .host] P := kp.mono (by decide)
  have k4 : Kept [.regs, .events, .links, .time, .host] P := kp.mono (by decide)
  have k5 : Kept [.conv] P := kp.mono (by decide)
  have k6 : Kept [.regs, .events, .time, .host, .therm] P := kp.mono (by decide)
  have k7 : Kept [.regs, .events, .time, .host] P := kp.mono (by decide)
  unfold opBegin
  repeat' with_reducible first
    | exact hP | assumption | apply kept_calStart k0 | apply kept_loadStart k1 | apply kept_swapStart k2
    | apply kept_linkTrainStart k3 | apply kept_diagStart k4 | apply kept_cmpTestStart k5 | apply kept_histStart k6
    | apply kept_dumpStart k7 | split

theorem kept_doOpStart
    (kp : Kept [.regs, .events, .force, .dirty, .damask, .links, .mod, .units, .gorse, .conv, .time, .meas, .meter, .host, .therm, .power] P) (i : Nat) (s : State) (hP : Holds P s) :
    Holds P (doOpStart i s) := by
  have k0 : Kept [.regs, .events, .time, .host] P := kp.mono (by decide)
  have k1 : Kept [.regs, .events, .force, .dirty, .damask, .links, .mod, .units, .gorse, .conv, .time, .meas, .meter, .host, .therm, .power] P := kp.mono (by decide)
  have k2 : Kept [.host] P := kp.mono (by decide)
  unfold doOpStart
  dsimp only
  repeat' with_reducible first
    | exact hP | assumption | apply kept_failSlot k0 | apply kept_opBegin k1 | apply kept_modSlot k2 | apply holds_if
    | intro _

theorem kept_opUndo (kp : Kept [.regs, .events, .dirty, .damask, .links, .conv, .time, .host, .therm] P) (op i : Nat) (s : State) (hP : Holds P s) :
    Holds P (opUndo op i s) := by
  have k0 : Kept [.conv] P := kp.mono (by decide)
  have k1 : Kept [.regs, .events, .damask, .time, .host] P := kp.mono (by decide)
  have k2 : Kept [.damask] P := kp.mono (by decide)
  have k3 : Kept [.regs, .dirty, .links] P := kp.mono (by decide)
  have k4 : Kept [.links] P := kp.mono (by decide)
  have k5 : Kept [.therm] P := kp.mono (by decide)
  unfold opUndo
  repeat' with_reducible first
    | exact hP | assumption | apply kept_calAbandon k0 | apply kept_undoLoad k1 | apply kept_modDamask k2
    | apply kept_trainCancel k3 | apply kept_modLink k4 | apply kept_modConv k0 | apply kept_histStop k5
    | apply holds_if | apply holds_forEach | split | intro _

theorem kept_cancelLate (kp : Kept [.host] P) (i : Nat) (svc : Bool) (s : State) (hP : Holds P s) :
    Holds P (cancelLate i svc s) := by
  have k0 : Kept [.host] P := kp.mono (by decide)
  unfold cancelLate
  repeat' with_reducible first
    | exact hP | assumption | apply kept_modSlot k0

theorem kept_opCancel (kp : Kept [.regs, .events, .dirty, .damask, .links, .conv, .time, .host, .therm] P) (i : Nat) (svc : Bool)
    (s : State) (hP : Holds P s) :
    Holds P (opCancel i svc s) := by
  have k0 : Kept [.host] P := kp.mono (by decide)
  have k1 : Kept [.regs, .events, .time, .host] P := kp.mono (by decide)
  have k2 : Kept [.regs, .events, .dirty, .damask, .links, .conv, .time, .host, .therm] P := kp.mono (by decide)
  unfold opCancel
  dsimp only
  repeat' with_reducible first
    | exact hP | assumption | apply kept_modSlot k0 | apply kept_cancelLate k0 | apply kept_opqFlag k1
    | apply kept_opUndo k2 | apply kept_endSlot k1 | apply holds_if | split | intro _

theorem kept_withHandle (kp : Kept [.regs, .events, .time, .host] P) (h : Nat) (f : Nat → State → State) (s : State)
    (hf : ∀ a0 u, Holds P u → Holds P (f a0 u)) (hP : Holds P s) :
    Holds P (withHandle h f s) := by
  have k0 : Kept [.regs, .events, .time, .host] P := kp.mono (by decide)
  unfold withHandle
  repeat' with_reducible first
    | exact hP | assumption | apply kept_opqFlag k0 | apply holds_if | intro _ | apply hf

theorem kept_opSuspend (kp : Kept [.regs, .events, .time, .host] P) (i : Nat) (s : State) (hP : Holds P s) :
    Holds P (opSuspend i s) := by
  have k0 : Kept [.regs, .events, .time, .host] P := kp.mono (by decide)
  have k1 : Kept [.host] P := kp.mono (by decide)
  unfold opSuspend
  dsimp only
  repeat' with_reducible first
    | exact hP | assumption | apply kept_opqFlag k0 | apply kept_suspendSlot k0 | apply kept_modSlot k1
    | apply holds_if | split | intro _

theorem kept_opResume (kp : Kept [.regs, .events, .damask, .time, .host, .therm] P) (i : Nat) (s : State) (hP : Holds P s) :
    Holds P (opResume i s) := by
  have k0 : Kept [.host] P := kp.mono (by decide)
  have k1 : Kept [.regs, .events, .damask, .time, .host] P := kp.mono (by decide)
  have k2 : Kept [.regs, .events, .time, .host] P := kp.mono (by decide)
  have k3 : Kept [.damask] P := kp.mono (by decide)
  have k4 : Kept [.therm] P := kp.mono (by decide)
  unfold opResume
  dsimp only
  repeat' with_reducible first
    | exact hP | assumption | apply kept_modSlot k0 | apply kept_loadNext k1 | apply kept_opqFlag k2
    | apply kept_swapResume k3 | apply kept_histResume k4 | apply holds_if | split | intro _

theorem kept_doSuspend (kp : Kept [.regs, .events, .time, .host] P) (h : Nat) (s : State) (hP : Holds P s) :
    Holds P (doSuspend h s) := by
  have k0 : Kept [.regs, .events, .time, .host] P := kp.mono (by decide)
  unfold doSuspend
  repeat' with_reducible first
    | exact hP | assumption | apply kept_withHandle k0 | apply kept_opSuspend k0

theorem kept_doResume (kp : Kept [.regs, .events, .damask, .time, .host, .therm] P) (h : Nat) (s : State) (hP : Holds P s) :
    Holds P (doResume h s) := by
  have k0 : Kept [.regs, .events, .time, .host] P := kp.mono (by decide)
  have k1 : Kept [.regs, .events, .damask, .time, .host, .therm] P := kp.mono (by decide)
  unfold doResume
  repeat' with_reducible first
    | exact hP | assumption | apply kept_withHandle k0 | apply kept_opResume k1

theorem kept_doCancel (kp : Kept [.regs, .events, .dirty, .damask, .links, .conv, .time, .host, .therm] P) (h : Nat) (s : State) (hP : Holds P s) :
    Holds P (doCancel h s) := by
  have k0 : Kept [.regs, .events, .time, .host] P := kp.mono (by decide)
  have k1 : Kept [.regs, .events, .dirty, .damask, .links, .conv, .time, .host, .therm] P := kp.mono (by decide)
  unfold doCancel
  repeat' with_reducible first
    | exact hP | assumption | apply kept_withHandle k0 | apply kept_opCancel k1 | intro _

theorem kept_opqAction (kp : Kept [.regs, .events, .dirty, .damask, .links, .conv, .time, .host, .therm] P) (v : Word) (s : State) (hP : Holds P s) :
    Holds P (opqAction v s) := by
  have k0 : Kept [.regs, .events, .time, .host] P := kp.mono (by decide)
  have k1 : Kept [.regs, .events, .damask, .time, .host, .therm] P := kp.mono (by decide)
  have k2 : Kept [.regs, .events, .dirty, .damask, .links, .conv, .time, .host, .therm] P := kp.mono (by decide)
  unfold opqAction
  repeat' with_reducible first
    | exact hP | assumption | apply kept_doSuspend k0 | apply kept_doResume k1 | apply kept_doCancel k2 | split

theorem kept_doSvcOpCancel (kp : Kept [.regs, .events, .dirty, .damask, .links, .conv, .time, .host, .therm] P) (v : Word) (s : State)
    (hP : Holds P s) :
    Holds P (doSvcOpCancel v s) := by
  have k0 : Kept [.regs, .events, .time, .host] P := kp.mono (by decide)
  have k1 : Kept [.regs, .events, .dirty, .damask, .links, .conv, .time, .host, .therm] P := kp.mono (by decide)
  unfold doSvcOpCancel
  dsimp only
  repeat' with_reducible first
    | exact hP | assumption | apply kept_irq k0 | apply kept_opCancel k1 | apply kept_stick k0 | apply holds_if
    | intro _

theorem kept_doOpSuspensionPoint (kp : Kept [.regs, .events, .time, .host, .therm] P) (i : Nat) (s : State) (hP : Holds P s) :
    Holds P (doOpSuspensionPoint i s) := by
  have k0 : Kept [.regs, .events, .time, .host] P := kp.mono (by decide)
  have k1 : Kept [.therm] P := kp.mono (by decide)
  unfold doOpSuspensionPoint
  dsimp only
  repeat' with_reducible first
    | exact hP | assumption | apply kept_suspendSlot k0 | apply kept_histStop k1 | apply holds_if | intro _

theorem kept_doMramScrubDone (kp : Kept [.regs, .events, .time, .host] P) (corrected uncorrectable badCrc : Nat) (s : State) (hP : Holds P s) :
    Holds P (doMramScrubDone corrected uncorrectable badCrc s) := by
  have k0 : Kept [.regs, .events, .time, .host] P := kp.mono (by decide)
  unfold doMramScrubDone
  repeat' with_reducible first
    | exact hP | assumption | apply kept_endSlot k0 | apply holds_if | split | intro _

theorem kept_ethIdCheck (kp : Kept [.regs, .events, .time, .host] P) (p : Nat) (s : State) (hP : Holds P s) :
    Holds P (ethIdCheck p s) := by
  have k0 : Kept [.regs, .events, .time, .host] P := kp.mono (by decide)
  unfold ethIdCheck
  repeat' with_reducible first
    | exact hP | assumption | apply kept_timeStick k0 | apply holds_if | intro _

theorem kept_doEthCfgWrite (kp : Kept [.regs, .events, .time, .host] P) (p : Nat) (v : Word) (s : State) (hP : Holds P s) :
    Holds P (doEthCfgWrite p v s) := by
  have k0 : Kept [.regs, .events, .time, .host] P := kp.mono (by decide)
  have k1 : Kept [.regs] P := kp.mono (by decide)
  unfold doEthCfgWrite
  dsimp only
  repeat' with_reducible first
    | exact hP | assumption | apply kept_ethIdCheck k0 | apply kept_wr k1 | apply kept_clampSeen k0

theorem kept_doMacHiWrite (kp : Kept [.regs, .events, .time, .eth, .host] P) (p : Nat) (v : Word) (s : State) (hP : Holds P s) :
    Holds P (doMacHiWrite p v s) := by
  have k0 : Kept [.regs, .events, .time, .host] P := kp.mono (by decide)
  have k1 : Kept [.eth] P := kp.mono (by decide)
  have k2 : Kept [.regs] P := kp.mono (by decide)
  unfold doMacHiWrite
  dsimp only
  repeat' with_reducible first
    | exact hP | assumption | apply kept_ethIdCheck k0 | apply kept_modEth k1 | apply kept_wr k2 | apply holds_if
    | intro _

theorem kept_doEthLinkChange (kp : Kept [.eth] P) (p : Nat) (up : Bool) (s : State) (hP : Holds P s) :
    Holds P (doEthLinkChange p up s) := by
  have k0 : Kept [.eth] P := kp.mono (by decide)
  unfold doEthLinkChange
  repeat' with_reducible first
    | exact hP | assumption | apply kept_modEth k0

theorem kept_addFront (kp : Kept [.meas] P) (f : Front) (s : State) (hP : Holds P s) :
    Holds P (addFront f s) := by
  have k0 : Kept [.meas] P := kp.mono (by decide)
  unfold addFront
  repeat' with_reducible first
    | exact hP | assumption | apply kept_modMeas k0

theorem kept_twReceive (kp : Kept [.regs, .events, .meas] P) (payload : List Byte) (s : State) (hP : Holds P s) :
    Holds P (twReceive payload s) := by
  have k0 : Kept [.meas] P := kp.mono (by decide)
  have k1 : Kept [.regs, .events] P := kp.mono (by decide)
  unfold twReceive
  repeat' with_reducible first
    | exact hP | assumption | apply kept_addFront k0 | apply kept_cntUp k1 | apply holds_if | split | intro _

theorem kept_rxPlace (kp : Kept [.regs, .events, .dram, .time, .eth, .host] P) (p : Nat) (f : List Byte) (s : State) (hP : Holds P s) :
    Holds P (rxPlace p f s) := by
  have k0 : Kept [.regs, .events] P := kp.mono (by decide)
  have k1 : Kept [.regs, .events, .time, .host] P := kp.mono (by decide)
  have k2 : Kept [.regs] P := kp.mono (by decide)
  have k3 : Kept [.dram] P := kp.mono (by decide)
  have k4 : Kept [.eth] P := kp.mono (by decide)
  unfold rxPlace
  dsimp only
  repeat' with_reducible first
    | exact hP | assumption | apply kept_cntSat k0 | apply kept_irq k1 | apply kept_wr k2 | apply kept_dramPut k3
    | apply kept_modEth k4 | apply holds_if | intro _

theorem kept_doEthFrameRx (kp : Kept [.regs, .events, .dram, .time, .eth, .meas, .host] P) (p : Nat) (f : List Byte) (fcsOk : Bool)
    (s : State) (hP : Holds P s) :
    Holds P (doEthFrameRx p f fcsOk s) := by
  have k0 : Kept [.regs, .events] P := kp.mono (by decide)
  have k1 : Kept [.regs, .events, .meas] P := kp.mono (by decide)
  have k2 : Kept [.regs, .events, .dram, .time, .eth, .host] P := kp.mono (by decide)
  unfold doEthFrameRx
  dsimp only
  repeat' with_reducible first
    | exact hP | assumption | apply kept_cntSat k0 | apply kept_twReceive k1 | apply kept_rxPlace k2 | apply holds_if
    | split | intro _

theorem kept_rxHeadWrite (kp : Kept [.regs, .eth] P) (p : Nat) (v : Word) (s : State) (hP : Holds P s) :
    Holds P (rxHeadWrite p v s) := by
  have k0 : Kept [.eth] P := kp.mono (by decide)
  have k1 : Kept [.regs] P := kp.mono (by decide)
  unfold rxHeadWrite
  dsimp only
  repeat' with_reducible first
    | exact hP | assumption | apply kept_modEth k0 | apply kept_wr k1

theorem kept_lqArrive (kp : Kept [.eth] P) (q : Nat) (s : State) (hP : Holds P s) :
    Holds P (lqArrive q s) := by
  have k0 : Kept [.eth] P := kp.mono (by decide)
  unfold lqArrive
  repeat' with_reducible first
    | exact hP | assumption | apply kept_modEth k0

theorem kept_doLqTailWrite (kp : Kept [.regs, .eth] P) (q : Nat) (v : Word) (s : State) (hP : Holds P s) :
    Holds P (doLqTailWrite q v s) := by
  have k0 : Kept [] P := kp.mono (by decide)
  have k1 : Kept [.eth] P := kp.mono (by decide)
  have k2 : Kept [.regs] P := kp.mono (by decide)
  unfold doLqTailWrite
  repeat' with_reducible first
    | exact hP | assumption | apply kept_onlyIf k0 | apply kept_lqArrive k1 | apply kept_wr k2 | apply holds_if
    | intro _

theorem kept_lqAdvance (kp : Kept [.regs, .events, .dram, .time, .eth, .host] P) (q : Nat) (h : LqHead) (status sec ns : Nat) (s : State)
    (hP : Holds P s) :
    Holds P (lqAdvance q h status sec ns s) := by
  have k0 : Kept [] P := kp.mono (by decide)
  have k1 : Kept [.eth] P := kp.mono (by decide)
  have k2 : Kept [.dram] P := kp.mono (by decide)
  have k3 : Kept [.regs] P := kp.mono (by decide)
  have k4 : Kept [.regs, .events, .time, .host] P := kp.mono (by decide)
  unfold lqAdvance
  dsimp only
  repeat' with_reducible first
    | exact hP | assumption | apply kept_onlyIf k0 | apply kept_modEth k1 | apply kept_lqArrive k1
    | apply kept_dramPut k2 | apply kept_wr k3 | apply kept_irq k4 | apply holds_if | intro _

theorem kept_lqSend (kp : Kept [.regs, .events, .dram, .time, .eth, .host] P) (q : Nat) (h : LqHead) (status : Nat) (s : State) (hP : Holds P s) :
    Holds P (lqSend q h status s) := by
  have k0 : Kept [.regs, .events, .dram, .time, .eth, .host] P := kp.mono (by decide)
  have k1 : Kept [.eth] P := kp.mono (by decide)
  unfold lqSend
  dsimp only
  repeat' with_reducible first
    | exact hP | assumption | apply kept_lqAdvance k0 | apply kept_modEth k1

theorem kept_pmuLate (kp : Kept [.regs, .events, .time, .host] P) (q : Nat) (h : LqHead) (s : State) (hP : Holds P s) :
    Holds P (pmuLate q h s) := by
  have k0 : Kept [.regs, .events, .time, .host] P := kp.mono (by decide)
  have k1 : Kept [.regs, .events] P := kp.mono (by decide)
  unfold pmuLate
  repeat' with_reducible first
    | exact hP | assumption | apply kept_irq k0 | apply kept_cntUp k1 | apply holds_if | intro _

theorem kept_doFrameLaunch (kp : Kept [.regs, .events, .dram, .time, .eth, .host] P) (q : Nat) (portFree : Bool) (s : State) (hP : Holds P s) :
    Holds P (doFrameLaunch q portFree s) := by
  have k0 : Kept [.regs, .events, .dram, .time, .eth, .host] P := kp.mono (by decide)
  have k1 : Kept [.regs, .events] P := kp.mono (by decide)
  have k2 : Kept [.regs, .events, .time, .host] P := kp.mono (by decide)
  unfold doFrameLaunch
  dsimp only
  repeat' with_reducible first
    | exact hP | assumption | apply kept_lqAdvance k0 | apply kept_cntSat k1 | apply kept_lqSend k0
    | apply kept_pmuLate k2 | apply holds_if | split | intro _

theorem kept_lqPush (kp : Kept [.regs, .dram, .eth] P) (q port : Nat) (t : Option (Nat × Nat)) (f : List Byte) (s : State) (hP : Holds P s) :
    Holds P (lqPush q port t f s) := by
  have k0 : Kept [.regs] P := kp.mono (by decide)
  have k1 : Kept [.dram] P := kp.mono (by decide)
  have k2 : Kept [.eth] P := kp.mono (by decide)
  have k3 : Kept [] P := kp.mono (by decide)
  unfold lqPush
  dsimp only
  repeat' with_reducible first
    | exact hP | assumption | apply kept_wr k0 | apply kept_dramPut k1 | apply kept_modEth k2 | apply kept_onlyIf k3
    | apply kept_lqArrive k2

theorem kept_doPmuReport (kp : Kept [.regs, .events, .dram, .time, .eth, .host] P) (body : List Byte) (trig : Nat) (s : State) (hP : Holds P s) :
    Holds P (doPmuReport body trig s) := by
  have k0 : Kept [.regs, .events, .time, .host] P := kp.mono (by decide)
  have k1 : Kept [.regs, .dram, .eth] P := kp.mono (by decide)
  unfold doPmuReport
  dsimp only
  repeat' with_reducible first
    | exact hP | assumption | apply kept_timeStick k0 | apply kept_lqPush k1 | apply holds_if | intro _

theorem kept_doPmuCfgChange (kp : Kept [.regs, .events, .time, .meas, .host] P) (s : State) (hP : Holds P s) :
    Holds P (doPmuCfgChange s) := by
  have k0 : Kept [.regs, .events, .time, .host] P := kp.mono (by decide)
  have k1 : Kept [.meas] P := kp.mono (by decide)
  unfold doPmuCfgChange
  repeat' with_reducible first
    | exact hP | assumption | apply kept_irq k0 | apply kept_modMeas k1 | apply holds_if | intro _

theorem kept_doDataOn (kp : Kept [.meas] P) (s : State) (hP : Holds P s) :
    Holds P (doDataOn s) := by
  have k0 : Kept [.meas] P := kp.mono (by decide)
  unfold doDataOn
  repeat' with_reducible first
    | exact hP | assumption | apply kept_modMeas k0

theorem kept_doDataOff (kp : Kept [.meas] P) (s : State) (hP : Holds P s) :
    Holds P (doDataOff s) := by
  have k0 : Kept [.meas] P := kp.mono (by decide)
  unfold doDataOff
  repeat' with_reducible first
    | exact hP | assumption | apply kept_modMeas k0

theorem kept_pmuImmediate (kp : Kept [.regs, .events, .dram, .time, .eth, .host] P) (sync : Nat) (body : List Byte) (s : State) (hP : Holds P s) :
    Holds P (pmuImmediate sync body s) := by
  have k0 : Kept [.regs, .events, .time, .host] P := kp.mono (by decide)
  have k1 : Kept [.regs, .dram, .eth] P := kp.mono (by decide)
  unfold pmuImmediate
  repeat' with_reducible first
    | exact hP | assumption | apply kept_timeStick k0 | apply kept_lqPush k1 | apply holds_if | intro _

theorem kept_doSendCfg2 (kp : Kept [.regs, .events, .dram, .time, .eth, .host] P) (s : State) (hP : Holds P s) :
    Holds P (doSendCfg2 s) := by
  have k0 : Kept [.regs, .events, .dram, .time, .eth, .host] P := kp.mono (by decide)
  unfold doSendCfg2
  repeat' with_reducible first
    | exact hP | assumption | apply kept_pmuImmediate k0

theorem kept_doSendHdr (kp : Kept [.regs, .events, .dram, .time, .eth, .host] P) (s : State) (hP : Holds P s) :
    Holds P (doSendHdr s) := by
  have k0 : Kept [.regs, .events, .dram, .time, .eth, .host] P := kp.mono (by decide)
  unfold doSendHdr
  repeat' with_reducible first
    | exact hP | assumption | apply kept_pmuImmediate k0

theorem kept_pmuCmd (kp : Kept [.regs, .events, .dram, .time, .eth, .meas, .host] P) (v : Word) (s : State) (hP : Holds P s) :
    Holds P (pmuCmd v s) := by
  have k0 : Kept [] P := kp.mono (by decide)
  have k1 : Kept [.regs, .events, .dram, .time, .eth, .host] P := kp.mono (by decide)
  have k2 : Kept [.meas] P := kp.mono (by decide)
  unfold pmuCmd
  repeat' with_reducible first
    | exact hP | assumption | apply kept_onlyIf k0 | apply kept_doSendHdr k1 | apply kept_doSendCfg2 k1
    | apply kept_doDataOff k2 | apply kept_doDataOn k2

theorem kept_doPmuNotice (kp : Kept [.meas] P) (v : Word) (s : State) (hP : Holds P s) :
    Holds P (doPmuNotice v s) := by
  have k0 : Kept [.meas] P := kp.mono (by decide)
  unfold doPmuNotice
  repeat' with_reducible first
    | exact hP | assumption | apply kept_modMeas k0 | apply holds_if | intro _

theorem kept_doTwFront (kp : Kept [.meas] P) (comp ch rise : Nat) (s : State) (hP : Holds P s) :
    Holds P (doTwFront comp ch rise s) := by
  have k0 : Kept [.meas] P := kp.mono (by decide)
  unfold doTwFront
  dsimp only
  repeat' with_reducible first
    | exact hP | assumption | apply kept_recTrigger k0 | apply kept_modMeas k0 | apply kept_addFront k0
    | apply holds_if | split | intro _

theorem kept_doTwEventEnd (kp : Kept [.regs, .events, .dram, .time, .eth, .meas, .host] P) (s : State) (hP : Holds P s) :
    Holds P (doTwEventEnd s) := by
  have k0 : Kept [.regs, .events, .time, .host] P := kp.mono (by decide)
  have k1 : Kept [.meas] P := kp.mono (by decide)
  have k2 : Kept [.regs, .dram, .eth] P := kp.mono (by decide)
  unfold doTwEventEnd
  dsimp only
  repeat' with_reducible first
    | exact hP | assumption | apply kept_irq k0 | apply kept_modMeas k1 | apply kept_timeStick k0
    | apply kept_lqPush k2 | apply holds_if | apply holds_foldl | intro _

theorem kept_doTwLocateDone (kp : Kept [.regs, .events, .time, .host] P) (s : State) (hP : Holds P s) :
    Holds P (doTwLocateDone s) := by
  have k0 : Kept [.regs, .events, .time, .host] P := kp.mono (by decide)
  unfold doTwLocateDone
  dsimp only
  repeat' with_reducible first
    | exact hP | assumption | apply kept_endSlot k0 | split

theorem kept_doPowerOnReset (kp : Kept [.bracken] P) (s : State) (hr : ∀ t, P t → P (resetDevice t)) (h : Holds P s) :
    Holds P (doPowerOnReset s) := kept_modBr (kp.mono (by decide)) _ _ (hr _ h)

theorem kept_blockCells (kp : Kept [.links] P) (s : State) (hP : Holds P s) :
    Holds P (blockCells s) := by
  have k0 : Kept [.links] P := kp.mono (by decide)
  unfold blockCells
  repeat' with_reducible first
    | exact hP | assumption | apply kept_modCell k0 | apply holds_if | apply holds_forEach | intro _

theorem kept_powerTherm (kp : Kept [.therm, .power] P) (x : Power) (y : Therm) (s : State) (h : Holds P s) :
    Holds P { s with power := x, therm := y } := kp.therm (by decide) { s with power := x } y (kp.power (by decide) s x h)

theorem kept_resetWarm (kp : Kept [.links, .meter, .therm, .power] P) (b : Nat) (s : State) (hr : ∀ t, P t → P (resetDevice t)) (h : Holds P s) :
    Holds P (resetWarm b s) := by
  unfold resetWarm
  extract_lets s1 s2
  exact kept_powerTherm (kp.mono (by decide)) _ _ s2 (hr _ (kept_meterFinal (kp.mono (by decide)) _ (kept_blockCells (kp.mono (by decide)) _ h)))

theorem kept_doResetN (kp : Kept [.links, .meter, .therm, .power] P) (s : State) (hr : ∀ t, P t → P (resetDevice t)) (h : Holds P s) :
    Holds P (doResetN s) := holds_if (fun _ => h) (fun _ => kept_resetWarm (kp.mono (by decide)) _ _ hr h)

theorem kept_doDieShutdown (kp : KeptDev [.regs, .events, .dev, .groups, .links, .mod, .gorse, .time, .meas, .meter, .host, .therm, .power] P) (d : Nat) (s : State) (hr : ∀ t, P t → P (resetDevice t)) (h : Holds P s) :
    Holds P (doDieShutdown d s) :=
  holds_if (fun _ => h) (fun _ => kept_modPower (kp.toKept.mono (by decide)) _ _ (kept_resetWarm (kp.toKept.mono (by decide)) _ _ hr
    (kept_modTherm (kp.toKept.mono (by decide)) _ _ (kept_bRise (kp.mono (by decide)) _ _ h))))

theorem kept_doPerstN (kp : Kept [.regs, .host, .power] P) (s : State) (h : Holds P s) : Holds P (doPerstN s) := by
  unfold doPerstN
  extract_lets s1 s2
  exact kept_modPower (kp.mono (by decide)) _ _ (kept_modHost (kp.mono (by decide)) _ _ (kept_clrRegs (kp.mono (by decide)) _ _ _ h))

theorem kept_releaseReset (kp : KeptDev [.regs, .events, .dev, .groups, .damask, .links, .mod, .gorse, .time, .meas, .host, .power] P)
    (x : Straps) (s : State) (hP : Holds P s) :
    Holds P (releaseReset x s) := by
  have k0 : Kept [.power] P := kp.toKept.mono (by decide)
  have k1 : Kept [.damask] P := kp.toKept.mono (by decide)
  have k2 : Kept [.regs, .events, .time, .host] P := kp.toKept.mono (by decide)
  have k3 : Kept [.gorse] P := kp.toKept.mono (by decide)
  have k4 : KeptDev [.regs, .events, .dev, .groups, .links, .mod, .gorse, .time, .meas, .host, .power] P := kp.mono (by decide)
  unfold releaseReset
  dsimp only
  repeat' with_reducible first
    | exact hP | assumption | apply kept_modPower k0 | apply kept_modDamask k1 | apply kept_pwrFlag k2
    | apply kept_modGorse k3 | apply kept_bRise k4 | apply holds_if | intro _

theorem kept_doResetRelease (kp : KeptDev [.regs, .events, .dev, .groups, .damask, .links, .mod, .gorse, .time, .meas, .host, .power] P)
    (x : Straps) (s : State) (hP : Holds P s) :
    Holds P (doResetRelease x s) := by
  have k0 : KeptDev [.regs, .events, .dev, .groups, .damask, .links, .mod, .gorse, .time, .meas, .host, .power] P := kp.mono (by decide)
  unfold doResetRelease
  repeat' with_reducible first
    | exact hP | assumption | apply kept_releaseReset k0 | apply holds_if | intro _

theorem kept_doDieShutdownRelease
    (kp : KeptDev [.regs, .events, .dev, .groups, .damask, .links, .mod, .gorse, .time, .meas, .host, .power] P) (x : Straps) (s : State) (hP : Holds P s) :
    Holds P (doDieShutdownRelease x s) := by
  have k0 : KeptDev [.regs, .events, .dev, .groups, .damask, .links, .mod, .gorse, .time, .meas, .host, .power] P := kp.mono (by decide)
  have k1 : Kept [.power] P := kp.toKept.mono (by decide)
  unfold doDieShutdownRelease
  dsimp only
  repeat' with_reducible first
    | exact hP | assumption | apply kept_releaseReset k0 | apply kept_modPower k1 | apply holds_if | intro _

theorem kept_stbyGo (kp : Kept [.regs, .events, .links, .time, .host, .power] P) (s : State) (hP : Holds P s) :
    Holds P (stbyGo s) := by
  have k0 : Kept [.regs, .events, .links, .time, .host] P := kp.mono (by decide)
  have k1 : Kept [.power] P := kp.mono (by decide)
  unfold stbyGo
  dsimp only
  repeat' with_reducible first
    | exact hP | assumption | apply kept_dckOff k0 | apply kept_modPower k1 | apply holds_forEach

theorem kept_stbyWrite (kp : Kept [.regs, .events, .links, .time, .host, .power] P) (v : Word) (s : State) (hP : Holds P s) :
    Holds P (stbyWrite v s) := by
  have k0 : Kept [.power] P := kp.mono (by decide)
  have k1 : Kept [.regs, .events, .links, .time, .host, .power] P := kp.mono (by decide)
  have k2 : Kept [.regs, .events, .time, .host] P := kp.mono (by decide)
  unfold stbyWrite
  repeat' with_reducible first
    | exact hP | assumption | apply kept_modPower k0 | apply kept_stbyGo k1 | apply kept_pwrFlag k2
    | apply kept_wake k0 | apply holds_if | split | intro _

theorem kept_doStandbyEnter (kp : Kept [.regs, .events, .links, .time, .host, .power] P) (v : Word) (s : State) (hP : Holds P s) :
    Holds P (doStandbyEnter v s) := by
  have k0 : Kept [.regs, .events, .links, .time, .host, .power] P := kp.mono (by decide)
  unfold doStandbyEnter
  repeat' with_reducible first
    | exact hP | assumption | apply kept_stbyWrite k0

theorem kept_doStandbyWake (kp : Kept [.regs, .events, .links, .time, .host, .power] P) (v : Word) (s : State) (hP : Holds P s) :
    Holds P (doStandbyWake v s) := by
  have k0 : Kept [.regs, .events, .links, .time, .host, .power] P := kp.mono (by decide)
  unfold doStandbyWake
  repeat' with_reducible first
    | exact hP | assumption | apply kept_stbyWrite k0

theorem kept_doStandbyExitDone (kp : Kept [.links, .power] P) (s : State) (hP : Holds P s) :
    Holds P (doStandbyExitDone s) := by
  have k0 : Kept [.links] P := kp.mono (by decide)
  have k1 : Kept [.power] P := kp.mono (by decide)
  unfold doStandbyExitDone
  dsimp only
  repeat' with_reducible first
    | exact hP | assumption | apply kept_dckOn k0 | apply kept_modPower k1 | apply holds_if | apply holds_forEach
    | intro _

theorem kept_capSet (kp : Kept [.host] P) (i : Iface) (a : Nat) (w : Word) (s : State) (hP : Holds P s) :
    Holds P (capSet i a w s) := by
  have k0 : Kept [.host] P := kp.mono (by decide)
  unfold capSet
  repeat' with_reducible first
    | exact hP | assumption | apply kept_modHost k0

theorem kept_captures (kp : Kept [.host] P) (i : Iface) (a : Nat) (s : State) (hP : Holds P s) :
    Holds P (captures i a s) := by
  have k0 : Kept [.host] P := kp.mono (by decide)
  unfold captures
  repeat' with_reducible first
    | exact hP | assumption | apply kept_capSet k0 | apply holds_if | intro _

theorem kept_readMarks (kp : Kept [.gorse, .bracken] P) (i : Iface) (a : Nat) (s : State) (hP : Holds P s) :
    Holds P (readMarks i a s) := by
  have k0 : Kept [.gorse] P := kp.mono (by decide)
  have k1 : Kept [.bracken] P := kp.mono (by decide)
  unfold readMarks
  dsimp only
  repeat' with_reducible first
    | exact hP | assumption | apply kept_modGorse k0 | apply kept_modBr k1 | apply holds_if | intro _

theorem kept_readReg (kp : Kept [.regs, .gorse, .bracken, .host] P) (i : Iface) (a : Nat) (s : State) (hP : Holds P s) :
    Holds P (readReg i a s) := by
  have k0 : Kept [.host] P := kp.mono (by decide)
  have k1 : Kept [.regs] P := kp.mono (by decide)
  have k2 : Kept [.gorse, .bracken] P := kp.mono (by decide)
  unfold readReg
  dsimp only
  repeat' with_reducible first
    | exact hP | assumption | apply kept_captures k0 | apply kept_modHost k0 | apply kept_wr k1
    | apply kept_readMarks k2 | apply holds_if | intro _

theorem kept_accessErr (kp : Kept [.regs, .events, .time, .host] P) (s : State) (hP : Holds P s) :
    Holds P (accessErr s) := by
  have k0 : Kept [.regs, .events, .time, .host] P := kp.mono (by decide)
  have k1 : Kept [.regs, .events] P := kp.mono (by decide)
  unfold accessErr
  repeat' with_reducible first
    | exact hP | assumption | apply kept_globalStick k0 | apply kept_cntSat k1

theorem kept_setResult (kp : Kept [.host] P) (r : BusResult) (s : State) (hP : Holds P s) :
    Holds P (setResult r s) := by
  have k0 : Kept [.host] P := kp.mono (by decide)
  unfold setResult
  repeat' with_reducible first
    | exact hP | assumption | apply kept_modHost k0

theorem kept_cfgRead (kp : Kept [.host] P) (o len : Nat) (s : State) (hP : Holds P s) :
    Holds P (cfgRead o len s) := by
  have k0 : Kept [.host] P := kp.mono (by decide)
  unfold cfgRead
  repeat' with_reducible first
    | exact hP | assumption | apply kept_setResult k0 | apply holds_if | intro _

theorem kept_hostRead (kp : Kept [.regs, .events, .gorse, .time, .bracken, .host] P) (addr len : Nat) (s : State) (hP : Holds P s) :
    Holds P (hostRead addr len s) := by
  have k0 : Kept [.host] P := kp.mono (by decide)
  have k1 : Kept [.regs, .events, .time, .host] P := kp.mono (by decide)
  have k2 : Kept [.regs, .gorse, .bracken, .host] P := kp.mono (by decide)
  unfold hostRead
  dsimp only
  repeat' with_reducible first
    | exact hP | assumption | apply kept_cfgRead k0 | apply kept_setResult k0 | apply kept_accessErr k1
    | apply kept_readReg k2 | apply holds_if | intro _

theorem kept_svcReadAt (kp : Kept [.regs, .events, .gorse, .time, .bracken, .host] P) (a : Nat) (s : State) (hP : Holds P s) :
    Holds P (svcReadAt a s) := by
  have k0 : Kept [.gorse, .host] P := kp.mono (by decide)
  have k1 : Kept [.host] P := kp.mono (by decide)
  have k2 : Kept [.regs, .gorse, .bracken, .host] P := kp.mono (by decide)
  have k3 : Kept [.regs, .events, .time, .host] P := kp.mono (by decide)
  unfold svcReadAt
  dsimp only
  repeat' with_reducible first
    | exact hP | assumption | apply kept_svcAccess k0 | apply kept_svcDone k1 | apply kept_readReg k2
    | apply kept_stick k3 | apply holds_if | intro _

theorem kept_ifaceRead (kp : Kept [.regs, .events, .gorse, .time, .bracken, .host] P) (i : Iface) (a : Nat) (s : State) (hP : Holds P s) :
    Holds P (ifaceRead i a s) := by
  have k0 : Kept [.regs, .events, .gorse, .time, .bracken, .host] P := kp.mono (by decide)
  unfold ifaceRead
  repeat' with_reducible first
    | exact hP | assumption | apply kept_hostRead k0 | apply kept_svcReadAt k0 | split

theorem kept_doTripRecRead (kp : Kept [.regs, .events, .gorse, .time, .bracken, .host] P) (i : Iface) (r : Nat) (s : State) (hP : Holds P s) :
    Holds P (doTripRecRead i r s) := by
  have k0 : Kept [.regs, .events, .gorse, .time, .bracken, .host] P := kp.mono (by decide)
  unfold doTripRecRead
  repeat' with_reducible first
    | exact hP | assumption | apply kept_ifaceRead k0

theorem kept_doAdcDataRead (kp : Kept [.regs, .events, .gorse, .time, .bracken, .host] P) (n : Nat) (landing : Option (BitVec 22))
    (s : State) (hP : Holds P s) :
    Holds P (doAdcDataRead n landing s) := by
  have k0 : Kept [.regs, .events, .gorse, .time, .bracken, .host] P := kp.mono (by decide)
  have k1 : Kept [.regs, .events] P := kp.mono (by decide)
  unfold doAdcDataRead
  dsimp only
  repeat' with_reducible first
    | exact hP | assumption | apply kept_hostRead k0 | apply kept_landWord k1 | split

theorem kept_doCapRead (kp : Kept [.regs, .events, .gorse, .time, .bracken, .host] P) (i : Iface) (k : Nat) (s : State) (hP : Holds P s) :
    Holds P (doCapRead i k s) := by
  have k0 : Kept [.regs, .events, .gorse, .time, .bracken, .host] P := kp.mono (by decide)
  unfold doCapRead
  repeat' with_reducible first
    | exact hP | assumption | apply kept_ifaceRead k0

theorem kept_doReg64LowRead (kp : Kept [.regs, .events, .gorse, .time, .bracken, .host] P) (i : Iface) (addr : Nat) (s : State) (hP : Holds P s) :
    Holds P (doReg64LowRead i addr s) := by
  have k0 : Kept [.regs, .events, .gorse, .time, .bracken, .host] P := kp.mono (by decide)
  unfold doReg64LowRead
  repeat' with_reducible first
    | exact hP | assumption | apply kept_ifaceRead k0 | apply holds_if | intro _

theorem kept_doTimeNsRead (kp : Kept [.regs, .events, .gorse, .time, .bracken, .host] P) (i : Iface) (s : State) (hP : Holds P s) :
    Holds P (doTimeNsRead i s) := by
  have k0 : Kept [.regs, .events, .gorse, .time, .bracken, .host] P := kp.mono (by decide)
  unfold doTimeNsRead
  repeat' with_reducible first
    | exact hP | assumption | apply kept_ifaceRead k0

theorem kept_doRcRead (kp : Kept [.regs, .events, .gorse, .time, .bracken, .host] P) (i : Iface) (addr len : Nat) (s : State) (hP : Holds P s) :
    Holds P (doRcRead i addr len s) := by
  have k0 : Kept [.regs, .events, .gorse, .time, .bracken, .host] P := kp.mono (by decide)
  unfold doRcRead
  repeat' with_reducible first
    | exact hP | assumption | apply kept_hostRead k0 | apply kept_ifaceRead k0 | split

theorem kept_doBar2Read (kp : Kept [.regs, .events, .time, .host] P) (off len : Nat) (ecc : Ecc) (s : State) (hP : Holds P s) :
    Holds P (doBar2Read off len ecc s) := by
  have k0 : Kept [.host] P := kp.mono (by decide)
  have k1 : Kept [.regs, .events, .time, .host] P := kp.mono (by decide)
  have k2 : Kept [.regs, .events] P := kp.mono (by decide)
  unfold doBar2Read
  repeat' with_reducible first
    | exact hP | assumption | apply kept_setResult k0 | apply kept_globalStick k1 | apply kept_cntSat k2 | split

theorem kept_doK283Rx (kp : KeptDev [.regs, .events, .dev, .groups, .links, .mod, .gorse, .time, .meas, .host, .power] P) (l : Nat)
    (s : State) (hP : Holds P s) :
    Holds P (doK283Rx l s) := by
  have k0 : KeptDev [.regs, .events, .dev, .groups, .links, .mod, .gorse, .time, .meas, .host, .power] P := kp.mono (by decide)
  have k1 : Kept [.gorse] P := kp.toKept.mono (by decide)
  have k2 : Kept [.regs, .events, .time, .host] P := kp.toKept.mono (by decide)
  unfold doK283Rx
  repeat' with_reducible first
    | exact hP | assumption | apply kept_bAssert k0 | apply kept_setLive k1 | apply kept_protoStick k2

theorem kept_doWzTrip (kp : KeptDev [.regs, .events, .dev, .groups, .links, .mod, .gorse, .time, .meas, .host, .power] P) (port : Nat)
    (s : State) (hP : Holds P s) :
    Holds P (doWzTrip port s) := by
  have k0 : KeptDev [.regs, .events, .dev, .groups, .links, .mod, .gorse, .time, .meas, .host, .power] P := kp.mono (by decide)
  have k1 : Kept [.gorse] P := kp.toKept.mono (by decide)
  have k2 : Kept [.links] P := kp.toKept.mono (by decide)
  unfold doWzTrip
  repeat' with_reducible first
    | exact hP | assumption | apply kept_bAssert k0 | apply kept_setLive k1 | apply kept_modLink k2 | apply holds_if
    | intro _

theorem kept_doWzLink (kp : KeptDev [.regs, .events, .dev, .groups, .links, .mod, .gorse, .time, .meas, .host, .power] P) (port : Nat)
    (s : State) (hP : Holds P s) :
    Holds P (doWzLink port s) := by
  have k0 : KeptDev [.regs, .events, .dev, .groups, .links, .mod, .gorse, .time, .meas, .host, .power] P := kp.mono (by decide)
  unfold doWzLink
  repeat' with_reducible first
    | exact hP | assumption | apply kept_bRise k0 | apply holds_if | intro _

theorem kept_trimApply (kp : Kept [.regs, .events, .links, .time, .host] P) (l : Nat) (s : State) (hP : Holds P s) :
    Holds P (trimApply l s) := by
  have k0 : Kept [.regs, .events, .links, .time, .host] P := kp.mono (by decide)
  have k1 : Kept [.links] P := kp.mono (by decide)
  unfold trimApply
  repeat' with_reducible first
    | exact hP | assumption | apply kept_rangeUpdate k0 | apply kept_modLink k1 | split

theorem kept_gridSend (kp : Kept [.links] P) (l : Nat) (launch : Int) (s : State) (hP : Holds P s) :
    Holds P (gridSend l launch s) := by
  have k0 : Kept [.links] P := kp.mono (by decide)
  unfold gridSend
  dsimp only
  repeat' with_reducible first
    | exact hP | assumption | apply kept_modLink k0 | apply holds_if | split | intro _

theorem kept_frameCount (kp : Kept [.links] P) (l : Nat) (s : State) (hP : Holds P s) :
    Holds P (frameCount l s) := by
  have k0 : Kept [.links] P := kp.mono (by decide)
  unfold frameCount
  repeat' with_reducible first
    | exact hP | assumption | apply kept_modLink k0

theorem kept_frameSend (kp : Kept [.links] P) (l : Nat) (s0 : State) (hP : Holds P s0) :
    Holds P (frameSend l s0) := by
  have k0 : Kept [.links] P := kp.mono (by decide)
  unfold frameSend
  dsimp only
  repeat' with_reducible first
    | exact hP | assumption | apply kept_gridSend k0 | apply kept_modLink k0

theorem kept_doDownstreamSuperframeStart (kp : Kept [.regs, .events, .links, .time, .host] P) (l : Nat) (s : State) (hP : Holds P s) :
    Holds P (doDownstreamSuperframeStart l s) := by
  have k0 : Kept [.regs, .events, .links, .time, .host] P := kp.mono (by decide)
  have k1 : Kept [.links] P := kp.mono (by decide)
  have k2 : Kept [.regs, .events, .links] P := kp.mono (by decide)
  unfold doDownstreamSuperframeStart
  dsimp only
  repeat' with_reducible first
    | exact hP | assumption | apply kept_trimApply k0 | apply kept_frameSend k1 | apply kept_frameCount k1
    | apply kept_trainRx k0 | apply kept_loopRx k2 | apply kept_modCell k1 | apply holds_if | intro _

theorem kept_cellReport (kp : Kept [.regs, .events, .links, .time, .host, .therm] P) (l : Nat) (b : List Byte) (s : State) (hP : Holds P s) :
    Holds P (cellReport l b s) := by
  have k0 : Kept [.links] P := kp.mono (by decide)
  have k1 : Kept [.regs, .events, .time, .host, .therm] P := kp.mono (by decide)
  have k2 : Kept [.regs, .events, .time, .host] P := kp.mono (by decide)
  unfold cellReport
  dsimp only
  repeat' with_reducible first
    | exact hP | assumption | apply kept_modLink k0 | apply kept_histFeed k1 | apply kept_protoStick k2
    | apply holds_if | intro _

theorem kept_doGrid (kp : Kept [.regs, .events, .groups, .links, .time, .host] P) (port cg bcount off period : Nat) (s : State) (hP : Holds P s) :
    Holds P (doGrid port cg bcount off period s) := by
  have k0 : Kept [.links] P := kp.mono (by decide)
  have k1 : Kept [.groups] P := kp.mono (by decide)
  have k2 : Kept [.regs, .events, .time, .host] P := kp.mono (by decide)
  unfold doGrid
  dsimp only
  repeat' with_reducible first
    | exact hP | assumption | apply kept_modLink k0 | apply kept_modGroup k1 | apply kept_groupCreate k1
    | apply kept_protoStick k2 | apply holds_if | intro _

theorem kept_upMsg (kp : Kept [.regs, .events, .groups, .links, .time, .host, .therm] P) (l : Nat) (m : UpMsg) (s : State) (hP : Holds P s) :
    Holds P (upMsg l m s) := by
  have k0 : Kept [.regs, .events, .links, .time, .host, .therm] P := kp.mono (by decide)
  have k1 : Kept [.links] P := kp.mono (by decide)
  have k2 : Kept [.regs, .events, .groups, .links, .time, .host] P := kp.mono (by decide)
  unfold upMsg
  repeat' with_reducible first
    | exact hP | assumption | apply kept_cellReport k0 | apply kept_modLink k1 | apply kept_doGrid k2 | split

theorem kept_payloadGroup (kp : Kept [.regs, .events, .groups, .links, .time, .host, .therm] P) (l : Nat) (syms : List Sym) (j : Nat)
    (s : State) (hP : Holds P s) :
    Holds P (payloadGroup l syms j s) := by
  have k0 : Kept [.regs, .events] P := kp.mono (by decide)
  have k1 : Kept [.regs, .events, .groups, .links, .time, .host, .therm] P := kp.mono (by decide)
  unfold payloadGroup
  repeat' with_reducible first
    | exact hP | assumption | apply kept_cntSat k0 | apply kept_upMsg k1 | apply holds_foldl | split | intro _

theorem kept_headerRx (kp : Kept [.regs, .events, .links, .time, .host] P) (l : Nat) (syms : List Sym) (s : State) (hP : Holds P s) :
    Holds P (headerRx l syms s) := by
  have k0 : Kept [.regs, .events] P := kp.mono (by decide)
  have k1 : Kept [.links] P := kp.mono (by decide)
  have k2 : Kept [.regs, .events, .time, .host] P := kp.mono (by decide)
  unfold headerRx
  dsimp only
  repeat' with_reducible first
    | exact hP | assumption | apply kept_cntSat k0 | apply kept_modLink k1 | apply kept_protoStick k2
    | apply holds_if | split | intro _

theorem kept_echoRx (kp : Kept [.regs, .events, .links, .time, .host, .therm] P) (l : Nat) (syms : List Sym) (t8 : Nat) (s : State) (hP : Holds P s) :
    Holds P (echoRx l syms t8 s) := by
  have k0 : Kept [.regs, .events, .time, .host, .therm] P := kp.mono (by decide)
  have k1 : Kept [.links] P := kp.mono (by decide)
  have k2 : Kept [.regs, .events] P := kp.mono (by decide)
  unfold echoRx
  dsimp only
  repeat' with_reducible first
    | exact hP | assumption | apply kept_histFeed k0 | apply kept_modLink k1 | apply kept_cntSat k2 | apply holds_if
    | intro _

theorem kept_opRx (kp : KeptDev [.regs, .events, .dev, .groups, .links, .mod, .gorse, .time, .meas, .host, .therm, .power] P) (l : Nat)
    (syms : List Sym) (t8 : Nat) (s : State) (hP : Holds P s) :
    Holds P (opRx l syms t8 s) := by
  have k0 : Kept [.links] P := kp.toKept.mono (by decide)
  have k1 : Kept [.regs, .events, .time, .host] P := kp.toKept.mono (by decide)
  have k2 : KeptDev [.regs, .events, .dev, .groups, .links, .mod, .gorse, .time, .meas, .host, .power] P := kp.mono (by decide)
  have k3 : Kept [.gorse] P := kp.toKept.mono (by decide)
  have k4 : Kept [.regs, .events, .groups, .links, .time, .host, .therm] P := kp.toKept.mono (by decide)
  have k5 : Kept [.regs, .events, .links, .time, .host, .therm] P := kp.toKept.mono (by decide)
  have k6 : Kept [.regs, .events, .links, .time, .host] P := kp.toKept.mono (by decide)
  unfold opRx
  dsimp only
  repeat' with_reducible first
    | exact hP | assumption | apply kept_modLink k0 | apply kept_countCodes k1 | apply kept_doWzTrip k2
    | apply kept_setLive k3 | apply kept_doK283Rx k2 | apply kept_payloadGroup k4 | apply kept_echoRx k5
    | apply kept_headerRx k6 | apply holds_if | apply holds_forEach | intro _

theorem kept_doUpstreamSuperframeRx
    (kp : KeptDev [.regs, .events, .dirty, .dev, .groups, .links, .mod, .gorse, .time, .meas, .host, .therm, .power] P) (l : Nat) (groups : List (BitVec 10)) (t8 : Nat) (s0 : State) (hP : Holds P s0) :
    Holds P (doUpstreamSuperframeRx l groups t8 s0) := by
  have k0 : Kept [.links] P := kp.toKept.mono (by decide)
  have k1 : Kept [.regs, .dirty, .links] P := kp.toKept.mono (by decide)
  have k2 : KeptDev [.regs, .events, .dev, .groups, .links, .mod, .gorse, .time, .meas, .host, .therm, .power] P := kp.mono (by decide)
  unfold doUpstreamSuperframeRx
  dsimp only
  repeat' with_reducible first
    | exact hP | assumption | apply kept_markerMark k0 | apply kept_enterLinked k1 | apply kept_opRx k2
    | apply kept_modLink k0 | apply holds_if | intro _

theorem kept_doEchoLoss (kp : Kept [.regs, .events, .links, .time, .host] P) (l : Nat) (s : State) (hP : Holds P s) :
    Holds P (doEchoLoss l s) := by
  have k0 : Kept [.regs, .events, .links, .time, .host] P := kp.mono (by decide)
  unfold doEchoLoss
  repeat' with_reducible first
    | exact hP | assumption | apply kept_latClear k0 | apply holds_if | intro _

theorem kept_latAcquire (kp : Kept [.links] P) (l : Nat) (est : Int) (s : State) (hP : Holds P s) :
    Holds P (latAcquire l est s) := by
  have k0 : Kept [.links] P := kp.mono (by decide)
  unfold latAcquire
  dsimp only
  repeat' with_reducible first
    | exact hP | assumption | apply kept_modLink k0 | apply holds_if | apply holds_foldl | intro _

theorem kept_latTrack (kp : Kept [.regs, .events, .links, .time, .host] P) (l : Nat) (est : Int) (s : State) (hP : Holds P s) :
    Holds P (latTrack l est s) := by
  have k0 : Kept [.regs, .events, .time, .host] P := kp.mono (by decide)
  have k1 : Kept [.links] P := kp.mono (by decide)
  unfold latTrack
  dsimp only
  repeat' with_reducible first
    | exact hP | assumption | apply kept_protoStick k0 | apply kept_modLink k1 | apply holds_if | intro _

theorem kept_doLatencyUpdate (kp : Kept [.regs, .events, .links, .time, .host] P) (l : Nat) (s : State) (hP : Holds P s) :
    Holds P (doLatencyUpdate l s) := by
  have k0 : Kept [.regs, .events, .links, .time, .host] P := kp.mono (by decide)
  have k1 : Kept [.links] P := kp.mono (by decide)
  unfold doLatencyUpdate
  dsimp only
  repeat' with_reducible first
    | exact hP | assumption | apply kept_latTrack k0 | apply kept_latAcquire k1 | apply kept_modLink k1
    | apply kept_rangeUpdate k0 | apply holds_if | intro _

theorem kept_doAsymTrimWrite (kp : Kept [.regs, .events, .links, .time, .host] P) (l : Nat) (v : Word) (s : State) (hP : Holds P s) :
    Holds P (doAsymTrimWrite l v s) := by
  have k0 : Kept [.links] P := kp.mono (by decide)
  have k1 : Kept [.regs] P := kp.mono (by decide)
  have k2 : Kept [.regs, .events, .time, .host] P := kp.mono (by decide)
  unfold doAsymTrimWrite
  dsimp only
  repeat' with_reducible first
    | exact hP | assumption | apply kept_modLink k0 | apply kept_wr k1 | apply kept_clampSeen k2

theorem kept_doDckStop (kp : Kept [.regs, .events, .links, .time, .host] P) (l : Nat) (s : State) (hP : Holds P s) :
    Holds P (doDckStop l s) := by
  have k0 : Kept [.regs, .events, .links, .time, .host] P := kp.mono (by decide)
  unfold doDckStop
  dsimp only
  repeat' with_reducible first
    | exact hP | assumption | apply kept_dckOff k0 | apply holds_if | intro _

theorem kept_vecAckOne (kp : Kept [.regs, .events, .time, .host, .therm] P) (v : Nat) (s : State) (hP : Holds P s) :
    Holds P (vecAckOne v s) := by
  have k0 : Kept [.regs, .events, .time, .host, .therm] P := kp.mono (by decide)
  have k1 : Kept [.time] P := kp.mono (by decide)
  have k2 : Kept [.host] P := kp.mono (by decide)
  have k3 : Kept [.regs, .time, .host] P := kp.mono (by decide)
  unfold vecAckOne
  dsimp only
  repeat' with_reducible first
    | exact hP | assumption | apply kept_histFeed k0 | apply kept_modTime k1 | apply kept_modHost k2
    | apply kept_vecRaise k3 | apply holds_if | intro _

theorem kept_doVecAck (kp : Kept [.regs, .events, .time, .host, .therm] P) (hi : Bool) (v : Word) (s : State) (hP : Holds P s) :
    Holds P (doVecAck hi v s) := by
  have k0 : Kept [.regs, .events, .time, .host, .therm] P := kp.mono (by decide)
  unfold doVecAck
  repeat' with_reducible first
    | exact hP | assumption | apply kept_vecAckOne k0 | apply holds_forEach | intro _

theorem kept_vecSend (kp : Kept [.host] P) (v : Nat) (s : State) (hP : Holds P s) :
    Holds P (vecSend v s) := by
  have k0 : Kept [.host] P := kp.mono (by decide)
  unfold vecSend
  repeat' with_reducible first
    | exact hP | assumption | apply kept_modHost k0 | apply holds_if | intro _

theorem kept_doMsixEnable (kp : Kept [.regs, .time, .host] P) (s : State) (hP : Holds P s) :
    Holds P (doMsixEnable s) := by
  have k0 : Kept [.regs, .time, .host] P := kp.mono (by decide)
  have k1 : Kept [.host] P := kp.mono (by decide)
  unfold doMsixEnable
  repeat' with_reducible first
    | exact hP | assumption | apply kept_vecRaise k0 | apply kept_vecSend k1 | apply kept_modHost k1 | apply holds_if
    | apply holds_forEach | intro _

theorem kept_msixWrite (kp : Kept [.regs, .host] P) (a : Nat) (v : Word) (s : State) (hP : Holds P s) :
    Holds P (msixWrite a v s) := by
  have k0 : Kept [.regs] P := kp.mono (by decide)
  have k1 : Kept [.host] P := kp.mono (by decide)
  unfold msixWrite
  dsimp only
  repeat' with_reducible first
    | exact hP | assumption | apply kept_wr k0 | apply kept_vecSend k1 | apply holds_if | intro _

theorem kept_doHostWdogKick (kp : Kept [.gorse, .host] P) (v : Word) (s : State) (hP : Holds P s) :
    Holds P (doHostWdogKick v s) := by
  have k0 : Kept [.gorse, .host] P := kp.mono (by decide)
  unfold doHostWdogKick
  repeat' with_reducible first
    | exact hP | assumption | apply kept_hostRestart k0 | apply holds_if | intro _

theorem kept_doSvcWdogKick (kp : Kept [.gorse, .host] P) (v : Word) (s : State) (hP : Holds P s) :
    Holds P (doSvcWdogKick v s) := by
  have k0 : Kept [.gorse, .host] P := kp.mono (by decide)
  unfold doSvcWdogKick
  repeat' with_reducible first
    | exact hP | assumption | apply kept_svcRestart k0 | apply holds_if | intro _

theorem kept_doWatchdogExpire (kp : KeptDev [.regs, .events, .dev, .groups, .links, .mod, .gorse, .time, .meas, .host, .power] P)
    (svc : Bool) (s : State) (hP : Holds P s) :
    Holds P (doWatchdogExpire svc s) := by
  have k0 : Kept [.host] P := kp.toKept.mono (by decide)
  have k1 : KeptDev [.regs, .events, .dev, .groups, .links, .mod, .gorse, .time, .meas, .host, .power] P := kp.mono (by decide)
  unfold doWatchdogExpire
  dsimp only
  repeat' with_reducible first
    | exact hP | assumption | apply kept_modHost k0 | apply kept_bRise k1 | apply kept_logEv k0 | apply holds_if
    | intro _

theorem kept_doWdogWarn (kp : Kept [.regs, .events, .time, .host] P) (svc : Bool) (s : State) (hP : Holds P s) :
    Holds P (doWdogWarn svc s) := by
  have k0 : Kept [.regs, .events, .time, .host] P := kp.mono (by decide)
  unfold doWdogWarn
  repeat' with_reducible first
    | exact hP | assumption | apply kept_irq k0 | apply holds_if | intro _

theorem kept_clearBits (kp : Kept [.regs] P) (a : Nat) (v : Word) (s : State) (hP : Holds P s) :
    Holds P (clearBits a v s) := by
  have k0 : Kept [.regs] P := kp.mono (by decide)
  unfold clearBits
  repeat' with_reducible first
    | exact hP | assumption | apply kept_clearWord k0

theorem kept_stageWrite (kp : Kept [.regs, .events, .dirty, .groups, .time, .host] P) (a : Nat) (v : Word) (s : State) (hP : Holds P s) :
    Holds P (stageWrite a v s) := by
  have k0 : Kept [.regs, .dirty] P := kp.mono (by decide)
  have k1 : Kept [.regs, .events, .time, .host] P := kp.mono (by decide)
  have k2 : Kept [.groups] P := kp.mono (by decide)
  unfold stageWrite
  dsimp only
  repeat' with_reducible first
    | exact hP | assumption | apply kept_stage k0 | apply kept_clampSeen k1 | apply kept_modGroup k2 | apply holds_if
    | split | intro _

theorem kept_plainWrite (kp : Kept [.regs, .events, .dirty, .groups, .time, .host] P) (a : Nat) (v : Word) (s : State) (hP : Holds P s) :
    Holds P (plainWrite a v s) := by
  have k0 : Kept [.regs] P := kp.mono (by decide)
  have k1 : Kept [.regs, .events, .time, .host] P := kp.mono (by decide)
  have k2 : Kept [.regs, .events, .dirty, .groups, .time, .host] P := kp.mono (by decide)
  unfold plainWrite
  repeat' with_reducible first
    | exact hP | assumption | apply kept_clearBits k0 | apply kept_wr k0 | apply kept_clampSeen k1
    | apply kept_stageWrite k2 | apply holds_if | split | intro _

theorem kept_linkCfgWrite (kp : Kept [.regs, .events, .links, .time, .host] P) (l : Nat) (v : Word) (s : State) (hP : Holds P s) :
    Holds P (linkCfgWrite l v s) := by
  have k0 : Kept [.regs] P := kp.mono (by decide)
  have k1 : Kept [.regs, .events, .time, .host] P := kp.mono (by decide)
  have k2 : Kept [.regs, .events, .links, .time, .host] P := kp.mono (by decide)
  unfold linkCfgWrite
  dsimp only
  repeat' with_reducible first
    | exact hP | assumption | apply kept_wr k0 | apply kept_clampSeen k1 | apply kept_doLoopWrite k2 | apply holds_if
    | intro _

theorem kept_bitslipWrite (kp : Kept [.regs, .events, .links, .time, .host] P) (l : Nat) (v : Word) (s : State) (hP : Holds P s) :
    Holds P (bitslipWrite l v s) := by
  have k0 : Kept [.regs, .events, .links, .time, .host] P := kp.mono (by decide)
  have k1 : Kept [] P := kp.mono (by decide)
  unfold bitslipWrite
  repeat' with_reducible first
    | exact hP | assumption | apply kept_doBitslipUp k0 | apply kept_onlyIf k1 | apply kept_doBitslipDown k0
    | apply holds_if | intro _

theorem kept_writeGlobal (kp : Kept [.regs, .events, .dirty, .groups, .links, .gorse, .time, .host, .power] P) (o : Nat) (v : Word)
    (s : State) (hP : Holds P s) :
    Holds P (writeGlobal o v s) := by
  have k0 : Kept [.gorse, .host] P := kp.mono (by decide)
  have k1 : Kept [.regs, .events, .groups, .time, .host] P := kp.mono (by decide)
  have k2 : Kept [.power] P := kp.mono (by decide)
  have k3 : Kept [.regs, .events, .links, .time, .host, .power] P := kp.mono (by decide)
  have k4 : Kept [.regs, .events, .dirty, .groups, .time, .host] P := kp.mono (by decide)
  unfold writeGlobal
  repeat' with_reducible first
    | exact hP | assumption | apply kept_doHostWdogKick k0 | apply kept_doCommitReq k1 | apply kept_modPower k2
    | apply kept_stbyWrite k3 | apply kept_plainWrite k4 | apply holds_if | intro _

theorem kept_writeClock (kp : Kept [.regs, .events, .dirty, .groups, .clock, .time, .host] P) (o : Nat) (v : Word) (s : State) (hP : Holds P s) :
    Holds P (writeClock o v s) := by
  have k0 : Kept [.regs, .events, .time, .host] P := kp.mono (by decide)
  have k1 : Kept [.regs] P := kp.mono (by decide)
  have k2 : Kept [.regs, .events, .clock, .time, .host] P := kp.mono (by decide)
  have k3 : Kept [.clock] P := kp.mono (by decide)
  have k4 : Kept [.regs, .events, .dirty, .groups, .time, .host] P := kp.mono (by decide)
  unfold writeClock
  repeat' with_reducible first
    | exact hP | assumption | apply kept_clkReassert k0 | apply kept_clearBits k1 | apply kept_doRefSelWrite k2
    | apply kept_doSscApply k3 | apply kept_plainWrite k4 | apply holds_if | intro _

theorem kept_writeDamask (kp : Kept [.regs, .events, .dirty, .groups, .damask, .time, .host] P) (o : Nat) (v : Word) (s : State) (hP : Holds P s) :
    Holds P (writeDamask o v s) := by
  have k0 : Kept [.regs, .events, .damask, .time, .host] P := kp.mono (by decide)
  have k1 : Kept [.damask] P := kp.mono (by decide)
  have k2 : Kept [.regs, .events, .dirty, .groups, .time, .host] P := kp.mono (by decide)
  unfold writeDamask
  repeat' with_reducible first
    | exact hP | assumption | apply kept_doTileDiscard k0 | apply kept_modDamask k1 | apply kept_doKeyProg k1
    | apply kept_plainWrite k2 | apply holds_if | intro _

theorem kept_writeOpq (kp : Kept [.regs, .events, .dirty, .groups, .damask, .links, .conv, .time, .host, .therm] P) (o : Nat) (v : Word)
    (s : State) (hP : Holds P s) :
    Holds P (writeOpq o v s) := by
  have k0 : Kept [.regs, .events, .dirty, .damask, .links, .conv, .time, .host, .therm] P := kp.mono (by decide)
  have k1 : Kept [.regs, .events, .time, .host] P := kp.mono (by decide)
  have k2 : Kept [.regs, .events, .dirty, .groups, .time, .host] P := kp.mono (by decide)
  unfold writeOpq
  repeat' with_reducible first
    | exact hP | assumption | apply kept_opqAction k0 | apply kept_paramWrite k1 | apply kept_opSubmit k1
    | apply kept_plainWrite k2 | apply holds_if | intro _

theorem kept_writeIntc (kp : Kept [.regs, .events, .dirty, .groups, .time, .host, .therm] P) (o : Nat) (v : Word) (s : State) (hP : Holds P s) :
    Holds P (writeIntc o v s) := by
  have k0 : Kept [.regs, .events, .time, .host, .therm] P := kp.mono (by decide)
  have k1 : Kept [.regs, .host] P := kp.mono (by decide)
  have k2 : Kept [.regs, .events, .dirty, .groups, .time, .host] P := kp.mono (by decide)
  unfold writeIntc
  repeat' with_reducible first
    | exact hP | assumption | apply kept_doVecAck k0 | apply kept_msixWrite k1 | apply kept_plainWrite k2
    | apply holds_if | intro _

theorem kept_ppsCfgWrite (kp : Kept [.regs, .events, .dirty, .groups, .time, .host] P) (v : Word) (s : State) (hP : Holds P s) :
    Holds P (ppsCfgWrite v s) := by
  have k0 : Kept [.regs, .events, .dirty, .groups, .time, .host] P := kp.mono (by decide)
  have k1 : Kept [.time] P := kp.mono (by decide)
  unfold ppsCfgWrite
  dsimp only
  repeat' with_reducible first
    | exact hP | assumption | apply kept_plainWrite k0 | apply kept_modTime k1 | apply holds_if | intro _

theorem kept_writeTime (kp : Kept [.regs, .events, .dirty, .groups, .time, .eth, .host] P) (o : Nat) (v : Word) (s : State) (hP : Holds P s) :
    Holds P (writeTime o v s) := by
  have k0 : Kept [.regs, .events, .time, .host] P := kp.mono (by decide)
  have k1 : Kept [.regs, .events, .dirty, .groups, .time, .host] P := kp.mono (by decide)
  have k2 : Kept [.regs, .eth] P := kp.mono (by decide)
  unfold writeTime
  repeat' with_reducible first
    | exact hP | assumption | apply kept_doTimeCtrlWrite k0 | apply kept_doAddendWrite k0 | apply kept_doTimeAdj k0
    | apply kept_doTimeSet k0 | apply kept_ppsCfgWrite k1 | apply kept_ethIdCheck k0 | apply kept_plainWrite k1
    | apply kept_doLqTailWrite k2 | apply holds_if | intro _

theorem kept_writeEth (kp : Kept [.regs, .events, .dirty, .groups, .time, .eth, .host] P) (p o : Nat) (v : Word) (s : State) (hP : Holds P s) :
    Holds P (writeEth p o v s) := by
  have k0 : Kept [.regs, .events, .time, .host] P := kp.mono (by decide)
  have k1 : Kept [.regs, .events, .time, .eth, .host] P := kp.mono (by decide)
  have k2 : Kept [.regs, .eth] P := kp.mono (by decide)
  have k3 : Kept [.regs, .events, .dirty, .groups, .time, .host] P := kp.mono (by decide)
  unfold writeEth
  repeat' with_reducible first
    | exact hP | assumption | apply kept_doEthCfgWrite k0 | apply kept_doMacHiWrite k1 | apply kept_rxHeadWrite k2
    | apply kept_plainWrite k3 | apply holds_if | intro _

theorem kept_writeLink (kp : Kept [.regs, .events, .dirty, .groups, .links, .time, .host] P) (l o : Nat) (v : Word) (s : State) (hP : Holds P s) :
    Holds P (writeLink l o v s) := by
  have k0 : Kept [.regs, .events, .links, .time, .host] P := kp.mono (by decide)
  have k1 : Kept [.regs, .events, .dirty, .groups, .time, .host] P := kp.mono (by decide)
  unfold writeLink
  repeat' with_reducible first
    | exact hP | assumption | apply kept_linkCfgWrite k0 | apply kept_bitslipWrite k0 | apply kept_doAsymTrimWrite k0
    | apply kept_plainWrite k1 | apply holds_if | intro _

theorem kept_writeMod (kp : Kept [.regs, .events, .dirty, .groups, .mod, .time, .host] P) (o : Nat) (v : Word) (s : State) (hP : Holds P s) :
    Holds P (writeMod o v s) := by
  have k0 : Kept [.mod] P := kp.mono (by decide)
  have k1 : Kept [.regs, .events, .dirty, .groups, .time, .host] P := kp.mono (by decide)
  unfold writeMod
  repeat' with_reducible first
    | exact hP | assumption | exact fun _ => Nat.and_self _ | exact fun _ => Nat.zero_and _
    | exact fun _ => and_mask _ _ | apply kept_modMod k0 | apply kept_plainWrite k1 | apply holds_if | intro _

theorem kept_writeGorse (kp : KeptDev [.regs, .events, .dirty, .dev, .groups, .links, .mod, .gorse, .conv, .time, .meas, .host, .power] P)
    (o : Nat) (v : Word) (s : State) (hP : Holds P s) :
    Holds P (writeGorse o v s) := by
  have k0 : KeptDev [.regs, .events, .dev, .groups, .links, .mod, .gorse, .time, .meas, .host, .power] P := kp.mono (by decide)
  have k1 : Kept [.regs, .events, .gorse, .conv, .time, .meas, .host, .power] P := kp.toKept.mono (by decide)
  have k2 : Kept [.regs, .events, .time, .host] P := kp.toKept.mono (by decide)
  have k3 : Kept [.regs, .events, .dirty, .groups, .time, .host] P := kp.toKept.mono (by decide)
  unfold writeGorse
  repeat' with_reducible first
    | exact hP | assumption | apply kept_doHostTrip k0 | apply kept_doHostSafeStop k0 | apply kept_brkCfgWrite k1
    | apply kept_brkThrWrite k1 | apply kept_clampSeen k2 | apply kept_plainWrite k3 | apply holds_if | intro _

theorem kept_writeConv (kp : Kept [.regs, .events, .dirty, .groups, .conv, .time, .host] P) (o : Nat) (v : Word) (s : State) (hP : Holds P s) :
    Holds P (writeConv o v s) := by
  have k0 : Kept [.regs, .events, .conv, .time, .host] P := kp.mono (by decide)
  have k1 : Kept [.conv] P := kp.mono (by decide)
  have k2 : Kept [.regs, .events, .dirty, .groups, .time, .host] P := kp.mono (by decide)
  unfold writeConv
  repeat' with_reducible first
    | exact hP | assumption | apply kept_doRefEnWrite k0 | apply kept_doUcalSave k1 | apply kept_doSpotTrig k1
    | apply kept_doRbCtrl k0 | apply kept_plainWrite k2 | apply holds_if | intro _

theorem kept_writeMeas (kp : Kept [.regs, .events, .dirty, .dram, .groups, .time, .eth, .meas, .host] P) (o : Nat) (v : Word) (s : State)
    (hP : Holds P s) :
    Holds P (writeMeas o v s) := by
  have k0 : Kept [.regs, .events, .dram, .time, .eth, .meas, .host] P := kp.mono (by decide)
  have k1 : Kept [.meas] P := kp.mono (by decide)
  have k2 : Kept [.regs, .events, .dirty, .groups, .time, .host] P := kp.mono (by decide)
  unfold writeMeas
  repeat' with_reducible first
    | exact hP | assumption | apply kept_pmuCmd k0 | apply kept_doPmuNotice k1 | apply kept_doRecForce k1
    | apply kept_doRecRelease k1 | apply kept_plainWrite k2 | apply holds_if | intro _

theorem kept_writeMeter (kp : Kept [.regs, .events, .dirty, .groups, .time, .meter, .bracken, .host] P) (o : Nat) (v : Word) (s : State)
    (hP : Holds P s) :
    Holds P (writeMeter o v s) := by
  have k0 : Kept [.regs, .events, .time, .meter, .host] P := kp.mono (by decide)
  have k1 : Kept [.bracken] P := kp.mono (by decide)
  have k2 : Kept [.regs, .events, .time, .host] P := kp.mono (by decide)
  have k3 : Kept [.regs, .events, .dirty, .groups, .time, .host] P := kp.mono (by decide)
  unfold writeMeter
  dsimp only
  repeat' with_reducible first
    | exact hP | assumption | apply kept_doEnergyClear k0 | apply kept_doBrClear k1 | apply kept_brWrReg k1
    | apply kept_clampSeen k2 | apply kept_plainWrite k3 | apply holds_if | intro _

theorem kept_writeCtrl (kp : Kept [.regs, .events, .dirty, .groups, .time, .host] P) (a : Nat) (v : Word) (s : State) (hP : Holds P s) :
    Holds P (writeCtrl a v s) := by
  have k0 : Kept [.regs, .events, .dirty, .groups, .time, .host] P := kp.mono (by decide)
  have k1 : Kept [.regs, .events, .time, .host] P := kp.mono (by decide)
  unfold writeCtrl
  dsimp only
  repeat' with_reducible first
    | exact hP | assumption | apply kept_plainWrite k0 | apply kept_muStick k1 | apply holds_if | intro _

theorem kept_writeMon (kp : Kept [.regs, .events, .dirty, .groups, .time, .host] P) (o : Nat) (v : Word) (s : State) (hP : Holds P s) :
    Holds P (writeMon o v s) := by
  have k0 : Kept [.regs, .events, .time, .host] P := kp.mono (by decide)
  have k1 : Kept [.regs, .events, .dirty, .groups, .time, .host] P := kp.mono (by decide)
  unfold writeMon
  repeat' with_reducible first
    | exact hP | assumption | apply kept_monStick k0 | apply kept_plainWrite k1 | apply holds_if | intro _

theorem kept_writeTherm (kp : Kept [.regs, .events, .dirty, .groups, .time, .host, .therm] P) (o : Nat) (v : Word) (s : State) (hP : Holds P s) :
    Holds P (writeTherm o v s) := by
  have k0 : Kept [.therm] P := kp.mono (by decide)
  have k1 : Kept [.regs, .events, .dirty, .groups, .time, .host] P := kp.mono (by decide)
  unfold writeTherm
  repeat' with_reducible first
    | exact hP | assumption | apply kept_modTherm k0 | apply kept_plainWrite k1 | apply holds_if | intro _

theorem kept_hostWriteAt
    (kp : KeptDev [.regs, .events, .dirty, .dram, .dev, .groups, .damask, .clock, .links, .mod, .gorse, .conv, .time, .eth, .meas, .meter, .bracken, .host, .therm, .power] P) (a : Nat) (v : Word) (s : State) (hP : Holds P s) :
    Holds P (hostWriteAt a v s) := by
  have k0 : Kept [.regs, .events, .dirty, .groups, .links, .gorse, .time, .host, .power] P := kp.toKept.mono (by decide)
  have k1 : Kept [.regs, .events, .dirty, .groups, .clock, .time, .host] P := kp.toKept.mono (by decide)
  have k2 : Kept [.regs, .events, .dirty, .groups, .damask, .time, .host] P := kp.toKept.mono (by decide)
  have k3 : Kept [.regs, .events, .dirty, .groups, .damask, .links, .conv, .time, .host, .therm] P := kp.toKept.mono (by decide)
  have k4 : Kept [.regs, .events, .dirty, .groups, .time, .host, .therm] P := kp.toKept.mono (by decide)
  have k5 : Kept [.regs, .events, .dirty, .groups, .time, .eth, .host] P := kp.toKept.mono (by decide)
  have k6 : Kept [.regs, .events, .dirty, .groups, .links, .time, .host] P := kp.toKept.mono (by decide)
  have k7 : Kept [.regs, .events, .dirty, .groups, .mod, .time, .host] P := kp.toKept.mono (by decide)
  have k8 : KeptDev [.regs, .events, .dirty, .dev, .groups, .links, .mod, .gorse, .conv, .time, .meas, .host, .power] P := kp.mono (by decide)
  have k9 : Kept [.regs, .events, .dirty, .groups, .conv, .time, .host] P := kp.toKept.mono (by decide)
  have k10 : Kept [.regs, .events, .dirty, .dram, .groups, .time, .eth, .meas, .host] P := kp.toKept.mono (by decide)
  have k11 : Kept [.regs, .events, .dirty, .groups, .time, .meter, .bracken, .host] P := kp.toKept.mono (by decide)
  have k12 : Kept [.regs, .events, .dirty, .groups, .time, .host] P := kp.toKept.mono (by decide)
  unfold hostWriteAt
  dsimp only
  repeat' with_reducible first
    | exact hP | assumption | apply kept_writeGlobal k0 | apply kept_writeClock k1 | apply kept_writeDamask k2
    | apply kept_writeOpq k3 | apply kept_writeIntc k4 | apply kept_writeTime k5 | apply kept_writeEth k5
    | apply kept_writeLink k6 | apply kept_writeMod k7 | apply kept_writeGorse k8 | apply kept_writeConv k9
    | apply kept_writeMeas k10 | apply kept_writeMeter k11 | apply kept_writeCtrl k12 | apply kept_writeMon k12
    | apply kept_writeTherm k4 | split

theorem kept_hostWrite
    (kp : KeptDev [.regs, .events, .dirty, .dram, .dev, .groups, .damask, .clock, .links, .mod, .gorse, .conv, .time, .eth, .meas, .meter, .bracken, .host, .therm, .power] P) (addr len be : Nat) (v : Word) (s : State) (hP : Holds P s) :
    Holds P (hostWrite addr len be v s) := by
  have k0 : KeptDev [.regs, .events, .dirty, .dram, .dev, .groups, .damask, .clock, .links, .mod, .gorse, .conv, .time, .eth, .meas, .meter, .bracken, .host, .therm, .power] P := kp.mono (by decide)
  have k1 : Kept [.gorse, .host] P := kp.toKept.mono (by decide)
  have k2 : Kept [.regs, .events, .time, .host] P := kp.toKept.mono (by decide)
  unfold hostWrite
  repeat' with_reducible first
    | exact hP | assumption | apply kept_hostWriteAt k0 | apply kept_hostAccess k1 | apply kept_accessErr k2
    | apply holds_if | intro _

theorem kept_svcWriteAt
    (kp : KeptDev [.regs, .events, .dirty, .dev, .groups, .damask, .links, .mod, .gorse, .conv, .time, .meas, .host, .therm, .power] P) (a : Nat) (v : Word) (s : State) (hP : Holds P s) :
    Holds P (svcWriteAt a v s) := by
  have k0 : KeptDev [.regs, .events, .dev, .groups, .links, .mod, .gorse, .time, .meas, .host, .power] P := kp.mono (by decide)
  have k1 : Kept [.gorse, .host] P := kp.toKept.mono (by decide)
  have k2 : Kept [.regs, .events, .dirty, .damask, .links, .conv, .time, .host, .therm] P := kp.toKept.mono (by decide)
  have k3 : Kept [.regs, .events, .dirty, .groups, .time, .host] P := kp.toKept.mono (by decide)
  unfold svcWriteAt
  repeat' with_reducible first
    | exact hP | assumption | apply kept_doSafeStop k0 | apply kept_doSvcWdogKick k1 | apply kept_doSvcOpCancel k2
    | apply kept_plainWrite k3 | apply holds_if | intro _

theorem kept_svcWriteReg
    (kp : KeptDev [.regs, .events, .dirty, .dev, .groups, .damask, .links, .mod, .gorse, .conv, .time, .meas, .host, .therm, .power] P) (a : Nat) (v : Word) (s : State) (hP : Holds P s) :
    Holds P (svcWriteReg a v s) := by
  have k0 : Kept [.gorse, .host] P := kp.toKept.mono (by decide)
  have k1 : Kept [.host] P := kp.toKept.mono (by decide)
  have k2 : KeptDev [.regs, .events, .dirty, .dev, .groups, .damask, .links, .mod, .gorse, .conv, .time, .meas, .host, .therm, .power] P := kp.mono (by decide)
  unfold svcWriteReg
  dsimp only
  repeat' with_reducible first
    | exact hP | assumption | apply kept_svcAccess k0 | apply kept_svcDone k1 | apply kept_svcWriteAt k2
    | apply holds_if | intro _

theorem kept_doRegisterWrite
    (kp : KeptDev [.regs, .events, .dirty, .dram, .dev, .groups, .damask, .clock, .links, .mod, .gorse, .conv, .time, .eth, .meas, .meter, .bracken, .host, .therm, .power] P) (i : Iface) (addr len be : Nat) (v : Word) (s : State) (hP : Holds P s) :
    Holds P (doRegisterWrite i addr len be v s) := by
  have k0 : KeptDev [.regs, .events, .dirty, .dram, .dev, .groups, .damask, .clock, .links, .mod, .gorse, .conv, .time, .eth, .meas, .meter, .bracken, .host, .therm, .power] P := kp.mono (by decide)
  have k1 : KeptDev [.regs, .events, .dirty, .dev, .groups, .damask, .links, .mod, .gorse, .conv, .time, .meas, .host, .therm, .power] P := kp.mono (by decide)
  unfold doRegisterWrite
  repeat' with_reducible first
    | exact hP | assumption | apply kept_hostWrite k0 | apply kept_svcWriteReg k1 | split

theorem kept_doBar2Write (kp : Kept [.regs, .events, .dram, .time, .host] P) (off : Nat) (data : List Byte) (s : State) (hP : Holds P s) :
    Holds P (doBar2Write off data s) := by
  have k0 : Kept [.regs, .events, .time, .host] P := kp.mono (by decide)
  have k1 : Kept [.dram] P := kp.mono (by decide)
  unfold doBar2Write
  dsimp only
  repeat' with_reducible first
    | exact hP | assumption | apply kept_dmkFlag k0 | apply kept_dramPut k1 | apply holds_if | intro _

theorem kept_setSdo (kp : Kept [.host] P) (l : List Byte) (s : State) (hP : Holds P s) :
    Holds P (setSdo l s) := by
  have k0 : Kept [.host] P := kp.mono (by decide)
  unfold setSdo
  repeat' with_reducible first
    | exact hP | assumption | apply kept_modHost k0

theorem kept_svcCrcErr (kp : Kept [.regs, .events, .time, .host] P) (s : State) (hP : Holds P s) :
    Holds P (svcCrcErr s) := by
  have k0 : Kept [.regs, .events, .time, .host] P := kp.mono (by decide)
  have k1 : Kept [.regs, .events] P := kp.mono (by decide)
  unfold svcCrcErr
  repeat' with_reducible first
    | exact hP | assumption | apply kept_stick k0 | apply kept_cntSat k1

theorem kept_doSpiWrite
    (kp : KeptDev [.regs, .events, .dirty, .dev, .groups, .damask, .links, .mod, .gorse, .conv, .time, .meas, .host, .therm, .power] P) (out : List Byte) (s : State) (hP : Holds P s) :
    Holds P (doSpiWrite out s) := by
  have k0 : Kept [.regs, .events, .time, .host] P := kp.toKept.mono (by decide)
  have k1 : Kept [.host] P := kp.toKept.mono (by decide)
  have k2 : KeptDev [.regs, .events, .dirty, .dev, .groups, .damask, .links, .mod, .gorse, .conv, .time, .meas, .host, .therm, .power] P := kp.mono (by decide)
  unfold doSpiWrite
  dsimp only
  repeat' with_reducible first
    | exact hP | assumption | apply kept_svcCrcErr k0 | apply kept_setSdo k1 | apply kept_svcWriteReg k2
    | apply holds_if | intro _

theorem kept_doSpiRead (kp : Kept [.regs, .events, .gorse, .time, .bracken, .host] P) (out : List Byte) (s : State) (hP : Holds P s) :
    Holds P (doSpiRead out s) := by
  have k0 : Kept [.regs, .events, .time, .host] P := kp.mono (by decide)
  have k1 : Kept [.host] P := kp.mono (by decide)
  have k2 : Kept [.regs, .events, .gorse, .time, .bracken, .host] P := kp.mono (by decide)
  have k3 : Kept [.gorse, .host] P := kp.mono (by decide)
  unfold doSpiRead
  dsimp only
  repeat' with_reducible first
    | exact hP | assumption | apply kept_svcCrcErr k0 | apply kept_setSdo k1 | apply kept_svcReadAt k2
    | apply kept_svcAccess k3 | apply holds_if | intro _

theorem kept_doSpiBadCommand (kp : Kept [.regs, .events, .host] P) (cmd : Byte) (len : Nat) (s : State) (hP : Holds P s) :
    Holds P (doSpiBadCommand cmd len s) := by
  have k0 : Kept [.host] P := kp.mono (by decide)
  have k1 : Kept [.regs, .events] P := kp.mono (by decide)
  unfold doSpiBadCommand
  repeat' with_reducible first
    | exact hP | assumption | apply kept_setSdo k0 | apply kept_cntSat k1 | apply holds_if | intro _

theorem kept_doSpiAbort (kp : Kept [.host] P) (out : List Byte) (s : State) (hP : Holds P s) :
    Holds P (doSpiAbort out s) := by
  have k0 : Kept [.host] P := kp.mono (by decide)
  unfold doSpiAbort
  repeat' with_reducible first
    | exact hP | assumption | apply kept_setSdo k0 | apply holds_if | intro _

end Sys2Proof.Laws
end

