-- ==== Sys2Proof/Laws/KeptExec.lean ====
section
/-! SUPPORT. What exec keeps, over all 198 commands: the dispatch's cases, once, and the frame of every command. -/

namespace Sys2Proof.Laws

open Sys2Proof Sys2Proof.Machine

variable {P : State → Prop}

theorem next_kept {a t : State} (h : Holds P a) (e : (Host.Outcome.next a : Host.Outcome State Fault Refusal) = .next t) :
    Holds P t := by
  cases e
  exact h

/-- Every command but those of beyond: a property that the updates of its parts keep. -/
theorem kept_exec (c : Instr) (kp : KeptDev (parts c) P) (hc : beyond c = false) (s t : State) (e : exec c s = .next t)
    (h : Holds P s) : Holds P t := by
  cases c
  case commitReq =>
    have k : KeptDev [.regs, .events, .groups, .gorse, .time, .host] P := kp
    exact next_kept (kept_doCommitReq (k.toKept.mono (by decide)) _ _ (kept_hostAccess (k.toKept.mono (by decide)) _ h)) e
  case cutoff =>
    have k : KeptDev [.regs, .events, .dirty, .groups, .damask, .links, .mod, .units, .gorse, .time, .host,
      .therm] P := kp
    exact next_kept (kept_doCutoff (k.toKept.mono (by decide)) _ _ h) e
  case periodBoundary => exact absurd hc (by simp [beyond])
  case mirrorCopyEnd =>
    have k : KeptDev [.groups] P := kp
    exact next_kept (kept_doMirrorCopyEnd (k.toKept.mono (by decide)) _ _ h) e
  case coefCopyDone =>
    have k : KeptDev [.regs, .units] P := kp
    exact next_kept (kept_doCoefCopyDone (k.toKept.mono (by decide)) _ _ h) e
  case muComputeStart =>
    have k : KeptDev [.units] P := kp
    exact next_kept (kept_doMuStart (k.toKept.mono (by decide)) _ _ h) e
  case muComputeDone =>
    have k : KeptDev [.regs, .events, .units, .time, .host, .therm] P := kp
    exact next_kept (kept_doMuDone (k.toKept.mono (by decide)) _ _ h) e
  case midCutoff =>
    have k : KeptDev [.regs, .events, .dirty, .groups, .links, .mod, .time, .host] P := kp
    exact next_kept (kept_doMidCutoff (k.toKept.mono (by decide)) _ _ h) e
  case midPeriodTransfer =>
    have k : KeptDev [.force, .groups, .links] P := kp
    exact next_kept (kept_doMidPeriodTransfer (k.toKept.mono (by decide)) _ _ h) e
  case gateEdge =>
    have k : KeptDev [.regs, .events, .mod] P := kp
    exact next_kept (kept_doGateEdge (k.toKept.mono (by decide)) _ _ _ h) e
  case clockGroupStart =>
    have k : KeptDev [.regs, .events, .groups, .damask, .units, .time, .host] P := kp
    exact next_kept (kept_doClockGroupStart (k.toKept.mono (by decide)) _ h) e
  case imageActivation => exact absurd hc (by simp [beyond])
  case selfCal =>
    have k : KeptDev [.regs, .events, .gorse, .time, .host] P := kp
    exact next_kept (kept_doSelfCal (k.toKept.mono (by decide)) _ _ _ (kept_hostAccess (k.toKept.mono (by decide)) _ h)) e
  case tileLoad =>
    have k : KeptDev [.regs, .events, .gorse, .time, .host] P := kp
    exact next_kept (kept_doTileLoad (k.toKept.mono (by decide)) _ _ _ _ _ (kept_hostAccess (k.toKept.mono (by decide)) _ h)) e
  case tileSwap =>
    have k : KeptDev [.regs, .events, .gorse, .time, .host] P := kp
    exact next_kept (kept_doTileSwap (k.toKept.mono (by decide)) _ _ _ _ _ _ (kept_hostAccess (k.toKept.mono (by decide)) _ h)) e
  case linkTrain =>
    have k : KeptDev [.regs, .events, .gorse, .time, .host] P := kp
    exact next_kept (kept_doLinkTrain (k.toKept.mono (by decide)) _ _ _ _ (kept_hostAccess (k.toKept.mono (by decide)) _ h)) e
  case offstateDiag =>
    have k : KeptDev [.regs, .events, .gorse, .time, .host] P := kp
    exact next_kept (kept_doOffstateDiag (k.toKept.mono (by decide)) _ _ _ _ _ (kept_hostAccess (k.toKept.mono (by decide)) _ h)) e
  case cmpSelftest =>
    have k : KeptDev [.regs, .events, .gorse, .time, .host] P := kp
    exact next_kept (kept_doCmpSelftest (k.toKept.mono (by decide)) _ _ _ (kept_hostAccess (k.toKept.mono (by decide)) _ h)) e
  case histCapture =>
    have k : KeptDev [.regs, .events, .gorse, .time, .host] P := kp
    exact next_kept (kept_doHistCapture (k.toKept.mono (by decide)) _ _ _ _ _ _ _ (kept_hostAccess (k.toKept.mono (by decide)) _ h)) e
  case waveDump =>
    have k : KeptDev [.regs, .events, .gorse, .time, .host] P := kp
    exact next_kept (kept_doWaveDump (k.toKept.mono (by decide)) _ _ _ _ (kept_hostAccess (k.toKept.mono (by decide)) _ h)) e
  case twLocate =>
    have k : KeptDev [.regs, .events, .gorse, .time, .host] P := kp
    exact next_kept (kept_doTwLocate (k.toKept.mono (by decide)) _ _ _ _ (kept_hostAccess (k.toKept.mono (by decide)) _ h)) e
  case mramScrub =>
    have k : KeptDev [.regs, .events, .gorse, .time, .host] P := kp
    exact next_kept (kept_doMramScrub (k.toKept.mono (by decide)) _ _ _ (kept_hostAccess (k.toKept.mono (by decide)) _ h)) e
  case badOpcode =>
    have k : KeptDev [.regs, .events, .gorse, .time, .host] P := kp
    exact next_kept (kept_doBadOpcode (k.toKept.mono (by decide)) _ _ _ (kept_hostAccess (k.toKept.mono (by decide)) _ h)) e
  case opStart =>
    have k : KeptDev [.regs, .events, .force, .dirty, .damask, .links, .mod, .units, .gorse, .conv, .time,
      .meas, .meter, .host, .therm, .power] P := kp
    exact next_kept (kept_doOpStart (k.toKept.mono (by decide)) _ _ h) e
  case sectionProgramDone =>
    have k : KeptDev [.regs, .events, .damask, .time, .host] P := kp
    exact next_kept (kept_doSectionProgramDone (k.toKept.mono (by decide)) _ _ _ h) e
  case suspend =>
    have k : KeptDev [.regs, .events, .gorse, .time, .host] P := kp
    exact next_kept (kept_doSuspend (k.toKept.mono (by decide)) _ _ (kept_hostAccess (k.toKept.mono (by decide)) _ h)) e
  case resume =>
    have k : KeptDev [.regs, .events, .damask, .gorse, .time, .host, .therm] P := kp
    exact next_kept (kept_doResume (k.toKept.mono (by decide)) _ _ (kept_hostAccess (k.toKept.mono (by decide)) _ h)) e
  case cancel =>
    have k : KeptDev [.regs, .events, .dirty, .damask, .links, .gorse, .conv, .time, .host, .therm] P := kp
    exact next_kept (kept_doCancel (k.toKept.mono (by decide)) _ _ (kept_hostAccess (k.toKept.mono (by decide)) _ h)) e
  case svcOpCancel =>
    have k : KeptDev [.regs, .events, .dirty, .damask, .links, .gorse, .conv, .time, .host, .therm] P := kp
    exact next_kept (kept_svcCommand (k.toKept.mono (by decide)) _ _ (fun u hu => (kept_doSvcOpCancel (k.toKept.mono (by decide)) _ u hu)) h) e
  case opSuspensionPoint =>
    have k : KeptDev [.regs, .events, .time, .host, .therm] P := kp
    exact next_kept (kept_doOpSuspensionPoint (k.toKept.mono (by decide)) _ _ h) e
  case tileDiscard =>
    have k : KeptDev [.regs, .events, .damask, .gorse, .time, .host] P := kp
    exact next_kept (kept_doTileDiscard (k.toKept.mono (by decide)) _ _ (kept_hostAccess (k.toKept.mono (by decide)) _ h)) e
  case scrubSweep =>
    have k : KeptDev [.regs, .events, .dirty, .dev, .groups, .damask, .links, .mod, .gorse, .time, .meas,
      .meter, .host, .power] P := kp
    exact next_kept (kept_doScrubSweep (k.mono (by decide)) _ _ h) e
  case keyProg =>
    have k : KeptDev [.damask, .gorse, .host] P := kp
    exact next_kept (kept_doKeyProg (k.toKept.mono (by decide)) _ _ (kept_hostAccess (k.toKept.mono (by decide)) _ h)) e
  case keyProgDone =>
    have k : KeptDev [.damask] P := kp
    exact next_kept (kept_doKeyProgDone (k.toKept.mono (by decide)) _ _ h) e
  case qspiReadDone =>
    have k : KeptDev [.regs, .events, .dram, .damask, .time, .host] P := kp
    exact next_kept (kept_doQspiReadDone (k.toKept.mono (by decide)) _ _ _ h) e
  case bar2Write =>
    have k : KeptDev [.regs, .events, .dram, .time, .host] P := kp
    exact next_kept (kept_doBar2Write (k.toKept.mono (by decide)) _ _ _ h) e
  case bar2Read =>
    have k : KeptDev [.regs, .events, .time, .host] P := kp
    exact next_kept (kept_doBar2Read (k.toKept.mono (by decide)) _ _ _ _ h) e
  case refclkDetect =>
    have k : KeptDev [.regs, .events, .clock, .time, .host, .power] P := kp
    exact next_kept (kept_doRefclkDetect (k.toKept.mono (by decide)) _ _ h) e
  case rootLock =>
    have k : KeptDev [.regs, .events, .clock] P := kp
    exact next_kept (kept_doRootLock (k.toKept.mono (by decide)) _ h) e
  case mLock =>
    have k : KeptDev [.regs, .events, .clock] P := kp
    exact next_kept (kept_doMLock (k.toKept.mono (by decide)) _ h) e
  case dividerRelease =>
    have k : KeptDev [.regs, .clock] P := kp
    exact next_kept (kept_doDividerRelease (k.toKept.mono (by decide)) _ h) e
  case refLoss =>
    have k : KeptDev [.regs, .events, .clock, .time, .host] P := kp
    exact next_kept (kept_doRefLoss (k.toKept.mono (by decide)) _ h) e
  case wzRefLoss =>
    have k : KeptDev [.regs, .events, .clock, .time, .host] P := kp
    exact next_kept (kept_doWzRefLoss (k.toKept.mono (by decide)) _ h) e
  case rootLol =>
    have k : KeptDev [.regs, .events, .time, .host] P := kp
    exact next_kept (kept_doRootLol (k.toKept.mono (by decide)) _ h) e
  case mLol =>
    have k : KeptDev [.regs, .events, .dirty, .links, .time, .host] P := kp
    exact next_kept (kept_doMLol (k.toKept.mono (by decide)) _ h) e
  case fineCalFail =>
    have k : KeptDev [.regs, .events, .clock, .time, .host] P := kp
    exact next_kept (kept_doFineCalFail (k.toKept.mono (by decide)) _ _ h) e
  case lockReacquired =>
    have k : KeptDev [.regs, .events, .clock] P := kp
    exact next_kept (kept_doLockReacquired (k.toKept.mono (by decide)) _ _ h) e
  case sscApply =>
    have k : KeptDev [.clock, .gorse, .host] P := kp
    exact next_kept (kept_doSscApply (k.toKept.mono (by decide)) _ _ (kept_hostAccess (k.toKept.mono (by decide)) _ h)) e
  case profileOrigin =>
    have k : KeptDev [.regs, .clock] P := kp
    exact next_kept (kept_doProfileOrigin (k.toKept.mono (by decide)) _ h) e
  case refSelWrite =>
    have k : KeptDev [.regs, .events, .clock, .gorse, .time, .host] P := kp
    exact next_kept (kept_doRefSelWrite (k.toKept.mono (by decide)) _ _ (kept_hostAccess (k.toKept.mono (by decide)) _ h)) e
  case clkMon =>
    have k : KeptDev [.regs, .events, .dev, .groups, .links, .mod, .gorse, .time, .meas, .host, .power] P := kp
    exact next_kept (kept_doClkMon (k.mono (by decide)) _ _ h) e
  case phaseAcquired =>
    have k : KeptDev [.links] P := kp
    exact next_kept (kept_doPhaseAcquired (k.toKept.mono (by decide)) _ _ _ h) e
  case upLock =>
    have k : KeptDev [.regs, .events, .dirty, .links, .gorse] P := kp
    exact next_kept (kept_doUpLock (k.toKept.mono (by decide)) _ _ h) e
  case alignTimeout =>
    have k : KeptDev [.regs, .dirty, .links] P := kp
    exact next_kept (kept_doAlignTimeout (k.toKept.mono (by decide)) _ _ h) e
  case markerErr =>
    have k : KeptDev [.regs, .events, .dev, .groups, .links, .mod, .gorse, .time, .meas, .host, .power] P := kp
    exact next_kept (kept_doMarkerErr (k.mono (by decide)) _ _ h) e
  case phaseLimit =>
    have k : KeptDev [.regs, .events, .links, .time, .host] P := kp
    exact next_kept (kept_doPhaseLimit (k.toKept.mono (by decide)) _ _ h) e
  case ebufErr =>
    have k : KeptDev [.regs, .events, .links, .time, .host] P := kp
    exact next_kept (kept_doEbufErr (k.toKept.mono (by decide)) _ _ h) e
  case trainingBlockRx l groups =>
    have k : KeptDev [.regs, .events, .dirty, .dev, .groups, .links, .mod, .gorse, .time, .meas, .host, .power] P := kp
    have h1 := kept_doTrainingBlockRx (k.toKept.mono (by decide)) l.val groups s h
    exact next_kept (holds_if (fun _ => kept_doK283Rx (k.mono (by decide)) _ _ h1) (fun _ => h1)) e
  case capTimeout =>
    have k : KeptDev [.regs, .dirty, .links] P := kp
    exact next_kept (kept_doCapTimeout (k.toKept.mono (by decide)) _ _ h) e
  case checkWindowDone =>
    have k : KeptDev [.regs, .dirty, .links] P := kp
    exact next_kept (kept_doCheckWindowDone (k.toKept.mono (by decide)) _ _ h) e
  case ackTimeout =>
    have k : KeptDev [.regs, .dirty, .links] P := kp
    exact next_kept (kept_doAckTimeout (k.toKept.mono (by decide)) _ _ h) e
  case countdownEnd =>
    have k : KeptDev [.regs, .dirty, .links] P := kp
    exact next_kept (kept_doCountdownEnd (k.toKept.mono (by decide)) _ _ h) e
  case dckRestart =>
    have k : KeptDev [.regs, .dirty, .links] P := kp
    exact next_kept (kept_doDckRestart (k.toKept.mono (by decide)) _ _ h) e
  case fallbackConfirm =>
    have k : KeptDev [.regs, .dirty, .links] P := kp
    exact next_kept (kept_doFallbackConfirm (k.toKept.mono (by decide)) _ _ h) e
  case linkTrainDone =>
    have k : KeptDev [.regs, .events, .links, .time, .host] P := kp
    exact next_kept (kept_doLinkTrainDone (k.toKept.mono (by decide)) _ h) e
  case bitslipUp =>
    have k : KeptDev [.regs, .events, .links, .gorse, .time, .host] P := kp
    exact next_kept (kept_doBitslipUp (k.toKept.mono (by decide)) _ _ (kept_hostAccess (k.toKept.mono (by decide)) _ h)) e
  case bitslipDown =>
    have k : KeptDev [.regs, .events, .links, .gorse, .time, .host] P := kp
    exact next_kept (kept_doBitslipDown (k.toKept.mono (by decide)) _ _ (kept_hostAccess (k.toKept.mono (by decide)) _ h)) e
  case alignModeChange =>
    have k : KeptDev [.links] P := kp
    exact next_kept (kept_doAlignModeChange (k.toKept.mono (by decide)) _ _ h) e
  case loopWrite =>
    have k : KeptDev [.regs, .events, .links, .gorse, .time, .host] P := kp
    exact next_kept (kept_doLoopWrite (k.toKept.mono (by decide)) _ _ _ (kept_hostAccess (k.toKept.mono (by decide)) _ h)) e
  case loopFail =>
    have k : KeptDev [.regs, .events, .time, .host] P := kp
    exact next_kept (kept_doLoopFail (k.toKept.mono (by decide)) _ _ h) e
  case ddtSkewApply =>
    have k : KeptDev [.links] P := kp
    exact next_kept (kept_doDdtSkewApply (k.toKept.mono (by decide)) _ _ h) e
  case downstreamSuperframeStart =>
    have k : KeptDev [.regs, .events, .links, .time, .host] P := kp
    exact next_kept (kept_doDownstreamSuperframeStart (k.toKept.mono (by decide)) _ _ h) e
  case upstreamSuperframeRx =>
    have k : KeptDev [.regs, .events, .dirty, .dev, .groups, .links, .mod, .gorse, .time, .meas, .host, .therm,
      .power] P := kp
    exact next_kept (kept_doUpstreamSuperframeRx (k.mono (by decide)) _ _ _ _ h) e
  case echoLoss =>
    have k : KeptDev [.regs, .events, .links, .time, .host] P := kp
    exact next_kept (kept_doEchoLoss (k.toKept.mono (by decide)) _ _ h) e
  case latencyUpdate =>
    have k : KeptDev [.regs, .events, .links, .time, .host] P := kp
    exact next_kept (kept_doLatencyUpdate (k.toKept.mono (by decide)) _ _ h) e
  case asymTrimWrite =>
    have k : KeptDev [.regs, .events, .links, .gorse, .time, .host] P := kp
    exact next_kept (kept_doAsymTrimWrite (k.toKept.mono (by decide)) _ _ _ (kept_hostAccess (k.toKept.mono (by decide)) _ h)) e
  case k28_3Rx =>
    have k : KeptDev [.regs, .events, .dev, .groups, .links, .mod, .gorse, .time, .meas, .host, .power] P := kp
    exact next_kept (kept_doK283Rx (k.mono (by decide)) _ _ h) e
  case dckStop =>
    have k : KeptDev [.regs, .events, .links, .time, .host] P := kp
    exact next_kept (kept_doDckStop (k.toKept.mono (by decide)) _ _ h) e
  case edge =>
    have k : KeptDev [.links] P := kp
    exact next_kept (kept_doEdge (k.toKept.mono (by decide)) _ _ _ _ _ _ _ _ h) e
  case boundary =>
    have k : KeptDev [.links] P := kp
    exact next_kept (kept_doBoundary (k.toKept.mono (by decide)) _ _ _ _ _ _ _ _ h) e
  case sample =>
    have k : KeptDev [.links] P := kp
    exact next_kept (kept_doSample (k.toKept.mono (by decide)) _ _ _ _ h) e
  case supply =>
    have k : KeptDev [.links] P := kp
    exact next_kept (kept_doSupply (k.toKept.mono (by decide)) _ _ _ _ h) e
  case diag =>
    have k : KeptDev [.links] P := kp
    exact next_kept (kept_doDiag (k.toKept.mono (by decide)) _ _ _ _ _ _ h) e
  case grid =>
    have k : KeptDev [.regs, .events, .groups, .links, .time, .host] P := kp
    exact next_kept (kept_doGrid (k.toKept.mono (by decide)) _ _ _ _ _ _ h) e
  case wzTrip =>
    have k : KeptDev [.regs, .events, .dev, .groups, .links, .mod, .gorse, .time, .meas, .host, .power] P := kp
    exact next_kept (kept_doWzTrip (k.mono (by decide)) _ _ h) e
  case wzLink =>
    have k : KeptDev [.regs, .events, .dev, .groups, .links, .mod, .gorse, .time, .meas, .host, .power] P := kp
    exact next_kept (kept_doWzLink (k.mono (by decide)) _ _ h) e
  case cellBlock =>
    have k : KeptDev [.links] P := kp
    exact next_kept (kept_doCellBlock (k.toKept.mono (by decide)) _ _ _ h) e
  case cellFaultLatch =>
    have k : KeptDev [.links] P := kp
    exact next_kept (kept_doCellFaultLatch (k.toKept.mono (by decide)) _ _ _ _ h) e
  case incompletePeriod =>
    have k : KeptDev [.links] P := kp
    exact next_kept (kept_doIncompletePeriod (k.toKept.mono (by decide)) _ _ h) e
  case dsatCrossing =>
    have k : KeptDev [.regs, .events, .dev, .groups, .links, .mod, .gorse, .time, .meas, .host, .power] P := kp
    exact next_kept (kept_doDsatCrossing (k.mono (by decide)) _ _ h) e
  case blankingEnd =>
    have k : KeptDev [.regs, .events, .dev, .groups, .links, .mod, .gorse, .time, .meas, .host, .power] P := kp
    exact next_kept (kept_doBlankingEnd (k.mono (by decide)) _ _ _ h) e
  case cSourceFiltered =>
    have k : KeptDev [.regs, .events, .dev, .groups, .links, .mod, .gorse, .time, .meas, .host, .power] P := kp
    exact next_kept (kept_doCSourceFiltered (k.mono (by decide)) _ _ _ _ h) e
  case xchkReplayDone =>
    have k : KeptDev [.regs, .events, .dev, .groups, .damask, .links, .mod, .gorse, .time, .meas, .host, .power] P := kp
    exact next_kept (kept_doXchkReplayDone (k.mono (by decide)) _ _ _ h) e
  case gorseSelftest =>
    have k : KeptDev [.regs, .events, .dirty, .dev, .groups, .damask, .links, .mod, .gorse, .time, .meas,
      .meter, .host, .therm, .power] P := kp
    exact next_kept (kept_doGorseSelftest (k.mono (by decide)) _ _ _ _ h) e
  case singleChLimit =>
    have k : KeptDev [.regs, .events, .dev, .groups, .links, .mod, .gorse, .time, .meas, .host, .power] P := kp
    exact next_kept (kept_doSingleChLimit (k.mono (by decide)) _ h) e
  case hostTrip =>
    have k : KeptDev [.regs, .events, .dev, .groups, .links, .mod, .gorse, .time, .meas, .host, .power] P := kp
    exact next_kept (kept_doHostTrip (k.mono (by decide)) _ _ (kept_hostAccess (k.toKept.mono (by decide)) _ h)) e
  case hostSafeStop =>
    have k : KeptDev [.regs, .events, .dev, .groups, .links, .mod, .gorse, .time, .meas, .host, .power] P := kp
    exact next_kept (kept_doHostSafeStop (k.mono (by decide)) _ _ (kept_hostAccess (k.toKept.mono (by decide)) _ h)) e
  case safeStop =>
    have k : KeptDev [.regs, .events, .dev, .groups, .links, .mod, .gorse, .time, .meas, .host, .power] P := kp
    exact next_kept (kept_svcCommand (k.toKept.mono (by decide)) _ _ (fun u hu => (kept_doSafeStop (k.mono (by decide)) _ u hu)) h) e
  case ssStep =>
    have k : KeptDev [.regs, .events, .groups, .links, .mod, .gorse, .time, .host] P := kp
    exact next_kept (kept_doSsStep (k.toKept.mono (by decide)) _ h) e
  case ssWaitEnd =>
    have k : KeptDev [.regs, .events, .groups, .links, .mod, .gorse, .time, .host] P := kp
    exact next_kept (kept_doSsWaitEnd (k.toKept.mono (by decide)) _ h) e
  case safeStopTimeout =>
    have k : KeptDev [.regs, .events, .dev, .groups, .links, .mod, .gorse, .time, .meas, .host, .power] P := kp
    exact next_kept (kept_doSafeStopTimeout (k.mono (by decide)) _ h) e
  case debugHalt =>
    have k : KeptDev [.regs, .events, .dev, .groups, .links, .mod, .gorse, .time, .meas, .host, .power] P := kp
    exact next_kept (kept_doDebugHalt (k.mono (by decide)) _ h) e
  case enFall =>
    have k : KeptDev [.regs, .events, .dev, .groups, .links, .mod, .gorse, .time, .meas, .host, .power] P := kp
    exact next_kept (kept_doEnFall (k.mono (by decide)) _ h) e
  case enRise => exact absurd hc (by simp [beyond])
  case brkTurnOn =>
    have k : KeptDev [.gorse] P := kp
    exact next_kept (kept_doBrkTurnOn (k.toKept.mono (by decide)) _ h) e
  case brkTurnOff =>
    have k : KeptDev [.regs, .events, .gorse, .conv, .time, .meas, .host, .power] P := kp
    exact next_kept (kept_doBrkTurnOff (k.toKept.mono (by decide)) _ h) e
  case brkOvertime =>
    have k : KeptDev [.gorse] P := kp
    exact next_kept (kept_doBrkOvertime (k.toKept.mono (by decide)) _ h) e
  case offstateDiagDone =>
    have k : KeptDev [.regs, .events, .links, .time, .host] P := kp
    exact next_kept (kept_doOffstateDiagDone (k.toKept.mono (by decide)) _ _ h) e
  case cmpSelftestDone =>
    have k : KeptDev [.regs, .events, .conv, .time, .host] P := kp
    exact next_kept (kept_doCmpSelftestDone (k.toKept.mono (by decide)) _ _ h) e
  case tripRecRead =>
    have k : KeptDev [.regs, .events, .gorse, .time, .bracken, .host] P := kp
    exact next_kept (kept_doTripRecRead (k.toKept.mono (by decide)) _ _ _ h) e
  case spotTrig =>
    have k : KeptDev [.gorse, .conv, .host] P := kp
    exact next_kept (kept_doSpotTrig (k.toKept.mono (by decide)) _ _ (kept_hostAccess (k.toKept.mono (by decide)) _ h)) e
  case spotPeriodicCapture =>
    have k : KeptDev [.regs, .events] P := kp
    exact next_kept (kept_doSpotPeriodicCapture (k.toKept.mono (by decide)) _ _ h) e
  case adcDataRead =>
    have k : KeptDev [.regs, .events, .gorse, .time, .bracken, .host] P := kp
    exact next_kept (kept_doAdcDataRead (k.toKept.mono (by decide)) _ _ _ h) e
  case refEnWrite =>
    have k : KeptDev [.regs, .events, .gorse, .conv, .time, .host] P := kp
    exact next_kept (kept_doRefEnWrite (k.toKept.mono (by decide)) _ _ (kept_hostAccess (k.toKept.mono (by decide)) _ h)) e
  case refSettled =>
    have k : KeptDev [.conv] P := kp
    exact next_kept (kept_doRefSettled (k.toKept.mono (by decide)) _ h) e
  case selfCalCommit =>
    have k : KeptDev [.regs, .events, .conv, .time, .host] P := kp
    exact next_kept (kept_doSelfCalCommit (k.toKept.mono (by decide)) _ _ h) e
  case ucalSave =>
    have k : KeptDev [.gorse, .conv, .host] P := kp
    exact next_kept (kept_doUcalSave (k.toKept.mono (by decide)) _ _ (kept_hostAccess (k.toKept.mono (by decide)) _ h)) e
  case ucalSaveDone =>
    have k : KeptDev [.conv] P := kp
    exact next_kept (kept_doUcalSaveDone (k.toKept.mono (by decide)) _ h) e
  case wcCrossing =>
    have k : KeptDev [.regs, .events, .conv, .time, .meas, .host, .power] P := kp
    exact next_kept (kept_doWcCrossing (k.toKept.mono (by decide)) _ _ _ h) e
  case wcSettled =>
    have k : KeptDev [.regs, .events, .conv, .time, .meas, .host, .power] P := kp
    exact next_kept (kept_doWcSettled (k.toKept.mono (by decide)) _ _ _ h) e
  case capRead =>
    have k : KeptDev [.regs, .events, .gorse, .time, .bracken, .host] P := kp
    exact next_kept (kept_doCapRead (k.toKept.mono (by decide)) _ _ _ h) e
  case rbCtrl =>
    have k : KeptDev [.regs, .events, .gorse, .conv, .time, .host] P := kp
    exact next_kept (kept_doRbCtrl (k.toKept.mono (by decide)) _ _ (kept_hostAccess (k.toKept.mono (by decide)) _ h)) e
  case readbackDone =>
    have k : KeptDev [.regs, .conv] P := kp
    exact next_kept (kept_doReadbackDone (k.toKept.mono (by decide)) _ _ h) e
  case reg64LowRead =>
    have k : KeptDev [.regs, .events, .gorse, .time, .bracken, .host] P := kp
    exact next_kept (kept_doReg64LowRead (k.toKept.mono (by decide)) _ _ _ h) e
  case timeNsRead =>
    have k : KeptDev [.regs, .events, .gorse, .time, .bracken, .host] P := kp
    exact next_kept (kept_doTimeNsRead (k.toKept.mono (by decide)) _ _ h) e
  case timeAdj =>
    have k : KeptDev [.regs, .events, .gorse, .time, .host] P := kp
    exact next_kept (kept_doTimeAdj (k.toKept.mono (by decide)) _ _ (kept_hostAccess (k.toKept.mono (by decide)) _ h)) e
  case timeSet =>
    have k : KeptDev [.regs, .events, .gorse, .time, .host] P := kp
    exact next_kept (kept_doTimeSet (k.toKept.mono (by decide)) _ _ (kept_hostAccess (k.toKept.mono (by decide)) _ h)) e
  case addendWrite =>
    have k : KeptDev [.regs, .events, .gorse, .time, .host] P := kp
    exact next_kept (kept_doAddendWrite (k.toKept.mono (by decide)) _ _ _ (kept_hostAccess (k.toKept.mono (by decide)) _ h)) e
  case ethFrameRx =>
    have k : KeptDev [.regs, .events, .dram, .time, .eth, .meas, .host] P := kp
    exact next_kept (kept_doEthFrameRx (k.toKept.mono (by decide)) _ _ _ _ h) e
  case servoMeasurement =>
    have k : KeptDev [.regs, .events, .time, .host, .therm] P := kp
    exact next_kept (kept_doServoMeasurement (k.toKept.mono (by decide)) _ _ h) e
  case holdoverEntry =>
    have k : KeptDev [.regs, .events, .time, .host, .therm] P := kp
    exact next_kept (kept_doHoldoverEntry (k.toKept.mono (by decide)) _ h) e
  case holdoverCorrection =>
    have k : KeptDev [.regs, .events, .time, .host, .therm] P := kp
    exact next_kept (kept_doHoldoverCorrection (k.toKept.mono (by decide)) _ h) e
  case ppsOutRise =>
    have k : KeptDev [.time] P := kp
    exact next_kept (kept_doPpsOutRise (k.toKept.mono (by decide)) _ h) e
  case ppsOutFall =>
    have k : KeptDev [.time] P := kp
    exact next_kept (kept_doPpsOutFall (k.toKept.mono (by decide)) _ h) e
  case ppsInEdge =>
    have k : KeptDev [.regs, .events, .time, .host, .therm] P := kp
    exact next_kept (kept_doPpsInEdge (k.toKept.mono (by decide)) _ h) e
  case ppsInMissing =>
    have k : KeptDev [.regs, .events, .time, .host] P := kp
    exact next_kept (kept_doPpsInMissing (k.toKept.mono (by decide)) _ h) e
  case lqTailWrite =>
    have k : KeptDev [.regs, .gorse, .eth, .host] P := kp
    exact next_kept (kept_doLqTailWrite (k.toKept.mono (by decide)) _ _ _ (kept_hostAccess (k.toKept.mono (by decide)) _ h)) e
  case frameLaunch =>
    have k : KeptDev [.regs, .events, .dram, .time, .eth, .host] P := kp
    exact next_kept (kept_doFrameLaunch (k.toKept.mono (by decide)) _ _ _ h) e
  case pmuReport =>
    have k : KeptDev [.regs, .events, .dram, .time, .eth, .host] P := kp
    exact next_kept (kept_doPmuReport (k.toKept.mono (by decide)) _ _ _ h) e
  case pmuCfgChange =>
    have k : KeptDev [.regs, .events, .time, .meas, .host] P := kp
    exact next_kept (kept_doPmuCfgChange (k.toKept.mono (by decide)) _ h) e
  case dataOn =>
    have k : KeptDev [.gorse, .meas, .host] P := kp
    exact next_kept (kept_doDataOn (k.toKept.mono (by decide)) _ (kept_hostAccess (k.toKept.mono (by decide)) _ h)) e
  case dataOff =>
    have k : KeptDev [.gorse, .meas, .host] P := kp
    exact next_kept (kept_doDataOff (k.toKept.mono (by decide)) _ (kept_hostAccess (k.toKept.mono (by decide)) _ h)) e
  case sendCfg2 =>
    have k : KeptDev [.regs, .events, .dram, .gorse, .time, .eth, .host] P := kp
    exact next_kept (kept_doSendCfg2 (k.toKept.mono (by decide)) _ (kept_hostAccess (k.toKept.mono (by decide)) _ h)) e
  case sendHdr =>
    have k : KeptDev [.regs, .events, .dram, .gorse, .time, .eth, .host] P := kp
    exact next_kept (kept_doSendHdr (k.toKept.mono (by decide)) _ (kept_hostAccess (k.toKept.mono (by decide)) _ h)) e
  case pmuNotice =>
    have k : KeptDev [.gorse, .meas, .host] P := kp
    exact next_kept (kept_doPmuNotice (k.toKept.mono (by decide)) _ _ (kept_hostAccess (k.toKept.mono (by decide)) _ h)) e
  case twFront =>
    have k : KeptDev [.meas] P := kp
    exact next_kept (kept_doTwFront (k.toKept.mono (by decide)) _ _ _ _ h) e
  case twEventEnd =>
    have k : KeptDev [.regs, .events, .dram, .time, .eth, .meas, .host] P := kp
    exact next_kept (kept_doTwEventEnd (k.toKept.mono (by decide)) _ h) e
  case twLocateDone =>
    have k : KeptDev [.regs, .events, .time, .host] P := kp
    exact next_kept (kept_doTwLocateDone (k.toKept.mono (by decide)) _ h) e
  case recForce =>
    have k : KeptDev [.gorse, .meas, .host] P := kp
    exact next_kept (kept_doRecForce (k.toKept.mono (by decide)) _ _ (kept_hostAccess (k.toKept.mono (by decide)) _ h)) e
  case recFreeze =>
    have k : KeptDev [.regs, .events, .time, .meas, .host] P := kp
    exact next_kept (kept_doRecFreeze (k.toKept.mono (by decide)) _ h) e
  case recRelease =>
    have k : KeptDev [.gorse, .meas, .host] P := kp
    exact next_kept (kept_doRecRelease (k.toKept.mono (by decide)) _ _ (kept_hostAccess (k.toKept.mono (by decide)) _ h)) e
  case waveDumpDone =>
    have k : KeptDev [.regs, .events, .dram, .time, .host] P := kp
    exact next_kept (kept_doWaveDumpDone (k.toKept.mono (by decide)) _ h) e
  case lineCycleEnd =>
    have k : KeptDev [.regs, .events, .time, .meter, .host] P := kp
    exact next_kept (kept_doLineCycleEnd (k.toKept.mono (by decide)) _ _ _ _ h) e
  case pulseEnd =>
    have k : KeptDev [.meter] P := kp
    exact next_kept (kept_doPulseEnd (k.toKept.mono (by decide)) _ _ h) e
  case periodicRecord =>
    have k : KeptDev [.meter] P := kp
    exact next_kept (kept_doPeriodicRecord (k.toKept.mono (by decide)) _ h) e
  case noLine =>
    have k : KeptDev [.meter] P := kp
    exact next_kept (kept_doNoLine (k.toKept.mono (by decide)) _ _ h) e
  case pfwNFall =>
    have k : KeptDev [.meter, .power] P := kp
    exact next_kept (kept_doPfwNFall (k.toKept.mono (by decide)) _ h) e
  case finalRepeat =>
    have k : KeptDev [.meter] P := kp
    exact next_kept (kept_doFinalRepeat (k.toKept.mono (by decide)) _ h) e
  case energyClear =>
    have k : KeptDev [.regs, .events, .gorse, .time, .meter, .host] P := kp
    exact next_kept (kept_doEnergyClear (k.toKept.mono (by decide)) _ _ (kept_hostAccess (k.toKept.mono (by decide)) _ h)) e
  case brackenSecond =>
    have k : KeptDev [.regs, .events, .time, .bracken, .host] P := kp
    exact next_kept (kept_doBrackenSecond (k.toKept.mono (by decide)) _ _ _ _ h) e
  case alignmentRecord =>
    have k : KeptDev [.regs, .events, .time, .bracken, .host] P := kp
    exact next_kept (kept_doAlignmentRecord (k.toKept.mono (by decide)) _ h) e
  case brClear =>
    have k : KeptDev [.gorse, .bracken, .host] P := kp
    exact next_kept (kept_doBrClear (k.toKept.mono (by decide)) _ _ (kept_hostAccess (k.toKept.mono (by decide)) _ h)) e
  case vbatRestart =>
    have k : KeptDev [.regs, .events, .time, .bracken, .host] P := kp
    exact next_kept (kept_doVbatRestart (k.toKept.mono (by decide)) _ h) e
  case registerWrite =>
    have k : KeptDev [.regs, .events, .dirty, .dram, .dev, .groups, .damask, .clock, .links, .mod, .gorse,
      .conv, .time, .eth, .meas, .meter, .bracken, .host, .therm, .power] P := kp
    exact next_kept (kept_doRegisterWrite (k.mono (by decide)) _ _ _ _ _ _ h) e
  case rcRead =>
    have k : KeptDev [.regs, .events, .gorse, .time, .bracken, .host] P := kp
    exact next_kept (kept_doRcRead (k.toKept.mono (by decide)) _ _ _ _ h) e
  case macHiWrite =>
    have k : KeptDev [.regs, .events, .gorse, .time, .eth, .host] P := kp
    exact next_kept (kept_doMacHiWrite (k.toKept.mono (by decide)) _ _ _ (kept_hostAccess (k.toKept.mono (by decide)) _ h)) e
  case spiWrite =>
    have k : KeptDev [.regs, .events, .dirty, .dev, .groups, .damask, .links, .mod, .gorse, .conv, .time,
      .meas, .host, .therm, .power] P := kp
    exact next_kept (kept_doSpiWrite (k.mono (by decide)) _ _ h) e
  case spiRead =>
    have k : KeptDev [.regs, .events, .gorse, .time, .bracken, .host] P := kp
    exact next_kept (kept_doSpiRead (k.toKept.mono (by decide)) _ _ h) e
  case spiBadCommand =>
    have k : KeptDev [.regs, .events, .host] P := kp
    exact next_kept (kept_doSpiBadCommand (k.toKept.mono (by decide)) _ _ _ h) e
  case spiAbort =>
    have k : KeptDev [.host] P := kp
    exact next_kept (kept_doSpiAbort (k.toKept.mono (by decide)) _ _ h) e
  case vecAck =>
    have k : KeptDev [.regs, .events, .gorse, .time, .host, .therm] P := kp
    exact next_kept (kept_doVecAck (k.toKept.mono (by decide)) _ _ _ (kept_hostAccess (k.toKept.mono (by decide)) _ h)) e
  case msixEnable =>
    have k : KeptDev [.regs, .time, .host] P := kp
    exact next_kept (kept_doMsixEnable (k.toKept.mono (by decide)) _ h) e
  case watchdogExpire =>
    have k : KeptDev [.regs, .events, .dev, .groups, .links, .mod, .gorse, .time, .meas, .host, .power] P := kp
    exact next_kept (kept_doWatchdogExpire (k.mono (by decide)) _ _ h) e
  case wdogWarn =>
    have k : KeptDev [.regs, .events, .time, .host] P := kp
    exact next_kept (kept_doWdogWarn (k.toKept.mono (by decide)) _ _ h) e
  case hostWdogKick =>
    have k : KeptDev [.gorse, .host] P := kp
    exact next_kept (kept_doHostWdogKick (k.toKept.mono (by decide)) _ _ (kept_hostAccess (k.toKept.mono (by decide)) _ h)) e
  case svcWdogKick =>
    have k : KeptDev [.gorse, .host] P := kp
    exact next_kept (kept_svcCommand (k.toKept.mono (by decide)) _ _ (fun u hu => (kept_doSvcWdogKick (k.toKept.mono (by decide)) _ u hu)) h) e
  case histCaptureEnd =>
    have k : KeptDev [.regs, .events, .time, .host, .therm] P := kp
    exact next_kept (kept_doHistCaptureEnd (k.toKept.mono (by decide)) _ h) e
  case tsConversion =>
    have k : KeptDev [.regs, .events, .time, .host, .therm] P := kp
    exact next_kept (kept_doTsConversion (k.toKept.mono (by decide)) _ _ _ h) e
  case dieSensorConversion =>
    have k : KeptDev [.regs, .events, .time, .host, .therm, .power] P := kp
    exact next_kept (kept_doDieSensorConversion (k.toKept.mono (by decide)) _ _ _ h) e
  case dieShutdown => exact absurd hc (by simp [beyond])
  case dieShutdownRelease =>
    have k : KeptDev [.regs, .events, .dev, .groups, .damask, .links, .mod, .gorse, .time, .meas, .host, .power] P := kp
    exact next_kept (kept_doDieShutdownRelease (k.mono (by decide)) _ _ h) e
  case quadRailMeasure =>
    have k : KeptDev [.regs, .events, .time, .host, .power] P := kp
    exact next_kept (kept_doQuadRailMeasure (k.toKept.mono (by decide)) _ _ h) e
  case powerOnReset => exact absurd hc (by simp [beyond])
  case resetN => exact absurd hc (by simp [beyond])
  case perstN =>
    have k : KeptDev [.regs, .host, .power] P := kp
    exact next_kept (kept_doPerstN (k.toKept.mono (by decide)) _ h) e
  case resetRelease =>
    have k : KeptDev [.regs, .events, .dev, .groups, .damask, .links, .mod, .gorse, .time, .meas, .host, .power] P := kp
    exact next_kept (kept_doResetRelease (k.mono (by decide)) _ _ h) e
  case standbyEnter =>
    have k : KeptDev [.regs, .events, .links, .gorse, .time, .host, .power] P := kp
    exact next_kept (kept_doStandbyEnter (k.toKept.mono (by decide)) _ _ (kept_hostAccess (k.toKept.mono (by decide)) _ h)) e
  case standbyWake =>
    have k : KeptDev [.regs, .events, .links, .gorse, .time, .host, .power] P := kp
    exact next_kept (kept_doStandbyWake (k.toKept.mono (by decide)) _ _ (kept_hostAccess (k.toKept.mono (by decide)) _ h)) e
  case standbyExitDone =>
    have k : KeptDev [.links, .power] P := kp
    exact next_kept (kept_doStandbyExitDone (k.toKept.mono (by decide)) _ h) e
  case referenceReturn =>
    have k : KeptDev [.regs, .events, .clock, .time, .host] P := kp
    exact next_kept (kept_doReferenceReturn (k.toKept.mono (by decide)) _ h) e
  case timeCtrlWrite =>
    have k : KeptDev [.regs, .events, .gorse, .time, .host] P := kp
    exact next_kept (kept_doTimeCtrlWrite (k.toKept.mono (by decide)) _ _ (kept_hostAccess (k.toKept.mono (by decide)) _ h)) e
  case pfwNRise =>
    have k : KeptDev [.meter] P := kp
    exact next_kept (kept_doPfwNRise (k.toKept.mono (by decide)) _ h) e
  case vbatLoss =>
    have k : KeptDev [.bracken] P := kp
    exact next_kept (kept_doVbatLoss (k.toKept.mono (by decide)) _ h) e
  case brackenCrystalStop =>
    have k : KeptDev [.regs, .events, .time, .bracken, .host] P := kp
    exact next_kept (kept_doBrackenCrystalStop (k.toKept.mono (by decide)) _ h) e
  case mramScrubDone =>
    have k : KeptDev [.regs, .events, .time, .host] P := kp
    exact next_kept (kept_doMramScrubDone (k.toKept.mono (by decide)) _ _ _ _ h) e
  case ethLinkChange =>
    have k : KeptDev [.eth] P := kp
    exact next_kept (kept_doEthLinkChange (k.toKept.mono (by decide)) _ _ _ h) e
  case ethCfgWrite =>
    have k : KeptDev [.regs, .events, .gorse, .time, .host] P := kp
    exact next_kept (kept_doEthCfgWrite (k.toKept.mono (by decide)) _ _ _ (kept_hostAccess (k.toKept.mono (by decide)) _ h)) e
  case converterSample =>
    have k : KeptDev [.regs, .events, .dram, .conv, .time, .meas, .meter, .host, .therm] P := kp
    exact next_kept (kept_doConverterSample (k.toKept.mono (by decide)) _ _ h) e

/-- The same with what the other commands do: any enables, the entries to RUN and TRIPPED, resets. -/
structure KeptAll (l : List Part) (P : State → Prop) : Prop extends KeptDev l P where
  run : partBit .dev &&& partMask l = partBit .dev → ∀ t, P t → P { t with dev := .run }
  halt : partBit .dev &&& partMask l = partBit .dev → ∀ t, P t → P { t with dev := .tripped }
  enable : partBit .mod &&& partMask l = partBit .mod → ∀ t x, P t → P { t with mod := x }
  reset : partMask allParts &&& partMask l = partMask allParts → ∀ t, P t → P (resetDevice t)

theorem kept_execAll (c : Instr) (kp : KeptAll (parts c) P) (s t : State) (e : exec c s = .next t) (h : Holds P s) :
    Holds P t := by
  cases hc : beyond c with
  | false => exact kept_exec c kp.toKeptDev hc s t e h
  | true =>
    cases c
    case periodBoundary =>
      have k : KeptAll [.regs, .events, .force, .dirty, .groups, .damask, .links, .mod, .units, .gorse, .conv,
        .time, .meas, .meter, .host, .therm, .power] P := kp
      exact next_kept (kept_doPeriodBoundary (k.toKeptDev.toKept.mono (by decide)) _ _ (k.enable (by decide)) h) e
    case imageActivation =>
      have k : KeptAll [.regs, .events, .force, .dirty, .dev, .groups, .present, .damask, .links, .mod, .units,
        .gorse, .conv, .time, .eth, .meas, .meter, .host, .power] P := kp
      exact next_kept (kept_doImageActivation (k.toKeptDev.toKept.mono (by decide)) _ (k.run (by decide)) (k.halt (by decide)) h) e
    case enRise =>
      have k : KeptAll [.regs, .events, .dev, .links, .mod, .gorse, .time, .host] P := kp
      exact next_kept (kept_doEnRise (k.toKeptDev.mono (by decide)) _ _ (k.run (by decide)) h) e
    case dieShutdown =>
      have k : KeptAll allParts P := kp
      exact next_kept (kept_doDieShutdown (k.toKeptDev.mono (by decide)) _ _ (k.reset (by decide)) h) e
    case powerOnReset =>
      have k : KeptAll allParts P := kp
      exact next_kept (kept_doPowerOnReset (k.toKeptDev.toKept.mono (by decide)) _ (k.reset (by decide)) h) e
    case resetN =>
      have k : KeptAll allParts P := kp
      exact next_kept (kept_doResetN (k.toKeptDev.toKept.mono (by decide)) _ (k.reset (by decide)) h) e
    all_goals exact absurd hc (by simp [beyond])

theorem mem_of_partBit (l : List Part) (p : Part) (h : partBit p &&& partMask l = partBit p) : p ∈ l := by
  induction l with
  | nil => cases p <;> simp [partBit, partMask] at h
  | cons q l ih =>
    by_cases hq : p = q
    · simp [hq]
    · have e : partBit p &&& partBit q = 0 := by
        cases p <;> cases q <;> first | rfl | exact absurd rfl hq
      refine List.mem_cons_of_mem _ (ih ?_)
      have h2 : partBit p &&& (partBit q ||| partMask l) = partBit p := h
      rwa [Nat.and_or_distrib_left, e, Nat.zero_or] at h2

/-- Being unchanged but for the fields of l is a property that the updates of those fields keep. -/
theorem kept_unchangedBut (l : List Part) (s : State) : KeptAll l (unchangedBut l s) := by
  have put : ∀ (p : Part) (t u : State), (∀ q, q ≠ p → samePart q t u) → partBit p &&& partMask l = partBit p →
      unchangedBut l s t → unchangedBut l s u := by
    intro p t u hs hm ht q hq
    have hqp : q ≠ p := fun e => hq (e ▸ mem_of_partBit l p hm)
    have h1 := ht q hq
    have h2 := hs q hqp
    revert h1 h2
    cases q <;> (intro h1 h2; exact h2.trans h1)
  constructor
  case reset =>
    intro hm t ht q hq
    have hall : ∀ p, p ∈ allParts → p ∈ l := fun p hp =>
      mem_of_partBit l p (and_sub (by revert hp; cases p <;> decide) hm)
    have h1 := ht q hq
    revert h1 hq
    cases q <;> intro hq h1 <;> first | exact h1 | exact absurd (hall _ (by decide)) hq
  case run => exact fun hm t ht => put .dev _ _ (fun q hq => by cases q <;> first | rfl | exact absurd rfl hq) hm ht
  case halt => exact fun hm t ht => put .dev _ _ (fun q hq => by cases q <;> first | rfl | exact absurd rfl hq) hm ht
  case enable => exact fun hm t _ ht => put .mod _ _ (fun q hq => by cases q <;> first | rfl | exact absurd rfl hq) hm ht
  case toKeptDev =>
    constructor
    case stop => exact fun hm t _ ht => put .dev _ _ (fun q hq => by cases q <;> first | rfl | exact absurd rfl hq) hm ht
    case trip => exact fun hm t _ ht => put .dev _ _ (fun q hq => by cases q <;> first | rfl | exact absurd rfl hq) hm ht
    case toKept =>
      constructor
      case regs => exact fun hm t _ _ ht => put .regs _ _ (fun q hq => by cases q <;> first | rfl | exact absurd rfl hq) hm ht
      case regsClr => exact fun hm t _ _ ht => put .regs _ _ (fun q hq => by cases q <;> first | rfl | exact absurd rfl hq) hm ht
      case events => exact fun hm t _ ht => put .events _ _ (fun q hq => by cases q <;> first | rfl | exact absurd rfl hq) hm ht
      case dram => exact fun hm _ _ t ht => put .dram _ _ (fun q hq => by cases q <;> first | rfl | exact absurd rfl hq) hm ht
      case force => exact fun hm t _ _ ht => put .force _ _ (fun q hq => by cases q <;> first | rfl | exact absurd rfl hq) hm ht
      case forceClr => exact fun hm t _ _ ht => put .force _ _ (fun q hq => by cases q <;> first | rfl | exact absurd rfl hq) hm ht
      case dirty => exact fun hm t _ ht => put .dirty _ _ (fun q hq => by cases q <;> first | rfl | exact absurd rfl hq) hm ht
      case groups => exact fun hm t _ ht => put .groups _ _ (fun q hq => by cases q <;> first | rfl | exact absurd rfl hq) hm ht
      case present => exact fun hm t _ ht => put .present _ _ (fun q hq => by cases q <;> first | rfl | exact absurd rfl hq) hm ht
      case damask => exact fun hm t _ ht => put .damask _ _ (fun q hq => by cases q <;> first | rfl | exact absurd rfl hq) hm ht
      case clock => exact fun hm t _ ht => put .clock _ _ (fun q hq => by cases q <;> first | rfl | exact absurd rfl hq) hm ht
      case links => exact fun hm t _ ht => put .links _ _ (fun q hq => by cases q <;> first | rfl | exact absurd rfl hq) hm ht
      case mod => exact fun hm t _ _ ht => put .mod _ _ (fun q hq => by cases q <;> first | rfl | exact absurd rfl hq) hm ht
      case units => exact fun hm t _ ht => put .units _ _ (fun q hq => by cases q <;> first | rfl | exact absurd rfl hq) hm ht
      case gorse => exact fun hm t _ ht => put .gorse _ _ (fun q hq => by cases q <;> first | rfl | exact absurd rfl hq) hm ht
      case conv => exact fun hm t _ ht => put .conv _ _ (fun q hq => by cases q <;> first | rfl | exact absurd rfl hq) hm ht
      case time => exact fun hm t _ ht => put .time _ _ (fun q hq => by cases q <;> first | rfl | exact absurd rfl hq) hm ht
      case eth => exact fun hm t _ ht => put .eth _ _ (fun q hq => by cases q <;> first | rfl | exact absurd rfl hq) hm ht
      case meas => exact fun hm t _ ht => put .meas _ _ (fun q hq => by cases q <;> first | rfl | exact absurd rfl hq) hm ht
      case meter => exact fun hm t _ ht => put .meter _ _ (fun q hq => by cases q <;> first | rfl | exact absurd rfl hq) hm ht
      case bracken => exact fun hm t _ ht => put .bracken _ _ (fun q hq => by cases q <;> first | rfl | exact absurd rfl hq) hm ht
      case host => exact fun hm t _ ht => put .host _ _ (fun q hq => by cases q <;> first | rfl | exact absurd rfl hq) hm ht
      case therm => exact fun hm t _ ht => put .therm _ _ (fun q hq => by cases q <;> first | rfl | exact absurd rfl hq) hm ht
      case power => exact fun hm t _ ht => put .power _ _ (fun q hq => by cases q <;> first | rfl | exact absurd rfl hq) hm ht


end Sys2Proof.Laws
end

