-- ==== Sys2Proof/Laws/Tbl.lean ====
section
/-! SUPPORT. The laws of sparse tables: read after write, and that every operation keeps the canonical form. -/

namespace Sys2Proof.Laws

open Sys2Proof.Machine

variable {α : Type}

@[simp] theorem tget_nil (d : Nat → α) (k : Nat) : tget d [] k = d k := rfl

@[simp] theorem tget_tdel_self (d : Nat → α) (t : Tbl α) (k : Nat) : tget d (tdel t k) k = d k := by
  induction t with
  | nil => rfl
  | cons p t ih =>
    by_cases h : p.1 = k
    · simp [tdel, h, ih]
    · simp [tdel, h, tget, ih]

theorem tget_tdel_ne (d : Nat → α) (t : Tbl α) {j k : Nat} (h : j ≠ k) : tget d (tdel t k) j = tget d t j := by
  induction t with
  | nil => rfl
  | cons p t ih =>
    by_cases hk : p.1 = k
    · simp only [tdel, hk, if_true, ih, tget, if_neg (Ne.symm h)]
    · simp [tdel, tget, hk, ih]

theorem tget_tins_ne (d : Nat → α) (t : Tbl α) {j k : Nat} (v : α) (h : j ≠ k) :
    tget d (tins t k v) j = tget d t j := by
  have h' : k ≠ j := fun e => h e.symm
  induction t with
  | nil => simp [tins, tget, h']
  | cons p t ih =>
    simp only [tins]
    split <;> simp [tget, h', ih]

theorem tget_tins_self (d : Nat → α) (t : Tbl α) (k : Nat) (v : α) (h : ∀ p ∈ t, p.1 ≠ k) :
    tget d (tins t k v) k = v := by
  induction t with
  | nil => simp [tins, tget]
  | cons p t ih =>
    simp only [tins]
    split
    · simp [tget]
    · simp [tget, h p (by simp), ih (fun q hq => h q (by simp [hq]))]

theorem mem_tdel (t : Tbl α) (k : Nat) (p : Nat × α) : p ∈ tdel t k ↔ p ∈ t ∧ p.1 ≠ k := by
  induction t with
  | nil => simp [tdel]
  | cons q t ih =>
    by_cases h : q.1 = k
    · simp only [tdel, h, if_true, ih, List.mem_cons]
      constructor
      · rintro ⟨h1, h2⟩; exact ⟨Or.inr h1, h2⟩
      · rintro ⟨rfl | h1, h2⟩
        · exact absurd h h2
        · exact ⟨h1, h2⟩
    · simp only [tdel, h, if_false, ih, List.mem_cons]
      constructor
      · rintro (rfl | ⟨h1, h2⟩)
        · exact ⟨Or.inl rfl, h⟩
        · exact ⟨Or.inr h1, h2⟩
      · rintro ⟨rfl | h1, h2⟩
        · exact Or.inl rfl
        · exact Or.inr ⟨h1, h2⟩

theorem mem_tins (t : Tbl α) (k : Nat) (v : α) (p : Nat × α) : p ∈ tins t k v ↔ p = (k, v) ∨ p ∈ t := by
  induction t with
  | nil => simp [tins]
  | cons q t ih =>
    simp only [tins]
    split
    · simp
    · simp only [List.mem_cons, ih]
      exact or_left_comm

theorem pairwise_tdel (t : Tbl α) (k : Nat) (h : t.Pairwise (fun p q => p.1 < q.1)) :
    (tdel t k).Pairwise (fun p q => p.1 < q.1) := by
  induction t with
  | nil => simp [tdel]
  | cons p t ih =>
    rw [List.pairwise_cons] at h
    by_cases hk : p.1 = k
    · simpa [tdel, hk] using ih h.2
    · simp only [tdel, hk, if_false, List.pairwise_cons]
      exact ⟨fun q hq => h.1 q ((mem_tdel t k q).mp hq).1, ih h.2⟩

theorem pairwise_tins (t : Tbl α) (k : Nat) (v : α) (hk : ∀ p ∈ t, p.1 ≠ k) (h : t.Pairwise (fun p q => p.1 < q.1)) :
    (tins t k v).Pairwise (fun p q => p.1 < q.1) := by
  induction t with
  | nil => simp [tins]
  | cons p t ih =>
    have h' := List.pairwise_cons.mp h
    simp only [tins]
    split
    · next hlt =>
      refine List.pairwise_cons.mpr ⟨?_, h⟩
      intro q hq
      rcases List.mem_cons.mp hq with rfl | hq
      · exact hlt
      · exact Nat.lt_trans hlt (h'.1 q hq)
    · next hge =>
      refine List.pairwise_cons.mpr ⟨?_, ih (fun q hq => hk q (by simp [hq])) h'.2⟩
      intro q hq
      have hp := hk p (by simp)
      rcases (mem_tins t k v q).mp hq with rfl | hq
      · simp only
        omega
      · exact h'.1 q hq

section
variable [DecidableEq α]

/-- Read after a write of the same key. -/
@[simp] theorem tget_tset_self (d : Nat → α) (t : Tbl α) (k : Nat) (v : α) : tget d (tset d t k v) k = v := by
  unfold tset
  split
  · next h => simp [h]
  · exact tget_tins_self d _ k v (fun p hp => ((mem_tdel t k p).mp hp).2)

/-- A write leaves every other key. -/
theorem tget_tset_ne (d : Nat → α) (t : Tbl α) {j k : Nat} (v : α) (h : j ≠ k) : tget d (tset d t k v) j = tget d t j := by
  unfold tset
  split
  · exact tget_tdel_ne d t h
  · rw [tget_tins_ne d _ v h, tget_tdel_ne d t h]

theorem tget_tset (d : Nat → α) (t : Tbl α) (j k : Nat) (v : α) :
    tget d (tset d t k v) j = if j = k then v else tget d t j := by
  split
  · next h => rw [h, tget_tset_self]
  · next h => exact tget_tset_ne d t v h

@[simp] theorem tget_tmod_self (d : Nat → α) (t : Tbl α) (k : Nat) (f : α → α) :
    tget d (tmod d t k f) k = f (tget d t k) := tget_tset_self ..

theorem tget_tmod_ne (d : Nat → α) (t : Tbl α) {j k : Nat} (f : α → α) (h : j ≠ k) :
    tget d (tmod d t k f) j = tget d t j := tget_tset_ne d t _ h

/-! The canonical form, as a proposition: keys strictly rising, and no entry at its default. -/

theorem twf_iff (d : Nat → α) (t : Tbl α) :
    twf d t = true ↔ t.Pairwise (fun p q => p.1 < q.1) ∧ ∀ p ∈ t, p.2 ≠ d p.1 := by
  induction t with
  | nil => simp [twf]
  | cons p t ih =>
    cases t with
    | nil => simp [twf]
    | cons q t =>
      simp only [twf, Bool.and_eq_true, decide_eq_true_eq, ih, List.pairwise_cons, List.mem_cons]
      constructor
      · rintro ⟨⟨h1, h2⟩, ⟨h3, h4⟩, h5⟩
        refine ⟨⟨?_, h3, h4⟩, ?_⟩
        · rintro x (rfl | hx)
          · exact h2
          · exact Nat.lt_trans h2 (h3 x hx)
        · rintro x (rfl | rfl | hx)
          · exact h1
          · exact h5 _ (Or.inl rfl)
          · exact h5 x (Or.inr hx)
      · rintro ⟨⟨h1, h3, h4⟩, h5⟩
        exact ⟨⟨h5 p (Or.inl rfl), h1 q (Or.inl rfl)⟩, ⟨h3, h4⟩, fun x hx => h5 x (Or.inr hx)⟩

theorem twf_tdel (d : Nat → α) (t : Tbl α) (k : Nat) (h : twf d t = true) : twf d (tdel t k) = true := by
  rw [twf_iff] at h ⊢
  exact ⟨pairwise_tdel t k h.1, fun p hp => h.2 p ((mem_tdel t k p).mp hp).1⟩

/-- A write keeps the canonical form. -/
theorem twf_tset (d : Nat → α) (t : Tbl α) (k : Nat) (v : α) (h : twf d t = true) : twf d (tset d t k v) = true := by
  unfold tset
  split
  · exact twf_tdel d t k h
  · next hv =>
    have h1 := (twf_iff d _).mp (twf_tdel d t k h)
    rw [twf_iff]
    refine ⟨pairwise_tins _ k v (fun p hp => ((mem_tdel t k p).mp hp).2) h1.1, ?_⟩
    intro p hp
    rcases (mem_tins _ k v p).mp hp with rfl | hp
    · exact hv
    · exact h1.2 p hp

theorem twf_tclr (d : Nat → α) (t : Tbl α) (lo hi : Nat) (h : twf d t = true) : twf d (tclr t lo hi) = true := by
  rw [twf_iff] at h ⊢
  exact ⟨h.1.sublist List.filter_sublist, fun p hp => h.2 p (List.mem_of_mem_filter hp)⟩

theorem tget_tclr (d : Nat → α) (t : Tbl α) (lo hi k : Nat) :
    tget d (tclr t lo hi) k = if lo ≤ k ∧ k < hi then d k else tget d t k := by
  induction t with
  | nil => simp [tclr, tget]
  | cons p t ih =>
    unfold tclr at ih ⊢
    by_cases hp : (p.1 < lo || hi ≤ p.1) = true
    · rw [List.filter_cons_of_pos (by simpa using hp)]
      simp only [tget, ih]
      by_cases hk : p.1 = k
      · subst hk
        simp at hp
        simp
        intro h1 h2
        omega
      · simp [hk]
    · rw [List.filter_cons_of_neg (by simpa using hp), ih]
      simp at hp
      simp only [tget]
      by_cases hk : p.1 = k
      · subst hk
        simp [hp]
      · simp [hk]

theorem twf_tsetRun (d : Nat → α) (l : List α) (t : Tbl α) (k : Nat) (h : twf d t = true) :
    twf d (tsetRun d t k l) = true := by
  induction l generalizing t k with
  | nil => exact h
  | cons v l ih => exact ih _ _ (twf_tset d t k v h)

theorem mem_tset_key (d : Nat → α) (t : Tbl α) (k : Nat) (v : α) (p : Nat × α) (h : p ∈ tset d t k v) :
    p.1 = k ∨ p ∈ t := by
  unfold tset at h
  split at h
  · exact Or.inr ((mem_tdel t k p).mp h).1
  · rcases (mem_tins _ k v p).mp h with rfl | h
    · exact Or.inl rfl
    · exact Or.inr ((mem_tdel t k p).mp h).1

/-- The keys that a run of writes can add. -/
theorem mem_tsetRun_key (d : Nat → α) (l : List α) (t : Tbl α) (k : Nat) (p : Nat × α) (h : p ∈ tsetRun d t k l) :
    (k ≤ p.1 ∧ p.1 < k + l.length) ∨ p ∈ t := by
  induction l generalizing t k with
  | nil => exact Or.inr h
  | cons v l ih =>
    rcases ih _ _ h with h1 | h1
    · left
      simp only [List.length_cons]
      omega
    · rcases mem_tset_key d t k v p h1 with h2 | h2
      · left
        simp only [List.length_cons]
        omega
      · exact Or.inr h2

/-- Read after a run of writes: the run's element inside it, the table's value outside it. -/
theorem tget_tsetRun (d : Nat → α) (l : List α) (t : Tbl α) (k j : Nat) :
    tget d (tsetRun d t k l) j = if k ≤ j then (l[j - k]?).getD (tget d t j) else tget d t j := by
  induction l generalizing t k with
  | nil => simp [tsetRun]
  | cons v l ih =>
    rw [tsetRun, ih]
    by_cases h : k + 1 ≤ j
    · have h1 : j - k = (j - (k + 1)) + 1 := by omega
      have h2 : k ≤ j := by omega
      simp [h, h2, h1, tget_tset_ne d t v (show j ≠ k by omega)]
    · by_cases h3 : j = k
      · subst h3
        simp
      · have h4 : ¬ k ≤ j := by omega
        simp [h, h4, tget_tset_ne d t v h3]

end

end Sys2Proof.Laws
end

