-- ==== Sys2Proof/Laws/State.lean ====
section
/-! SUPPORT. The elementary updates of State: one lemma per field per update, reads through updates, and the canonical
form of the memories. -/

namespace Sys2Proof.Laws

open Sys2Proof Sys2Proof.Machine

variable (s : State)

@[simp] theorem wr_pending (a : Nat) (v : Word) : (wr a v s).pending = s.pending := rfl
@[simp] theorem wr_tick (a : Nat) (v : Word) : (wr a v s).tick = s.tick := rfl
@[simp] theorem wr_regs (a : Nat) (v : Word) : (wr a v s).regs = tset regReset s.regs a v := rfl
@[simp] theorem wr_events (a : Nat) (v : Word) : (wr a v s).events = s.events := rfl
@[simp] theorem wr_force (a : Nat) (v : Word) : (wr a v s).force = s.force := rfl
@[simp] theorem wr_dirty (a : Nat) (v : Word) : (wr a v s).dirty = s.dirty := rfl
@[simp] theorem wr_dram (a : Nat) (v : Word) : (wr a v s).dram = s.dram := rfl
@[simp] theorem wr_dev (a : Nat) (v : Word) : (wr a v s).dev = s.dev := rfl
@[simp] theorem wr_groups (a : Nat) (v : Word) : (wr a v s).groups = s.groups := rfl
@[simp] theorem wr_present (a : Nat) (v : Word) : (wr a v s).present = s.present := rfl
@[simp] theorem wr_damask (a : Nat) (v : Word) : (wr a v s).damask = s.damask := rfl
@[simp] theorem wr_clock (a : Nat) (v : Word) : (wr a v s).clock = s.clock := rfl
@[simp] theorem wr_links (a : Nat) (v : Word) : (wr a v s).links = s.links := rfl
@[simp] theorem wr_mod (a : Nat) (v : Word) : (wr a v s).mod = s.mod := rfl
@[simp] theorem wr_units (a : Nat) (v : Word) : (wr a v s).units = s.units := rfl
@[simp] theorem wr_gorse (a : Nat) (v : Word) : (wr a v s).gorse = s.gorse := rfl
@[simp] theorem wr_conv (a : Nat) (v : Word) : (wr a v s).conv = s.conv := rfl
@[simp] theorem wr_time (a : Nat) (v : Word) : (wr a v s).time = s.time := rfl
@[simp] theorem wr_eth (a : Nat) (v : Word) : (wr a v s).eth = s.eth := rfl
@[simp] theorem wr_meas (a : Nat) (v : Word) : (wr a v s).meas = s.meas := rfl
@[simp] theorem wr_meter (a : Nat) (v : Word) : (wr a v s).meter = s.meter := rfl
@[simp] theorem wr_bracken (a : Nat) (v : Word) : (wr a v s).bracken = s.bracken := rfl
@[simp] theorem wr_host (a : Nat) (v : Word) : (wr a v s).host = s.host := rfl
@[simp] theorem wr_therm (a : Nat) (v : Word) : (wr a v s).therm = s.therm := rfl
@[simp] theorem wr_power (a : Nat) (v : Word) : (wr a v s).power = s.power := rfl

@[simp] theorem noteEvent_pending (a : Nat) (f : Word → Word) : (noteEvent a f s).pending = s.pending := rfl
@[simp] theorem noteEvent_tick (a : Nat) (f : Word → Word) : (noteEvent a f s).tick = s.tick := rfl
@[simp] theorem noteEvent_regs (a : Nat) (f : Word → Word) : (noteEvent a f s).regs = s.regs := rfl
@[simp] theorem noteEvent_force (a : Nat) (f : Word → Word) : (noteEvent a f s).force = s.force := rfl
@[simp] theorem noteEvent_dirty (a : Nat) (f : Word → Word) : (noteEvent a f s).dirty = s.dirty := rfl
@[simp] theorem noteEvent_dram (a : Nat) (f : Word → Word) : (noteEvent a f s).dram = s.dram := rfl
@[simp] theorem noteEvent_dev (a : Nat) (f : Word → Word) : (noteEvent a f s).dev = s.dev := rfl
@[simp] theorem noteEvent_groups (a : Nat) (f : Word → Word) : (noteEvent a f s).groups = s.groups := rfl
@[simp] theorem noteEvent_present (a : Nat) (f : Word → Word) : (noteEvent a f s).present = s.present := rfl
@[simp] theorem noteEvent_damask (a : Nat) (f : Word → Word) : (noteEvent a f s).damask = s.damask := rfl
@[simp] theorem noteEvent_clock (a : Nat) (f : Word → Word) : (noteEvent a f s).clock = s.clock := rfl
@[simp] theorem noteEvent_links (a : Nat) (f : Word → Word) : (noteEvent a f s).links = s.links := rfl
@[simp] theorem noteEvent_mod (a : Nat) (f : Word → Word) : (noteEvent a f s).mod = s.mod := rfl
@[simp] theorem noteEvent_units (a : Nat) (f : Word → Word) : (noteEvent a f s).units = s.units := rfl
@[simp] theorem noteEvent_gorse (a : Nat) (f : Word → Word) : (noteEvent a f s).gorse = s.gorse := rfl
@[simp] theorem noteEvent_conv (a : Nat) (f : Word → Word) : (noteEvent a f s).conv = s.conv := rfl
@[simp] theorem noteEvent_time (a : Nat) (f : Word → Word) : (noteEvent a f s).time = s.time := rfl
@[simp] theorem noteEvent_eth (a : Nat) (f : Word → Word) : (noteEvent a f s).eth = s.eth := rfl
@[simp] theorem noteEvent_meas (a : Nat) (f : Word → Word) : (noteEvent a f s).meas = s.meas := rfl
@[simp] theorem noteEvent_meter (a : Nat) (f : Word → Word) : (noteEvent a f s).meter = s.meter := rfl
@[simp] theorem noteEvent_bracken (a : Nat) (f : Word → Word) : (noteEvent a f s).bracken = s.bracken := rfl
@[simp] theorem noteEvent_host (a : Nat) (f : Word → Word) : (noteEvent a f s).host = s.host := rfl
@[simp] theorem noteEvent_therm (a : Nat) (f : Word → Word) : (noteEvent a f s).therm = s.therm := rfl
@[simp] theorem noteEvent_power (a : Nat) (f : Word → Word) : (noteEvent a f s).power = s.power := rfl

@[simp] theorem setFo_pending (a : Nat) (v : Word) : (setFo a v s).pending = s.pending := rfl
@[simp] theorem setFo_tick (a : Nat) (v : Word) : (setFo a v s).tick = s.tick := rfl
@[simp] theorem setFo_regs (a : Nat) (v : Word) : (setFo a v s).regs = s.regs := rfl
@[simp] theorem setFo_events (a : Nat) (v : Word) : (setFo a v s).events = s.events := rfl
@[simp] theorem setFo_force (a : Nat) (v : Word) : (setFo a v s).force = tset regReset s.force a v := rfl
@[simp] theorem setFo_dirty (a : Nat) (v : Word) : (setFo a v s).dirty = s.dirty := rfl
@[simp] theorem setFo_dram (a : Nat) (v : Word) : (setFo a v s).dram = s.dram := rfl
@[simp] theorem setFo_dev (a : Nat) (v : Word) : (setFo a v s).dev = s.dev := rfl
@[simp] theorem setFo_groups (a : Nat) (v : Word) : (setFo a v s).groups = s.groups := rfl
@[simp] theorem setFo_present (a : Nat) (v : Word) : (setFo a v s).present = s.present := rfl
@[simp] theorem setFo_damask (a : Nat) (v : Word) : (setFo a v s).damask = s.damask := rfl
@[simp] theorem setFo_clock (a : Nat) (v : Word) : (setFo a v s).clock = s.clock := rfl
@[simp] theorem setFo_links (a : Nat) (v : Word) : (setFo a v s).links = s.links := rfl
@[simp] theorem setFo_mod (a : Nat) (v : Word) : (setFo a v s).mod = s.mod := rfl
@[simp] theorem setFo_units (a : Nat) (v : Word) : (setFo a v s).units = s.units := rfl
@[simp] theorem setFo_gorse (a : Nat) (v : Word) : (setFo a v s).gorse = s.gorse := rfl
@[simp] theorem setFo_conv (a : Nat) (v : Word) : (setFo a v s).conv = s.conv := rfl
@[simp] theorem setFo_time (a : Nat) (v : Word) : (setFo a v s).time = s.time := rfl
@[simp] theorem setFo_eth (a : Nat) (v : Word) : (setFo a v s).eth = s.eth := rfl
@[simp] theorem setFo_meas (a : Nat) (v : Word) : (setFo a v s).meas = s.meas := rfl
@[simp] theorem setFo_meter (a : Nat) (v : Word) : (setFo a v s).meter = s.meter := rfl
@[simp] theorem setFo_bracken (a : Nat) (v : Word) : (setFo a v s).bracken = s.bracken := rfl
@[simp] theorem setFo_host (a : Nat) (v : Word) : (setFo a v s).host = s.host := rfl
@[simp] theorem setFo_therm (a : Nat) (v : Word) : (setFo a v s).therm = s.therm := rfl
@[simp] theorem setFo_power (a : Nat) (v : Word) : (setFo a v s).power = s.power := rfl

@[simp] theorem modGroup_pending (i : Nat) (f : Group → Group) : (modGroup i f s).pending = s.pending := rfl
@[simp] theorem modGroup_tick (i : Nat) (f : Group → Group) : (modGroup i f s).tick = s.tick := rfl
@[simp] theorem modGroup_regs (i : Nat) (f : Group → Group) : (modGroup i f s).regs = s.regs := rfl
@[simp] theorem modGroup_events (i : Nat) (f : Group → Group) : (modGroup i f s).events = s.events := rfl
@[simp] theorem modGroup_force (i : Nat) (f : Group → Group) : (modGroup i f s).force = s.force := rfl
@[simp] theorem modGroup_dirty (i : Nat) (f : Group → Group) : (modGroup i f s).dirty = s.dirty := rfl
@[simp] theorem modGroup_dram (i : Nat) (f : Group → Group) : (modGroup i f s).dram = s.dram := rfl
@[simp] theorem modGroup_dev (i : Nat) (f : Group → Group) : (modGroup i f s).dev = s.dev := rfl
@[simp] theorem modGroup_groups (i : Nat) (f : Group → Group) : (modGroup i f s).groups = tmod dGroup s.groups i f := rfl
@[simp] theorem modGroup_present (i : Nat) (f : Group → Group) : (modGroup i f s).present = s.present := rfl
@[simp] theorem modGroup_damask (i : Nat) (f : Group → Group) : (modGroup i f s).damask = s.damask := rfl
@[simp] theorem modGroup_clock (i : Nat) (f : Group → Group) : (modGroup i f s).clock = s.clock := rfl
@[simp] theorem modGroup_links (i : Nat) (f : Group → Group) : (modGroup i f s).links = s.links := rfl
@[simp] theorem modGroup_mod (i : Nat) (f : Group → Group) : (modGroup i f s).mod = s.mod := rfl
@[simp] theorem modGroup_units (i : Nat) (f : Group → Group) : (modGroup i f s).units = s.units := rfl
@[simp] theorem modGroup_gorse (i : Nat) (f : Group → Group) : (modGroup i f s).gorse = s.gorse := rfl
@[simp] theorem modGroup_conv (i : Nat) (f : Group → Group) : (modGroup i f s).conv = s.conv := rfl
@[simp] theorem modGroup_time (i : Nat) (f : Group → Group) : (modGroup i f s).time = s.time := rfl
@[simp] theorem modGroup_eth (i : Nat) (f : Group → Group) : (modGroup i f s).eth = s.eth := rfl
@[simp] theorem modGroup_meas (i : Nat) (f : Group → Group) : (modGroup i f s).meas = s.meas := rfl
@[simp] theorem modGroup_meter (i : Nat) (f : Group → Group) : (modGroup i f s).meter = s.meter := rfl
@[simp] theorem modGroup_bracken (i : Nat) (f : Group → Group) : (modGroup i f s).bracken = s.bracken := rfl
@[simp] theorem modGroup_host (i : Nat) (f : Group → Group) : (modGroup i f s).host = s.host := rfl
@[simp] theorem modGroup_therm (i : Nat) (f : Group → Group) : (modGroup i f s).therm = s.therm := rfl
@[simp] theorem modGroup_power (i : Nat) (f : Group → Group) : (modGroup i f s).power = s.power := rfl

@[simp] theorem modTile_pending (i : Nat) (f : Tile → Tile) : (modTile i f s).pending = s.pending := rfl
@[simp] theorem modTile_tick (i : Nat) (f : Tile → Tile) : (modTile i f s).tick = s.tick := rfl
@[simp] theorem modTile_regs (i : Nat) (f : Tile → Tile) : (modTile i f s).regs = s.regs := rfl
@[simp] theorem modTile_events (i : Nat) (f : Tile → Tile) : (modTile i f s).events = s.events := rfl
@[simp] theorem modTile_force (i : Nat) (f : Tile → Tile) : (modTile i f s).force = s.force := rfl
@[simp] theorem modTile_dirty (i : Nat) (f : Tile → Tile) : (modTile i f s).dirty = s.dirty := rfl
@[simp] theorem modTile_dram (i : Nat) (f : Tile → Tile) : (modTile i f s).dram = s.dram := rfl
@[simp] theorem modTile_dev (i : Nat) (f : Tile → Tile) : (modTile i f s).dev = s.dev := rfl
@[simp] theorem modTile_groups (i : Nat) (f : Tile → Tile) : (modTile i f s).groups = s.groups := rfl
@[simp] theorem modTile_present (i : Nat) (f : Tile → Tile) : (modTile i f s).present = s.present := rfl
@[simp] theorem modTile_damask (i : Nat) (f : Tile → Tile) : (modTile i f s).damask = { s.damask with tiles := tmod dTile s.damask.tiles i f } := rfl
@[simp] theorem modTile_clock (i : Nat) (f : Tile → Tile) : (modTile i f s).clock = s.clock := rfl
@[simp] theorem modTile_links (i : Nat) (f : Tile → Tile) : (modTile i f s).links = s.links := rfl
@[simp] theorem modTile_mod (i : Nat) (f : Tile → Tile) : (modTile i f s).mod = s.mod := rfl
@[simp] theorem modTile_units (i : Nat) (f : Tile → Tile) : (modTile i f s).units = s.units := rfl
@[simp] theorem modTile_gorse (i : Nat) (f : Tile → Tile) : (modTile i f s).gorse = s.gorse := rfl
@[simp] theorem modTile_conv (i : Nat) (f : Tile → Tile) : (modTile i f s).conv = s.conv := rfl
@[simp] theorem modTile_time (i : Nat) (f : Tile → Tile) : (modTile i f s).time = s.time := rfl
@[simp] theorem modTile_eth (i : Nat) (f : Tile → Tile) : (modTile i f s).eth = s.eth := rfl
@[simp] theorem modTile_meas (i : Nat) (f : Tile → Tile) : (modTile i f s).meas = s.meas := rfl
@[simp] theorem modTile_meter (i : Nat) (f : Tile → Tile) : (modTile i f s).meter = s.meter := rfl
@[simp] theorem modTile_bracken (i : Nat) (f : Tile → Tile) : (modTile i f s).bracken = s.bracken := rfl
@[simp] theorem modTile_host (i : Nat) (f : Tile → Tile) : (modTile i f s).host = s.host := rfl
@[simp] theorem modTile_therm (i : Nat) (f : Tile → Tile) : (modTile i f s).therm = s.therm := rfl
@[simp] theorem modTile_power (i : Nat) (f : Tile → Tile) : (modTile i f s).power = s.power := rfl

@[simp] theorem modLink_pending (i : Nat) (f : Link → Link) : (modLink i f s).pending = s.pending := rfl
@[simp] theorem modLink_tick (i : Nat) (f : Link → Link) : (modLink i f s).tick = s.tick := rfl
@[simp] theorem modLink_regs (i : Nat) (f : Link → Link) : (modLink i f s).regs = s.regs := rfl
@[simp] theorem modLink_events (i : Nat) (f : Link → Link) : (modLink i f s).events = s.events := rfl
@[simp] theorem modLink_force (i : Nat) (f : Link → Link) : (modLink i f s).force = s.force := rfl
@[simp] theorem modLink_dirty (i : Nat) (f : Link → Link) : (modLink i f s).dirty = s.dirty := rfl
@[simp] theorem modLink_dram (i : Nat) (f : Link → Link) : (modLink i f s).dram = s.dram := rfl
@[simp] theorem modLink_dev (i : Nat) (f : Link → Link) : (modLink i f s).dev = s.dev := rfl
@[simp] theorem modLink_groups (i : Nat) (f : Link → Link) : (modLink i f s).groups = s.groups := rfl
@[simp] theorem modLink_present (i : Nat) (f : Link → Link) : (modLink i f s).present = s.present := rfl
@[simp] theorem modLink_damask (i : Nat) (f : Link → Link) : (modLink i f s).damask = s.damask := rfl
@[simp] theorem modLink_clock (i : Nat) (f : Link → Link) : (modLink i f s).clock = s.clock := rfl
@[simp] theorem modLink_links (i : Nat) (f : Link → Link) : (modLink i f s).links = tmod dLink s.links i f := rfl
@[simp] theorem modLink_mod (i : Nat) (f : Link → Link) : (modLink i f s).mod = s.mod := rfl
@[simp] theorem modLink_units (i : Nat) (f : Link → Link) : (modLink i f s).units = s.units := rfl
@[simp] theorem modLink_gorse (i : Nat) (f : Link → Link) : (modLink i f s).gorse = s.gorse := rfl
@[simp] theorem modLink_conv (i : Nat) (f : Link → Link) : (modLink i f s).conv = s.conv := rfl
@[simp] theorem modLink_time (i : Nat) (f : Link → Link) : (modLink i f s).time = s.time := rfl
@[simp] theorem modLink_eth (i : Nat) (f : Link → Link) : (modLink i f s).eth = s.eth := rfl
@[simp] theorem modLink_meas (i : Nat) (f : Link → Link) : (modLink i f s).meas = s.meas := rfl
@[simp] theorem modLink_meter (i : Nat) (f : Link → Link) : (modLink i f s).meter = s.meter := rfl
@[simp] theorem modLink_bracken (i : Nat) (f : Link → Link) : (modLink i f s).bracken = s.bracken := rfl
@[simp] theorem modLink_host (i : Nat) (f : Link → Link) : (modLink i f s).host = s.host := rfl
@[simp] theorem modLink_therm (i : Nat) (f : Link → Link) : (modLink i f s).therm = s.therm := rfl
@[simp] theorem modLink_power (i : Nat) (f : Link → Link) : (modLink i f s).power = s.power := rfl

@[simp] theorem modPair_pending (i : Nat) (f : Pair → Pair) : (modPair i f s).pending = s.pending := rfl
@[simp] theorem modPair_tick (i : Nat) (f : Pair → Pair) : (modPair i f s).tick = s.tick := rfl
@[simp] theorem modPair_regs (i : Nat) (f : Pair → Pair) : (modPair i f s).regs = s.regs := rfl
@[simp] theorem modPair_events (i : Nat) (f : Pair → Pair) : (modPair i f s).events = s.events := rfl
@[simp] theorem modPair_force (i : Nat) (f : Pair → Pair) : (modPair i f s).force = s.force := rfl
@[simp] theorem modPair_dirty (i : Nat) (f : Pair → Pair) : (modPair i f s).dirty = s.dirty := rfl
@[simp] theorem modPair_dram (i : Nat) (f : Pair → Pair) : (modPair i f s).dram = s.dram := rfl
@[simp] theorem modPair_dev (i : Nat) (f : Pair → Pair) : (modPair i f s).dev = s.dev := rfl
@[simp] theorem modPair_groups (i : Nat) (f : Pair → Pair) : (modPair i f s).groups = s.groups := rfl
@[simp] theorem modPair_present (i : Nat) (f : Pair → Pair) : (modPair i f s).present = s.present := rfl
@[simp] theorem modPair_damask (i : Nat) (f : Pair → Pair) : (modPair i f s).damask = s.damask := rfl
@[simp] theorem modPair_clock (i : Nat) (f : Pair → Pair) : (modPair i f s).clock = s.clock := rfl
@[simp] theorem modPair_links (i : Nat) (f : Pair → Pair) : (modPair i f s).links = s.links := rfl
@[simp] theorem modPair_mod (i : Nat) (f : Pair → Pair) : (modPair i f s).mod = { s.mod with pairs := tmod dPair s.mod.pairs i f } := rfl
@[simp] theorem modPair_units (i : Nat) (f : Pair → Pair) : (modPair i f s).units = s.units := rfl
@[simp] theorem modPair_gorse (i : Nat) (f : Pair → Pair) : (modPair i f s).gorse = s.gorse := rfl
@[simp] theorem modPair_conv (i : Nat) (f : Pair → Pair) : (modPair i f s).conv = s.conv := rfl
@[simp] theorem modPair_time (i : Nat) (f : Pair → Pair) : (modPair i f s).time = s.time := rfl
@[simp] theorem modPair_eth (i : Nat) (f : Pair → Pair) : (modPair i f s).eth = s.eth := rfl
@[simp] theorem modPair_meas (i : Nat) (f : Pair → Pair) : (modPair i f s).meas = s.meas := rfl
@[simp] theorem modPair_meter (i : Nat) (f : Pair → Pair) : (modPair i f s).meter = s.meter := rfl
@[simp] theorem modPair_bracken (i : Nat) (f : Pair → Pair) : (modPair i f s).bracken = s.bracken := rfl
@[simp] theorem modPair_host (i : Nat) (f : Pair → Pair) : (modPair i f s).host = s.host := rfl
@[simp] theorem modPair_therm (i : Nat) (f : Pair → Pair) : (modPair i f s).therm = s.therm := rfl
@[simp] theorem modPair_power (i : Nat) (f : Pair → Pair) : (modPair i f s).power = s.power := rfl

@[simp] theorem modVCell_pending (i : Nat) (f : VCell → VCell) : (modVCell i f s).pending = s.pending := rfl
@[simp] theorem modVCell_tick (i : Nat) (f : VCell → VCell) : (modVCell i f s).tick = s.tick := rfl
@[simp] theorem modVCell_regs (i : Nat) (f : VCell → VCell) : (modVCell i f s).regs = s.regs := rfl
@[simp] theorem modVCell_events (i : Nat) (f : VCell → VCell) : (modVCell i f s).events = s.events := rfl
@[simp] theorem modVCell_force (i : Nat) (f : VCell → VCell) : (modVCell i f s).force = s.force := rfl
@[simp] theorem modVCell_dirty (i : Nat) (f : VCell → VCell) : (modVCell i f s).dirty = s.dirty := rfl
@[simp] theorem modVCell_dram (i : Nat) (f : VCell → VCell) : (modVCell i f s).dram = s.dram := rfl
@[simp] theorem modVCell_dev (i : Nat) (f : VCell → VCell) : (modVCell i f s).dev = s.dev := rfl
@[simp] theorem modVCell_groups (i : Nat) (f : VCell → VCell) : (modVCell i f s).groups = s.groups := rfl
@[simp] theorem modVCell_present (i : Nat) (f : VCell → VCell) : (modVCell i f s).present = s.present := rfl
@[simp] theorem modVCell_damask (i : Nat) (f : VCell → VCell) : (modVCell i f s).damask = s.damask := rfl
@[simp] theorem modVCell_clock (i : Nat) (f : VCell → VCell) : (modVCell i f s).clock = s.clock := rfl
@[simp] theorem modVCell_links (i : Nat) (f : VCell → VCell) : (modVCell i f s).links = s.links := rfl
@[simp] theorem modVCell_mod (i : Nat) (f : VCell → VCell) : (modVCell i f s).mod = { s.mod with cells := tmod dVCell s.mod.cells i f } := rfl
@[simp] theorem modVCell_units (i : Nat) (f : VCell → VCell) : (modVCell i f s).units = s.units := rfl
@[simp] theorem modVCell_gorse (i : Nat) (f : VCell → VCell) : (modVCell i f s).gorse = s.gorse := rfl
@[simp] theorem modVCell_conv (i : Nat) (f : VCell → VCell) : (modVCell i f s).conv = s.conv := rfl
@[simp] theorem modVCell_time (i : Nat) (f : VCell → VCell) : (modVCell i f s).time = s.time := rfl
@[simp] theorem modVCell_eth (i : Nat) (f : VCell → VCell) : (modVCell i f s).eth = s.eth := rfl
@[simp] theorem modVCell_meas (i : Nat) (f : VCell → VCell) : (modVCell i f s).meas = s.meas := rfl
@[simp] theorem modVCell_meter (i : Nat) (f : VCell → VCell) : (modVCell i f s).meter = s.meter := rfl
@[simp] theorem modVCell_bracken (i : Nat) (f : VCell → VCell) : (modVCell i f s).bracken = s.bracken := rfl
@[simp] theorem modVCell_host (i : Nat) (f : VCell → VCell) : (modVCell i f s).host = s.host := rfl
@[simp] theorem modVCell_therm (i : Nat) (f : VCell → VCell) : (modVCell i f s).therm = s.therm := rfl
@[simp] theorem modVCell_power (i : Nat) (f : VCell → VCell) : (modVCell i f s).power = s.power := rfl

@[simp] theorem modUnit_pending (i : Nat) (f : MUnit → MUnit) : (modUnit i f s).pending = s.pending := rfl
@[simp] theorem modUnit_tick (i : Nat) (f : MUnit → MUnit) : (modUnit i f s).tick = s.tick := rfl
@[simp] theorem modUnit_regs (i : Nat) (f : MUnit → MUnit) : (modUnit i f s).regs = s.regs := rfl
@[simp] theorem modUnit_events (i : Nat) (f : MUnit → MUnit) : (modUnit i f s).events = s.events := rfl
@[simp] theorem modUnit_force (i : Nat) (f : MUnit → MUnit) : (modUnit i f s).force = s.force := rfl
@[simp] theorem modUnit_dirty (i : Nat) (f : MUnit → MUnit) : (modUnit i f s).dirty = s.dirty := rfl
@[simp] theorem modUnit_dram (i : Nat) (f : MUnit → MUnit) : (modUnit i f s).dram = s.dram := rfl
@[simp] theorem modUnit_dev (i : Nat) (f : MUnit → MUnit) : (modUnit i f s).dev = s.dev := rfl
@[simp] theorem modUnit_groups (i : Nat) (f : MUnit → MUnit) : (modUnit i f s).groups = s.groups := rfl
@[simp] theorem modUnit_present (i : Nat) (f : MUnit → MUnit) : (modUnit i f s).present = s.present := rfl
@[simp] theorem modUnit_damask (i : Nat) (f : MUnit → MUnit) : (modUnit i f s).damask = s.damask := rfl
@[simp] theorem modUnit_clock (i : Nat) (f : MUnit → MUnit) : (modUnit i f s).clock = s.clock := rfl
@[simp] theorem modUnit_links (i : Nat) (f : MUnit → MUnit) : (modUnit i f s).links = s.links := rfl
@[simp] theorem modUnit_mod (i : Nat) (f : MUnit → MUnit) : (modUnit i f s).mod = s.mod := rfl
@[simp] theorem modUnit_units (i : Nat) (f : MUnit → MUnit) : (modUnit i f s).units = tmod dUnit s.units i f := rfl
@[simp] theorem modUnit_gorse (i : Nat) (f : MUnit → MUnit) : (modUnit i f s).gorse = s.gorse := rfl
@[simp] theorem modUnit_conv (i : Nat) (f : MUnit → MUnit) : (modUnit i f s).conv = s.conv := rfl
@[simp] theorem modUnit_time (i : Nat) (f : MUnit → MUnit) : (modUnit i f s).time = s.time := rfl
@[simp] theorem modUnit_eth (i : Nat) (f : MUnit → MUnit) : (modUnit i f s).eth = s.eth := rfl
@[simp] theorem modUnit_meas (i : Nat) (f : MUnit → MUnit) : (modUnit i f s).meas = s.meas := rfl
@[simp] theorem modUnit_meter (i : Nat) (f : MUnit → MUnit) : (modUnit i f s).meter = s.meter := rfl
@[simp] theorem modUnit_bracken (i : Nat) (f : MUnit → MUnit) : (modUnit i f s).bracken = s.bracken := rfl
@[simp] theorem modUnit_host (i : Nat) (f : MUnit → MUnit) : (modUnit i f s).host = s.host := rfl
@[simp] theorem modUnit_therm (i : Nat) (f : MUnit → MUnit) : (modUnit i f s).therm = s.therm := rfl
@[simp] theorem modUnit_power (i : Nat) (f : MUnit → MUnit) : (modUnit i f s).power = s.power := rfl

@[simp] theorem modCmp_pending (i : Nat) (f : Cmp → Cmp) : (modCmp i f s).pending = s.pending := rfl
@[simp] theorem modCmp_tick (i : Nat) (f : Cmp → Cmp) : (modCmp i f s).tick = s.tick := rfl
@[simp] theorem modCmp_regs (i : Nat) (f : Cmp → Cmp) : (modCmp i f s).regs = s.regs := rfl
@[simp] theorem modCmp_events (i : Nat) (f : Cmp → Cmp) : (modCmp i f s).events = s.events := rfl
@[simp] theorem modCmp_force (i : Nat) (f : Cmp → Cmp) : (modCmp i f s).force = s.force := rfl
@[simp] theorem modCmp_dirty (i : Nat) (f : Cmp → Cmp) : (modCmp i f s).dirty = s.dirty := rfl
@[simp] theorem modCmp_dram (i : Nat) (f : Cmp → Cmp) : (modCmp i f s).dram = s.dram := rfl
@[simp] theorem modCmp_dev (i : Nat) (f : Cmp → Cmp) : (modCmp i f s).dev = s.dev := rfl
@[simp] theorem modCmp_groups (i : Nat) (f : Cmp → Cmp) : (modCmp i f s).groups = s.groups := rfl
@[simp] theorem modCmp_present (i : Nat) (f : Cmp → Cmp) : (modCmp i f s).present = s.present := rfl
@[simp] theorem modCmp_damask (i : Nat) (f : Cmp → Cmp) : (modCmp i f s).damask = s.damask := rfl
@[simp] theorem modCmp_clock (i : Nat) (f : Cmp → Cmp) : (modCmp i f s).clock = s.clock := rfl
@[simp] theorem modCmp_links (i : Nat) (f : Cmp → Cmp) : (modCmp i f s).links = s.links := rfl
@[simp] theorem modCmp_mod (i : Nat) (f : Cmp → Cmp) : (modCmp i f s).mod = s.mod := rfl
@[simp] theorem modCmp_units (i : Nat) (f : Cmp → Cmp) : (modCmp i f s).units = s.units := rfl
@[simp] theorem modCmp_gorse (i : Nat) (f : Cmp → Cmp) : (modCmp i f s).gorse = s.gorse := rfl
@[simp] theorem modCmp_conv (i : Nat) (f : Cmp → Cmp) : (modCmp i f s).conv = { s.conv with cmps := tmod dCmp s.conv.cmps i f } := rfl
@[simp] theorem modCmp_time (i : Nat) (f : Cmp → Cmp) : (modCmp i f s).time = s.time := rfl
@[simp] theorem modCmp_eth (i : Nat) (f : Cmp → Cmp) : (modCmp i f s).eth = s.eth := rfl
@[simp] theorem modCmp_meas (i : Nat) (f : Cmp → Cmp) : (modCmp i f s).meas = s.meas := rfl
@[simp] theorem modCmp_meter (i : Nat) (f : Cmp → Cmp) : (modCmp i f s).meter = s.meter := rfl
@[simp] theorem modCmp_bracken (i : Nat) (f : Cmp → Cmp) : (modCmp i f s).bracken = s.bracken := rfl
@[simp] theorem modCmp_host (i : Nat) (f : Cmp → Cmp) : (modCmp i f s).host = s.host := rfl
@[simp] theorem modCmp_therm (i : Nat) (f : Cmp → Cmp) : (modCmp i f s).therm = s.therm := rfl
@[simp] theorem modCmp_power (i : Nat) (f : Cmp → Cmp) : (modCmp i f s).power = s.power := rfl

@[simp] theorem modSlot_pending (i : Nat) (f : Slot → Slot) : (modSlot i f s).pending = s.pending := rfl
@[simp] theorem modSlot_tick (i : Nat) (f : Slot → Slot) : (modSlot i f s).tick = s.tick := rfl
@[simp] theorem modSlot_regs (i : Nat) (f : Slot → Slot) : (modSlot i f s).regs = s.regs := rfl
@[simp] theorem modSlot_events (i : Nat) (f : Slot → Slot) : (modSlot i f s).events = s.events := rfl
@[simp] theorem modSlot_force (i : Nat) (f : Slot → Slot) : (modSlot i f s).force = s.force := rfl
@[simp] theorem modSlot_dirty (i : Nat) (f : Slot → Slot) : (modSlot i f s).dirty = s.dirty := rfl
@[simp] theorem modSlot_dram (i : Nat) (f : Slot → Slot) : (modSlot i f s).dram = s.dram := rfl
@[simp] theorem modSlot_dev (i : Nat) (f : Slot → Slot) : (modSlot i f s).dev = s.dev := rfl
@[simp] theorem modSlot_groups (i : Nat) (f : Slot → Slot) : (modSlot i f s).groups = s.groups := rfl
@[simp] theorem modSlot_present (i : Nat) (f : Slot → Slot) : (modSlot i f s).present = s.present := rfl
@[simp] theorem modSlot_damask (i : Nat) (f : Slot → Slot) : (modSlot i f s).damask = s.damask := rfl
@[simp] theorem modSlot_clock (i : Nat) (f : Slot → Slot) : (modSlot i f s).clock = s.clock := rfl
@[simp] theorem modSlot_links (i : Nat) (f : Slot → Slot) : (modSlot i f s).links = s.links := rfl
@[simp] theorem modSlot_mod (i : Nat) (f : Slot → Slot) : (modSlot i f s).mod = s.mod := rfl
@[simp] theorem modSlot_units (i : Nat) (f : Slot → Slot) : (modSlot i f s).units = s.units := rfl
@[simp] theorem modSlot_gorse (i : Nat) (f : Slot → Slot) : (modSlot i f s).gorse = s.gorse := rfl
@[simp] theorem modSlot_conv (i : Nat) (f : Slot → Slot) : (modSlot i f s).conv = s.conv := rfl
@[simp] theorem modSlot_time (i : Nat) (f : Slot → Slot) : (modSlot i f s).time = s.time := rfl
@[simp] theorem modSlot_eth (i : Nat) (f : Slot → Slot) : (modSlot i f s).eth = s.eth := rfl
@[simp] theorem modSlot_meas (i : Nat) (f : Slot → Slot) : (modSlot i f s).meas = s.meas := rfl
@[simp] theorem modSlot_meter (i : Nat) (f : Slot → Slot) : (modSlot i f s).meter = s.meter := rfl
@[simp] theorem modSlot_bracken (i : Nat) (f : Slot → Slot) : (modSlot i f s).bracken = s.bracken := rfl
@[simp] theorem modSlot_host (i : Nat) (f : Slot → Slot) : (modSlot i f s).host = { s.host with slots := tmod dSlot s.host.slots i f } := rfl
@[simp] theorem modSlot_therm (i : Nat) (f : Slot → Slot) : (modSlot i f s).therm = s.therm := rfl
@[simp] theorem modSlot_power (i : Nat) (f : Slot → Slot) : (modSlot i f s).power = s.power := rfl

@[simp] theorem modHist_pending (i : Nat) (f : Hist → Hist) : (modHist i f s).pending = s.pending := rfl
@[simp] theorem modHist_tick (i : Nat) (f : Hist → Hist) : (modHist i f s).tick = s.tick := rfl
@[simp] theorem modHist_regs (i : Nat) (f : Hist → Hist) : (modHist i f s).regs = s.regs := rfl
@[simp] theorem modHist_events (i : Nat) (f : Hist → Hist) : (modHist i f s).events = s.events := rfl
@[simp] theorem modHist_force (i : Nat) (f : Hist → Hist) : (modHist i f s).force = s.force := rfl
@[simp] theorem modHist_dirty (i : Nat) (f : Hist → Hist) : (modHist i f s).dirty = s.dirty := rfl
@[simp] theorem modHist_dram (i : Nat) (f : Hist → Hist) : (modHist i f s).dram = s.dram := rfl
@[simp] theorem modHist_dev (i : Nat) (f : Hist → Hist) : (modHist i f s).dev = s.dev := rfl
@[simp] theorem modHist_groups (i : Nat) (f : Hist → Hist) : (modHist i f s).groups = s.groups := rfl
@[simp] theorem modHist_present (i : Nat) (f : Hist → Hist) : (modHist i f s).present = s.present := rfl
@[simp] theorem modHist_damask (i : Nat) (f : Hist → Hist) : (modHist i f s).damask = s.damask := rfl
@[simp] theorem modHist_clock (i : Nat) (f : Hist → Hist) : (modHist i f s).clock = s.clock := rfl
@[simp] theorem modHist_links (i : Nat) (f : Hist → Hist) : (modHist i f s).links = s.links := rfl
@[simp] theorem modHist_mod (i : Nat) (f : Hist → Hist) : (modHist i f s).mod = s.mod := rfl
@[simp] theorem modHist_units (i : Nat) (f : Hist → Hist) : (modHist i f s).units = s.units := rfl
@[simp] theorem modHist_gorse (i : Nat) (f : Hist → Hist) : (modHist i f s).gorse = s.gorse := rfl
@[simp] theorem modHist_conv (i : Nat) (f : Hist → Hist) : (modHist i f s).conv = s.conv := rfl
@[simp] theorem modHist_time (i : Nat) (f : Hist → Hist) : (modHist i f s).time = s.time := rfl
@[simp] theorem modHist_eth (i : Nat) (f : Hist → Hist) : (modHist i f s).eth = s.eth := rfl
@[simp] theorem modHist_meas (i : Nat) (f : Hist → Hist) : (modHist i f s).meas = s.meas := rfl
@[simp] theorem modHist_meter (i : Nat) (f : Hist → Hist) : (modHist i f s).meter = s.meter := rfl
@[simp] theorem modHist_bracken (i : Nat) (f : Hist → Hist) : (modHist i f s).bracken = s.bracken := rfl
@[simp] theorem modHist_host (i : Nat) (f : Hist → Hist) : (modHist i f s).host = s.host := rfl
@[simp] theorem modHist_therm (i : Nat) (f : Hist → Hist) : (modHist i f s).therm = { s.therm with hists := tmod dHist s.therm.hists i f } := rfl
@[simp] theorem modHist_power (i : Nat) (f : Hist → Hist) : (modHist i f s).power = s.power := rfl

@[simp] theorem modChan_pending (i : Nat) (f : TsChan → TsChan) : (modChan i f s).pending = s.pending := rfl
@[simp] theorem modChan_tick (i : Nat) (f : TsChan → TsChan) : (modChan i f s).tick = s.tick := rfl
@[simp] theorem modChan_regs (i : Nat) (f : TsChan → TsChan) : (modChan i f s).regs = s.regs := rfl
@[simp] theorem modChan_events (i : Nat) (f : TsChan → TsChan) : (modChan i f s).events = s.events := rfl
@[simp] theorem modChan_force (i : Nat) (f : TsChan → TsChan) : (modChan i f s).force = s.force := rfl
@[simp] theorem modChan_dirty (i : Nat) (f : TsChan → TsChan) : (modChan i f s).dirty = s.dirty := rfl
@[simp] theorem modChan_dram (i : Nat) (f : TsChan → TsChan) : (modChan i f s).dram = s.dram := rfl
@[simp] theorem modChan_dev (i : Nat) (f : TsChan → TsChan) : (modChan i f s).dev = s.dev := rfl
@[simp] theorem modChan_groups (i : Nat) (f : TsChan → TsChan) : (modChan i f s).groups = s.groups := rfl
@[simp] theorem modChan_present (i : Nat) (f : TsChan → TsChan) : (modChan i f s).present = s.present := rfl
@[simp] theorem modChan_damask (i : Nat) (f : TsChan → TsChan) : (modChan i f s).damask = s.damask := rfl
@[simp] theorem modChan_clock (i : Nat) (f : TsChan → TsChan) : (modChan i f s).clock = s.clock := rfl
@[simp] theorem modChan_links (i : Nat) (f : TsChan → TsChan) : (modChan i f s).links = s.links := rfl
@[simp] theorem modChan_mod (i : Nat) (f : TsChan → TsChan) : (modChan i f s).mod = s.mod := rfl
@[simp] theorem modChan_units (i : Nat) (f : TsChan → TsChan) : (modChan i f s).units = s.units := rfl
@[simp] theorem modChan_gorse (i : Nat) (f : TsChan → TsChan) : (modChan i f s).gorse = s.gorse := rfl
@[simp] theorem modChan_conv (i : Nat) (f : TsChan → TsChan) : (modChan i f s).conv = s.conv := rfl
@[simp] theorem modChan_time (i : Nat) (f : TsChan → TsChan) : (modChan i f s).time = s.time := rfl
@[simp] theorem modChan_eth (i : Nat) (f : TsChan → TsChan) : (modChan i f s).eth = s.eth := rfl
@[simp] theorem modChan_meas (i : Nat) (f : TsChan → TsChan) : (modChan i f s).meas = s.meas := rfl
@[simp] theorem modChan_meter (i : Nat) (f : TsChan → TsChan) : (modChan i f s).meter = s.meter := rfl
@[simp] theorem modChan_bracken (i : Nat) (f : TsChan → TsChan) : (modChan i f s).bracken = s.bracken := rfl
@[simp] theorem modChan_host (i : Nat) (f : TsChan → TsChan) : (modChan i f s).host = s.host := rfl
@[simp] theorem modChan_therm (i : Nat) (f : TsChan → TsChan) : (modChan i f s).therm = { s.therm with chans := tmod dChan s.therm.chans i f } := rfl
@[simp] theorem modChan_power (i : Nat) (f : TsChan → TsChan) : (modChan i f s).power = s.power := rfl

@[simp] theorem modDamask_pending (f : Damask → Damask) : (modDamask f s).pending = s.pending := rfl
@[simp] theorem modDamask_tick (f : Damask → Damask) : (modDamask f s).tick = s.tick := rfl
@[simp] theorem modDamask_regs (f : Damask → Damask) : (modDamask f s).regs = s.regs := rfl
@[simp] theorem modDamask_events (f : Damask → Damask) : (modDamask f s).events = s.events := rfl
@[simp] theorem modDamask_force (f : Damask → Damask) : (modDamask f s).force = s.force := rfl
@[simp] theorem modDamask_dirty (f : Damask → Damask) : (modDamask f s).dirty = s.dirty := rfl
@[simp] theorem modDamask_dram (f : Damask → Damask) : (modDamask f s).dram = s.dram := rfl
@[simp] theorem modDamask_dev (f : Damask → Damask) : (modDamask f s).dev = s.dev := rfl
@[simp] theorem modDamask_groups (f : Damask → Damask) : (modDamask f s).groups = s.groups := rfl
@[simp] theorem modDamask_present (f : Damask → Damask) : (modDamask f s).present = s.present := rfl
@[simp] theorem modDamask_damask (f : Damask → Damask) : (modDamask f s).damask = f s.damask := rfl
@[simp] theorem modDamask_clock (f : Damask → Damask) : (modDamask f s).clock = s.clock := rfl
@[simp] theorem modDamask_links (f : Damask → Damask) : (modDamask f s).links = s.links := rfl
@[simp] theorem modDamask_mod (f : Damask → Damask) : (modDamask f s).mod = s.mod := rfl
@[simp] theorem modDamask_units (f : Damask → Damask) : (modDamask f s).units = s.units := rfl
@[simp] theorem modDamask_gorse (f : Damask → Damask) : (modDamask f s).gorse = s.gorse := rfl
@[simp] theorem modDamask_conv (f : Damask → Damask) : (modDamask f s).conv = s.conv := rfl
@[simp] theorem modDamask_time (f : Damask → Damask) : (modDamask f s).time = s.time := rfl
@[simp] theorem modDamask_eth (f : Damask → Damask) : (modDamask f s).eth = s.eth := rfl
@[simp] theorem modDamask_meas (f : Damask → Damask) : (modDamask f s).meas = s.meas := rfl
@[simp] theorem modDamask_meter (f : Damask → Damask) : (modDamask f s).meter = s.meter := rfl
@[simp] theorem modDamask_bracken (f : Damask → Damask) : (modDamask f s).bracken = s.bracken := rfl
@[simp] theorem modDamask_host (f : Damask → Damask) : (modDamask f s).host = s.host := rfl
@[simp] theorem modDamask_therm (f : Damask → Damask) : (modDamask f s).therm = s.therm := rfl
@[simp] theorem modDamask_power (f : Damask → Damask) : (modDamask f s).power = s.power := rfl

@[simp] theorem modClock_pending (f : Clock → Clock) : (modClock f s).pending = s.pending := rfl
@[simp] theorem modClock_tick (f : Clock → Clock) : (modClock f s).tick = s.tick := rfl
@[simp] theorem modClock_regs (f : Clock → Clock) : (modClock f s).regs = s.regs := rfl
@[simp] theorem modClock_events (f : Clock → Clock) : (modClock f s).events = s.events := rfl
@[simp] theorem modClock_force (f : Clock → Clock) : (modClock f s).force = s.force := rfl
@[simp] theorem modClock_dirty (f : Clock → Clock) : (modClock f s).dirty = s.dirty := rfl
@[simp] theorem modClock_dram (f : Clock → Clock) : (modClock f s).dram = s.dram := rfl
@[simp] theorem modClock_dev (f : Clock → Clock) : (modClock f s).dev = s.dev := rfl
@[simp] theorem modClock_groups (f : Clock → Clock) : (modClock f s).groups = s.groups := rfl
@[simp] theorem modClock_present (f : Clock → Clock) : (modClock f s).present = s.present := rfl
@[simp] theorem modClock_damask (f : Clock → Clock) : (modClock f s).damask = s.damask := rfl
@[simp] theorem modClock_clock (f : Clock → Clock) : (modClock f s).clock = f s.clock := rfl
@[simp] theorem modClock_links (f : Clock → Clock) : (modClock f s).links = s.links := rfl
@[simp] theorem modClock_mod (f : Clock → Clock) : (modClock f s).mod = s.mod := rfl
@[simp] theorem modClock_units (f : Clock → Clock) : (modClock f s).units = s.units := rfl
@[simp] theorem modClock_gorse (f : Clock → Clock) : (modClock f s).gorse = s.gorse := rfl
@[simp] theorem modClock_conv (f : Clock → Clock) : (modClock f s).conv = s.conv := rfl
@[simp] theorem modClock_time (f : Clock → Clock) : (modClock f s).time = s.time := rfl
@[simp] theorem modClock_eth (f : Clock → Clock) : (modClock f s).eth = s.eth := rfl
@[simp] theorem modClock_meas (f : Clock → Clock) : (modClock f s).meas = s.meas := rfl
@[simp] theorem modClock_meter (f : Clock → Clock) : (modClock f s).meter = s.meter := rfl
@[simp] theorem modClock_bracken (f : Clock → Clock) : (modClock f s).bracken = s.bracken := rfl
@[simp] theorem modClock_host (f : Clock → Clock) : (modClock f s).host = s.host := rfl
@[simp] theorem modClock_therm (f : Clock → Clock) : (modClock f s).therm = s.therm := rfl
@[simp] theorem modClock_power (f : Clock → Clock) : (modClock f s).power = s.power := rfl

@[simp] theorem modMod_pending (f : Mod → Mod) : (modMod f s).pending = s.pending := rfl
@[simp] theorem modMod_tick (f : Mod → Mod) : (modMod f s).tick = s.tick := rfl
@[simp] theorem modMod_regs (f : Mod → Mod) : (modMod f s).regs = s.regs := rfl
@[simp] theorem modMod_events (f : Mod → Mod) : (modMod f s).events = s.events := rfl
@[simp] theorem modMod_force (f : Mod → Mod) : (modMod f s).force = s.force := rfl
@[simp] theorem modMod_dirty (f : Mod → Mod) : (modMod f s).dirty = s.dirty := rfl
@[simp] theorem modMod_dram (f : Mod → Mod) : (modMod f s).dram = s.dram := rfl
@[simp] theorem modMod_dev (f : Mod → Mod) : (modMod f s).dev = s.dev := rfl
@[simp] theorem modMod_groups (f : Mod → Mod) : (modMod f s).groups = s.groups := rfl
@[simp] theorem modMod_present (f : Mod → Mod) : (modMod f s).present = s.present := rfl
@[simp] theorem modMod_damask (f : Mod → Mod) : (modMod f s).damask = s.damask := rfl
@[simp] theorem modMod_clock (f : Mod → Mod) : (modMod f s).clock = s.clock := rfl
@[simp] theorem modMod_links (f : Mod → Mod) : (modMod f s).links = s.links := rfl
@[simp] theorem modMod_mod (f : Mod → Mod) : (modMod f s).mod = f s.mod := rfl
@[simp] theorem modMod_units (f : Mod → Mod) : (modMod f s).units = s.units := rfl
@[simp] theorem modMod_gorse (f : Mod → Mod) : (modMod f s).gorse = s.gorse := rfl
@[simp] theorem modMod_conv (f : Mod → Mod) : (modMod f s).conv = s.conv := rfl
@[simp] theorem modMod_time (f : Mod → Mod) : (modMod f s).time = s.time := rfl
@[simp] theorem modMod_eth (f : Mod → Mod) : (modMod f s).eth = s.eth := rfl
@[simp] theorem modMod_meas (f : Mod → Mod) : (modMod f s).meas = s.meas := rfl
@[simp] theorem modMod_meter (f : Mod → Mod) : (modMod f s).meter = s.meter := rfl
@[simp] theorem modMod_bracken (f : Mod → Mod) : (modMod f s).bracken = s.bracken := rfl
@[simp] theorem modMod_host (f : Mod → Mod) : (modMod f s).host = s.host := rfl
@[simp] theorem modMod_therm (f : Mod → Mod) : (modMod f s).therm = s.therm := rfl
@[simp] theorem modMod_power (f : Mod → Mod) : (modMod f s).power = s.power := rfl

@[simp] theorem modGorse_pending (f : Gorse → Gorse) : (modGorse f s).pending = s.pending := rfl
@[simp] theorem modGorse_tick (f : Gorse → Gorse) : (modGorse f s).tick = s.tick := rfl
@[simp] theorem modGorse_regs (f : Gorse → Gorse) : (modGorse f s).regs = s.regs := rfl
@[simp] theorem modGorse_events (f : Gorse → Gorse) : (modGorse f s).events = s.events := rfl
@[simp] theorem modGorse_force (f : Gorse → Gorse) : (modGorse f s).force = s.force := rfl
@[simp] theorem modGorse_dirty (f : Gorse → Gorse) : (modGorse f s).dirty = s.dirty := rfl
@[simp] theorem modGorse_dram (f : Gorse → Gorse) : (modGorse f s).dram = s.dram := rfl
@[simp] theorem modGorse_dev (f : Gorse → Gorse) : (modGorse f s).dev = s.dev := rfl
@[simp] theorem modGorse_groups (f : Gorse → Gorse) : (modGorse f s).groups = s.groups := rfl
@[simp] theorem modGorse_present (f : Gorse → Gorse) : (modGorse f s).present = s.present := rfl
@[simp] theorem modGorse_damask (f : Gorse → Gorse) : (modGorse f s).damask = s.damask := rfl
@[simp] theorem modGorse_clock (f : Gorse → Gorse) : (modGorse f s).clock = s.clock := rfl
@[simp] theorem modGorse_links (f : Gorse → Gorse) : (modGorse f s).links = s.links := rfl
@[simp] theorem modGorse_mod (f : Gorse → Gorse) : (modGorse f s).mod = s.mod := rfl
@[simp] theorem modGorse_units (f : Gorse → Gorse) : (modGorse f s).units = s.units := rfl
@[simp] theorem modGorse_gorse (f : Gorse → Gorse) : (modGorse f s).gorse = f s.gorse := rfl
@[simp] theorem modGorse_conv (f : Gorse → Gorse) : (modGorse f s).conv = s.conv := rfl
@[simp] theorem modGorse_time (f : Gorse → Gorse) : (modGorse f s).time = s.time := rfl
@[simp] theorem modGorse_eth (f : Gorse → Gorse) : (modGorse f s).eth = s.eth := rfl
@[simp] theorem modGorse_meas (f : Gorse → Gorse) : (modGorse f s).meas = s.meas := rfl
@[simp] theorem modGorse_meter (f : Gorse → Gorse) : (modGorse f s).meter = s.meter := rfl
@[simp] theorem modGorse_bracken (f : Gorse → Gorse) : (modGorse f s).bracken = s.bracken := rfl
@[simp] theorem modGorse_host (f : Gorse → Gorse) : (modGorse f s).host = s.host := rfl
@[simp] theorem modGorse_therm (f : Gorse → Gorse) : (modGorse f s).therm = s.therm := rfl
@[simp] theorem modGorse_power (f : Gorse → Gorse) : (modGorse f s).power = s.power := rfl

@[simp] theorem modConv_pending (f : Conv → Conv) : (modConv f s).pending = s.pending := rfl
@[simp] theorem modConv_tick (f : Conv → Conv) : (modConv f s).tick = s.tick := rfl
@[simp] theorem modConv_regs (f : Conv → Conv) : (modConv f s).regs = s.regs := rfl
@[simp] theorem modConv_events (f : Conv → Conv) : (modConv f s).events = s.events := rfl
@[simp] theorem modConv_force (f : Conv → Conv) : (modConv f s).force = s.force := rfl
@[simp] theorem modConv_dirty (f : Conv → Conv) : (modConv f s).dirty = s.dirty := rfl
@[simp] theorem modConv_dram (f : Conv → Conv) : (modConv f s).dram = s.dram := rfl
@[simp] theorem modConv_dev (f : Conv → Conv) : (modConv f s).dev = s.dev := rfl
@[simp] theorem modConv_groups (f : Conv → Conv) : (modConv f s).groups = s.groups := rfl
@[simp] theorem modConv_present (f : Conv → Conv) : (modConv f s).present = s.present := rfl
@[simp] theorem modConv_damask (f : Conv → Conv) : (modConv f s).damask = s.damask := rfl
@[simp] theorem modConv_clock (f : Conv → Conv) : (modConv f s).clock = s.clock := rfl
@[simp] theorem modConv_links (f : Conv → Conv) : (modConv f s).links = s.links := rfl
@[simp] theorem modConv_mod (f : Conv → Conv) : (modConv f s).mod = s.mod := rfl
@[simp] theorem modConv_units (f : Conv → Conv) : (modConv f s).units = s.units := rfl
@[simp] theorem modConv_gorse (f : Conv → Conv) : (modConv f s).gorse = s.gorse := rfl
@[simp] theorem modConv_conv (f : Conv → Conv) : (modConv f s).conv = f s.conv := rfl
@[simp] theorem modConv_time (f : Conv → Conv) : (modConv f s).time = s.time := rfl
@[simp] theorem modConv_eth (f : Conv → Conv) : (modConv f s).eth = s.eth := rfl
@[simp] theorem modConv_meas (f : Conv → Conv) : (modConv f s).meas = s.meas := rfl
@[simp] theorem modConv_meter (f : Conv → Conv) : (modConv f s).meter = s.meter := rfl
@[simp] theorem modConv_bracken (f : Conv → Conv) : (modConv f s).bracken = s.bracken := rfl
@[simp] theorem modConv_host (f : Conv → Conv) : (modConv f s).host = s.host := rfl
@[simp] theorem modConv_therm (f : Conv → Conv) : (modConv f s).therm = s.therm := rfl
@[simp] theorem modConv_power (f : Conv → Conv) : (modConv f s).power = s.power := rfl

@[simp] theorem modTime_pending (f : TimeEng → TimeEng) : (modTime f s).pending = s.pending := rfl
@[simp] theorem modTime_tick (f : TimeEng → TimeEng) : (modTime f s).tick = s.tick := rfl
@[simp] theorem modTime_regs (f : TimeEng → TimeEng) : (modTime f s).regs = s.regs := rfl
@[simp] theorem modTime_events (f : TimeEng → TimeEng) : (modTime f s).events = s.events := rfl
@[simp] theorem modTime_force (f : TimeEng → TimeEng) : (modTime f s).force = s.force := rfl
@[simp] theorem modTime_dirty (f : TimeEng → TimeEng) : (modTime f s).dirty = s.dirty := rfl
@[simp] theorem modTime_dram (f : TimeEng → TimeEng) : (modTime f s).dram = s.dram := rfl
@[simp] theorem modTime_dev (f : TimeEng → TimeEng) : (modTime f s).dev = s.dev := rfl
@[simp] theorem modTime_groups (f : TimeEng → TimeEng) : (modTime f s).groups = s.groups := rfl
@[simp] theorem modTime_present (f : TimeEng → TimeEng) : (modTime f s).present = s.present := rfl
@[simp] theorem modTime_damask (f : TimeEng → TimeEng) : (modTime f s).damask = s.damask := rfl
@[simp] theorem modTime_clock (f : TimeEng → TimeEng) : (modTime f s).clock = s.clock := rfl
@[simp] theorem modTime_links (f : TimeEng → TimeEng) : (modTime f s).links = s.links := rfl
@[simp] theorem modTime_mod (f : TimeEng → TimeEng) : (modTime f s).mod = s.mod := rfl
@[simp] theorem modTime_units (f : TimeEng → TimeEng) : (modTime f s).units = s.units := rfl
@[simp] theorem modTime_gorse (f : TimeEng → TimeEng) : (modTime f s).gorse = s.gorse := rfl
@[simp] theorem modTime_conv (f : TimeEng → TimeEng) : (modTime f s).conv = s.conv := rfl
@[simp] theorem modTime_time (f : TimeEng → TimeEng) : (modTime f s).time = f s.time := rfl
@[simp] theorem modTime_eth (f : TimeEng → TimeEng) : (modTime f s).eth = s.eth := rfl
@[simp] theorem modTime_meas (f : TimeEng → TimeEng) : (modTime f s).meas = s.meas := rfl
@[simp] theorem modTime_meter (f : TimeEng → TimeEng) : (modTime f s).meter = s.meter := rfl
@[simp] theorem modTime_bracken (f : TimeEng → TimeEng) : (modTime f s).bracken = s.bracken := rfl
@[simp] theorem modTime_host (f : TimeEng → TimeEng) : (modTime f s).host = s.host := rfl
@[simp] theorem modTime_therm (f : TimeEng → TimeEng) : (modTime f s).therm = s.therm := rfl
@[simp] theorem modTime_power (f : TimeEng → TimeEng) : (modTime f s).power = s.power := rfl

@[simp] theorem modEth_pending (f : Eth → Eth) : (modEth f s).pending = s.pending := rfl
@[simp] theorem modEth_tick (f : Eth → Eth) : (modEth f s).tick = s.tick := rfl
@[simp] theorem modEth_regs (f : Eth → Eth) : (modEth f s).regs = s.regs := rfl
@[simp] theorem modEth_events (f : Eth → Eth) : (modEth f s).events = s.events := rfl
@[simp] theorem modEth_force (f : Eth → Eth) : (modEth f s).force = s.force := rfl
@[simp] theorem modEth_dirty (f : Eth → Eth) : (modEth f s).dirty = s.dirty := rfl
@[simp] theorem modEth_dram (f : Eth → Eth) : (modEth f s).dram = s.dram := rfl
@[simp] theorem modEth_dev (f : Eth → Eth) : (modEth f s).dev = s.dev := rfl
@[simp] theorem modEth_groups (f : Eth → Eth) : (modEth f s).groups = s.groups := rfl
@[simp] theorem modEth_present (f : Eth → Eth) : (modEth f s).present = s.present := rfl
@[simp] theorem modEth_damask (f : Eth → Eth) : (modEth f s).damask = s.damask := rfl
@[simp] theorem modEth_clock (f : Eth → Eth) : (modEth f s).clock = s.clock := rfl
@[simp] theorem modEth_links (f : Eth → Eth) : (modEth f s).links = s.links := rfl
@[simp] theorem modEth_mod (f : Eth → Eth) : (modEth f s).mod = s.mod := rfl
@[simp] theorem modEth_units (f : Eth → Eth) : (modEth f s).units = s.units := rfl
@[simp] theorem modEth_gorse (f : Eth → Eth) : (modEth f s).gorse = s.gorse := rfl
@[simp] theorem modEth_conv (f : Eth → Eth) : (modEth f s).conv = s.conv := rfl
@[simp] theorem modEth_time (f : Eth → Eth) : (modEth f s).time = s.time := rfl
@[simp] theorem modEth_eth (f : Eth → Eth) : (modEth f s).eth = f s.eth := rfl
@[simp] theorem modEth_meas (f : Eth → Eth) : (modEth f s).meas = s.meas := rfl
@[simp] theorem modEth_meter (f : Eth → Eth) : (modEth f s).meter = s.meter := rfl
@[simp] theorem modEth_bracken (f : Eth → Eth) : (modEth f s).bracken = s.bracken := rfl
@[simp] theorem modEth_host (f : Eth → Eth) : (modEth f s).host = s.host := rfl
@[simp] theorem modEth_therm (f : Eth → Eth) : (modEth f s).therm = s.therm := rfl
@[simp] theorem modEth_power (f : Eth → Eth) : (modEth f s).power = s.power := rfl

@[simp] theorem modMeas_pending (f : Meas → Meas) : (modMeas f s).pending = s.pending := rfl
@[simp] theorem modMeas_tick (f : Meas → Meas) : (modMeas f s).tick = s.tick := rfl
@[simp] theorem modMeas_regs (f : Meas → Meas) : (modMeas f s).regs = s.regs := rfl
@[simp] theorem modMeas_events (f : Meas → Meas) : (modMeas f s).events = s.events := rfl
@[simp] theorem modMeas_force (f : Meas → Meas) : (modMeas f s).force = s.force := rfl
@[simp] theorem modMeas_dirty (f : Meas → Meas) : (modMeas f s).dirty = s.dirty := rfl
@[simp] theorem modMeas_dram (f : Meas → Meas) : (modMeas f s).dram = s.dram := rfl
@[simp] theorem modMeas_dev (f : Meas → Meas) : (modMeas f s).dev = s.dev := rfl
@[simp] theorem modMeas_groups (f : Meas → Meas) : (modMeas f s).groups = s.groups := rfl
@[simp] theorem modMeas_present (f : Meas → Meas) : (modMeas f s).present = s.present := rfl
@[simp] theorem modMeas_damask (f : Meas → Meas) : (modMeas f s).damask = s.damask := rfl
@[simp] theorem modMeas_clock (f : Meas → Meas) : (modMeas f s).clock = s.clock := rfl
@[simp] theorem modMeas_links (f : Meas → Meas) : (modMeas f s).links = s.links := rfl
@[simp] theorem modMeas_mod (f : Meas → Meas) : (modMeas f s).mod = s.mod := rfl
@[simp] theorem modMeas_units (f : Meas → Meas) : (modMeas f s).units = s.units := rfl
@[simp] theorem modMeas_gorse (f : Meas → Meas) : (modMeas f s).gorse = s.gorse := rfl
@[simp] theorem modMeas_conv (f : Meas → Meas) : (modMeas f s).conv = s.conv := rfl
@[simp] theorem modMeas_time (f : Meas → Meas) : (modMeas f s).time = s.time := rfl
@[simp] theorem modMeas_eth (f : Meas → Meas) : (modMeas f s).eth = s.eth := rfl
@[simp] theorem modMeas_meas (f : Meas → Meas) : (modMeas f s).meas = f s.meas := rfl
@[simp] theorem modMeas_meter (f : Meas → Meas) : (modMeas f s).meter = s.meter := rfl
@[simp] theorem modMeas_bracken (f : Meas → Meas) : (modMeas f s).bracken = s.bracken := rfl
@[simp] theorem modMeas_host (f : Meas → Meas) : (modMeas f s).host = s.host := rfl
@[simp] theorem modMeas_therm (f : Meas → Meas) : (modMeas f s).therm = s.therm := rfl
@[simp] theorem modMeas_power (f : Meas → Meas) : (modMeas f s).power = s.power := rfl

@[simp] theorem modMeter_pending (f : Meter → Meter) : (modMeter f s).pending = s.pending := rfl
@[simp] theorem modMeter_tick (f : Meter → Meter) : (modMeter f s).tick = s.tick := rfl
@[simp] theorem modMeter_regs (f : Meter → Meter) : (modMeter f s).regs = s.regs := rfl
@[simp] theorem modMeter_events (f : Meter → Meter) : (modMeter f s).events = s.events := rfl
@[simp] theorem modMeter_force (f : Meter → Meter) : (modMeter f s).force = s.force := rfl
@[simp] theorem modMeter_dirty (f : Meter → Meter) : (modMeter f s).dirty = s.dirty := rfl
@[simp] theorem modMeter_dram (f : Meter → Meter) : (modMeter f s).dram = s.dram := rfl
@[simp] theorem modMeter_dev (f : Meter → Meter) : (modMeter f s).dev = s.dev := rfl
@[simp] theorem modMeter_groups (f : Meter → Meter) : (modMeter f s).groups = s.groups := rfl
@[simp] theorem modMeter_present (f : Meter → Meter) : (modMeter f s).present = s.present := rfl
@[simp] theorem modMeter_damask (f : Meter → Meter) : (modMeter f s).damask = s.damask := rfl
@[simp] theorem modMeter_clock (f : Meter → Meter) : (modMeter f s).clock = s.clock := rfl
@[simp] theorem modMeter_links (f : Meter → Meter) : (modMeter f s).links = s.links := rfl
@[simp] theorem modMeter_mod (f : Meter → Meter) : (modMeter f s).mod = s.mod := rfl
@[simp] theorem modMeter_units (f : Meter → Meter) : (modMeter f s).units = s.units := rfl
@[simp] theorem modMeter_gorse (f : Meter → Meter) : (modMeter f s).gorse = s.gorse := rfl
@[simp] theorem modMeter_conv (f : Meter → Meter) : (modMeter f s).conv = s.conv := rfl
@[simp] theorem modMeter_time (f : Meter → Meter) : (modMeter f s).time = s.time := rfl
@[simp] theorem modMeter_eth (f : Meter → Meter) : (modMeter f s).eth = s.eth := rfl
@[simp] theorem modMeter_meas (f : Meter → Meter) : (modMeter f s).meas = s.meas := rfl
@[simp] theorem modMeter_meter (f : Meter → Meter) : (modMeter f s).meter = f s.meter := rfl
@[simp] theorem modMeter_bracken (f : Meter → Meter) : (modMeter f s).bracken = s.bracken := rfl
@[simp] theorem modMeter_host (f : Meter → Meter) : (modMeter f s).host = s.host := rfl
@[simp] theorem modMeter_therm (f : Meter → Meter) : (modMeter f s).therm = s.therm := rfl
@[simp] theorem modMeter_power (f : Meter → Meter) : (modMeter f s).power = s.power := rfl

@[simp] theorem modBr_pending (f : Bracken → Bracken) : (modBr f s).pending = s.pending := rfl
@[simp] theorem modBr_tick (f : Bracken → Bracken) : (modBr f s).tick = s.tick := rfl
@[simp] theorem modBr_regs (f : Bracken → Bracken) : (modBr f s).regs = s.regs := rfl
@[simp] theorem modBr_events (f : Bracken → Bracken) : (modBr f s).events = s.events := rfl
@[simp] theorem modBr_force (f : Bracken → Bracken) : (modBr f s).force = s.force := rfl
@[simp] theorem modBr_dirty (f : Bracken → Bracken) : (modBr f s).dirty = s.dirty := rfl
@[simp] theorem modBr_dram (f : Bracken → Bracken) : (modBr f s).dram = s.dram := rfl
@[simp] theorem modBr_dev (f : Bracken → Bracken) : (modBr f s).dev = s.dev := rfl
@[simp] theorem modBr_groups (f : Bracken → Bracken) : (modBr f s).groups = s.groups := rfl
@[simp] theorem modBr_present (f : Bracken → Bracken) : (modBr f s).present = s.present := rfl
@[simp] theorem modBr_damask (f : Bracken → Bracken) : (modBr f s).damask = s.damask := rfl
@[simp] theorem modBr_clock (f : Bracken → Bracken) : (modBr f s).clock = s.clock := rfl
@[simp] theorem modBr_links (f : Bracken → Bracken) : (modBr f s).links = s.links := rfl
@[simp] theorem modBr_mod (f : Bracken → Bracken) : (modBr f s).mod = s.mod := rfl
@[simp] theorem modBr_units (f : Bracken → Bracken) : (modBr f s).units = s.units := rfl
@[simp] theorem modBr_gorse (f : Bracken → Bracken) : (modBr f s).gorse = s.gorse := rfl
@[simp] theorem modBr_conv (f : Bracken → Bracken) : (modBr f s).conv = s.conv := rfl
@[simp] theorem modBr_time (f : Bracken → Bracken) : (modBr f s).time = s.time := rfl
@[simp] theorem modBr_eth (f : Bracken → Bracken) : (modBr f s).eth = s.eth := rfl
@[simp] theorem modBr_meas (f : Bracken → Bracken) : (modBr f s).meas = s.meas := rfl
@[simp] theorem modBr_meter (f : Bracken → Bracken) : (modBr f s).meter = s.meter := rfl
@[simp] theorem modBr_bracken (f : Bracken → Bracken) : (modBr f s).bracken = f s.bracken := rfl
@[simp] theorem modBr_host (f : Bracken → Bracken) : (modBr f s).host = s.host := rfl
@[simp] theorem modBr_therm (f : Bracken → Bracken) : (modBr f s).therm = s.therm := rfl
@[simp] theorem modBr_power (f : Bracken → Bracken) : (modBr f s).power = s.power := rfl

@[simp] theorem modHost_pending (f : HostIf → HostIf) : (modHost f s).pending = s.pending := rfl
@[simp] theorem modHost_tick (f : HostIf → HostIf) : (modHost f s).tick = s.tick := rfl
@[simp] theorem modHost_regs (f : HostIf → HostIf) : (modHost f s).regs = s.regs := rfl
@[simp] theorem modHost_events (f : HostIf → HostIf) : (modHost f s).events = s.events := rfl
@[simp] theorem modHost_force (f : HostIf → HostIf) : (modHost f s).force = s.force := rfl
@[simp] theorem modHost_dirty (f : HostIf → HostIf) : (modHost f s).dirty = s.dirty := rfl
@[simp] theorem modHost_dram (f : HostIf → HostIf) : (modHost f s).dram = s.dram := rfl
@[simp] theorem modHost_dev (f : HostIf → HostIf) : (modHost f s).dev = s.dev := rfl
@[simp] theorem modHost_groups (f : HostIf → HostIf) : (modHost f s).groups = s.groups := rfl
@[simp] theorem modHost_present (f : HostIf → HostIf) : (modHost f s).present = s.present := rfl
@[simp] theorem modHost_damask (f : HostIf → HostIf) : (modHost f s).damask = s.damask := rfl
@[simp] theorem modHost_clock (f : HostIf → HostIf) : (modHost f s).clock = s.clock := rfl
@[simp] theorem modHost_links (f : HostIf → HostIf) : (modHost f s).links = s.links := rfl
@[simp] theorem modHost_mod (f : HostIf → HostIf) : (modHost f s).mod = s.mod := rfl
@[simp] theorem modHost_units (f : HostIf → HostIf) : (modHost f s).units = s.units := rfl
@[simp] theorem modHost_gorse (f : HostIf → HostIf) : (modHost f s).gorse = s.gorse := rfl
@[simp] theorem modHost_conv (f : HostIf → HostIf) : (modHost f s).conv = s.conv := rfl
@[simp] theorem modHost_time (f : HostIf → HostIf) : (modHost f s).time = s.time := rfl
@[simp] theorem modHost_eth (f : HostIf → HostIf) : (modHost f s).eth = s.eth := rfl
@[simp] theorem modHost_meas (f : HostIf → HostIf) : (modHost f s).meas = s.meas := rfl
@[simp] theorem modHost_meter (f : HostIf → HostIf) : (modHost f s).meter = s.meter := rfl
@[simp] theorem modHost_bracken (f : HostIf → HostIf) : (modHost f s).bracken = s.bracken := rfl
@[simp] theorem modHost_host (f : HostIf → HostIf) : (modHost f s).host = f s.host := rfl
@[simp] theorem modHost_therm (f : HostIf → HostIf) : (modHost f s).therm = s.therm := rfl
@[simp] theorem modHost_power (f : HostIf → HostIf) : (modHost f s).power = s.power := rfl

@[simp] theorem modTherm_pending (f : Therm → Therm) : (modTherm f s).pending = s.pending := rfl
@[simp] theorem modTherm_tick (f : Therm → Therm) : (modTherm f s).tick = s.tick := rfl
@[simp] theorem modTherm_regs (f : Therm → Therm) : (modTherm f s).regs = s.regs := rfl
@[simp] theorem modTherm_events (f : Therm → Therm) : (modTherm f s).events = s.events := rfl
@[simp] theorem modTherm_force (f : Therm → Therm) : (modTherm f s).force = s.force := rfl
@[simp] theorem modTherm_dirty (f : Therm → Therm) : (modTherm f s).dirty = s.dirty := rfl
@[simp] theorem modTherm_dram (f : Therm → Therm) : (modTherm f s).dram = s.dram := rfl
@[simp] theorem modTherm_dev (f : Therm → Therm) : (modTherm f s).dev = s.dev := rfl
@[simp] theorem modTherm_groups (f : Therm → Therm) : (modTherm f s).groups = s.groups := rfl
@[simp] theorem modTherm_present (f : Therm → Therm) : (modTherm f s).present = s.present := rfl
@[simp] theorem modTherm_damask (f : Therm → Therm) : (modTherm f s).damask = s.damask := rfl
@[simp] theorem modTherm_clock (f : Therm → Therm) : (modTherm f s).clock = s.clock := rfl
@[simp] theorem modTherm_links (f : Therm → Therm) : (modTherm f s).links = s.links := rfl
@[simp] theorem modTherm_mod (f : Therm → Therm) : (modTherm f s).mod = s.mod := rfl
@[simp] theorem modTherm_units (f : Therm → Therm) : (modTherm f s).units = s.units := rfl
@[simp] theorem modTherm_gorse (f : Therm → Therm) : (modTherm f s).gorse = s.gorse := rfl
@[simp] theorem modTherm_conv (f : Therm → Therm) : (modTherm f s).conv = s.conv := rfl
@[simp] theorem modTherm_time (f : Therm → Therm) : (modTherm f s).time = s.time := rfl
@[simp] theorem modTherm_eth (f : Therm → Therm) : (modTherm f s).eth = s.eth := rfl
@[simp] theorem modTherm_meas (f : Therm → Therm) : (modTherm f s).meas = s.meas := rfl
@[simp] theorem modTherm_meter (f : Therm → Therm) : (modTherm f s).meter = s.meter := rfl
@[simp] theorem modTherm_bracken (f : Therm → Therm) : (modTherm f s).bracken = s.bracken := rfl
@[simp] theorem modTherm_host (f : Therm → Therm) : (modTherm f s).host = s.host := rfl
@[simp] theorem modTherm_therm (f : Therm → Therm) : (modTherm f s).therm = f s.therm := rfl
@[simp] theorem modTherm_power (f : Therm → Therm) : (modTherm f s).power = s.power := rfl

@[simp] theorem modPower_pending (f : Power → Power) : (modPower f s).pending = s.pending := rfl
@[simp] theorem modPower_tick (f : Power → Power) : (modPower f s).tick = s.tick := rfl
@[simp] theorem modPower_regs (f : Power → Power) : (modPower f s).regs = s.regs := rfl
@[simp] theorem modPower_events (f : Power → Power) : (modPower f s).events = s.events := rfl
@[simp] theorem modPower_force (f : Power → Power) : (modPower f s).force = s.force := rfl
@[simp] theorem modPower_dirty (f : Power → Power) : (modPower f s).dirty = s.dirty := rfl
@[simp] theorem modPower_dram (f : Power → Power) : (modPower f s).dram = s.dram := rfl
@[simp] theorem modPower_dev (f : Power → Power) : (modPower f s).dev = s.dev := rfl
@[simp] theorem modPower_groups (f : Power → Power) : (modPower f s).groups = s.groups := rfl
@[simp] theorem modPower_present (f : Power → Power) : (modPower f s).present = s.present := rfl
@[simp] theorem modPower_damask (f : Power → Power) : (modPower f s).damask = s.damask := rfl
@[simp] theorem modPower_clock (f : Power → Power) : (modPower f s).clock = s.clock := rfl
@[simp] theorem modPower_links (f : Power → Power) : (modPower f s).links = s.links := rfl
@[simp] theorem modPower_mod (f : Power → Power) : (modPower f s).mod = s.mod := rfl
@[simp] theorem modPower_units (f : Power → Power) : (modPower f s).units = s.units := rfl
@[simp] theorem modPower_gorse (f : Power → Power) : (modPower f s).gorse = s.gorse := rfl
@[simp] theorem modPower_conv (f : Power → Power) : (modPower f s).conv = s.conv := rfl
@[simp] theorem modPower_time (f : Power → Power) : (modPower f s).time = s.time := rfl
@[simp] theorem modPower_eth (f : Power → Power) : (modPower f s).eth = s.eth := rfl
@[simp] theorem modPower_meas (f : Power → Power) : (modPower f s).meas = s.meas := rfl
@[simp] theorem modPower_meter (f : Power → Power) : (modPower f s).meter = s.meter := rfl
@[simp] theorem modPower_bracken (f : Power → Power) : (modPower f s).bracken = s.bracken := rfl
@[simp] theorem modPower_host (f : Power → Power) : (modPower f s).host = s.host := rfl
@[simp] theorem modPower_therm (f : Power → Power) : (modPower f s).therm = s.therm := rfl
@[simp] theorem modPower_power (f : Power → Power) : (modPower f s).power = f s.power := rfl

@[simp] theorem dramPut_pending (o : Nat) (l : List Byte) : (dramPut o l s).pending = s.pending := rfl
@[simp] theorem dramPut_tick (o : Nat) (l : List Byte) : (dramPut o l s).tick = s.tick := rfl
@[simp] theorem dramPut_regs (o : Nat) (l : List Byte) : (dramPut o l s).regs = s.regs := rfl
@[simp] theorem dramPut_events (o : Nat) (l : List Byte) : (dramPut o l s).events = s.events := rfl
@[simp] theorem dramPut_force (o : Nat) (l : List Byte) : (dramPut o l s).force = s.force := rfl
@[simp] theorem dramPut_dirty (o : Nat) (l : List Byte) : (dramPut o l s).dirty = s.dirty := rfl
@[simp] theorem dramPut_dram (o : Nat) (l : List Byte) : (dramPut o l s).dram = tsetRun dZeroB s.dram o (l.take (dramSize - o)) := rfl
@[simp] theorem dramPut_dev (o : Nat) (l : List Byte) : (dramPut o l s).dev = s.dev := rfl
@[simp] theorem dramPut_groups (o : Nat) (l : List Byte) : (dramPut o l s).groups = s.groups := rfl
@[simp] theorem dramPut_present (o : Nat) (l : List Byte) : (dramPut o l s).present = s.present := rfl
@[simp] theorem dramPut_damask (o : Nat) (l : List Byte) : (dramPut o l s).damask = s.damask := rfl
@[simp] theorem dramPut_clock (o : Nat) (l : List Byte) : (dramPut o l s).clock = s.clock := rfl
@[simp] theorem dramPut_links (o : Nat) (l : List Byte) : (dramPut o l s).links = s.links := rfl
@[simp] theorem dramPut_mod (o : Nat) (l : List Byte) : (dramPut o l s).mod = s.mod := rfl
@[simp] theorem dramPut_units (o : Nat) (l : List Byte) : (dramPut o l s).units = s.units := rfl
@[simp] theorem dramPut_gorse (o : Nat) (l : List Byte) : (dramPut o l s).gorse = s.gorse := rfl
@[simp] theorem dramPut_conv (o : Nat) (l : List Byte) : (dramPut o l s).conv = s.conv := rfl
@[simp] theorem dramPut_time (o : Nat) (l : List Byte) : (dramPut o l s).time = s.time := rfl
@[simp] theorem dramPut_eth (o : Nat) (l : List Byte) : (dramPut o l s).eth = s.eth := rfl
@[simp] theorem dramPut_meas (o : Nat) (l : List Byte) : (dramPut o l s).meas = s.meas := rfl
@[simp] theorem dramPut_meter (o : Nat) (l : List Byte) : (dramPut o l s).meter = s.meter := rfl
@[simp] theorem dramPut_bracken (o : Nat) (l : List Byte) : (dramPut o l s).bracken = s.bracken := rfl
@[simp] theorem dramPut_host (o : Nat) (l : List Byte) : (dramPut o l s).host = s.host := rfl
@[simp] theorem dramPut_therm (o : Nat) (l : List Byte) : (dramPut o l s).therm = s.therm := rfl
@[simp] theorem dramPut_power (o : Nat) (l : List Byte) : (dramPut o l s).power = s.power := rfl

/-! Reads through updates. -/

@[simp] theorem rd_wr_self (a : Nat) (v : Word) : rd (wr a v s) a = v := tget_tset_self ..
theorem rd_wr_ne {a b : Nat} (v : Word) (h : b ≠ a) : rd (wr a v s) b = rd s b := tget_tset_ne _ _ _ h
theorem rd_wr (a b : Nat) (v : Word) : rd (wr a v s) b = if b = a then v else rd s b := tget_tset ..
@[simp] theorem fo_setFo_self (a : Nat) (v : Word) : fo (setFo a v s) a = v := tget_tset_self ..
theorem fo_setFo (a b : Nat) (v : Word) : fo (setFo a v s) b = if b = a then v else fo s b := tget_tset ..
theorem rd_of_regs {s t : State} (h : t.regs = s.regs) (a : Nat) : rd t a = rd s a := by rw [rd, h, rd]
theorem fo_of_force {s t : State} (h : t.force = s.force) (a : Nat) : fo t a = fo s a := by rw [fo, h, fo]
@[simp] theorem group_modGroup_self (i : Nat) (f : Group → Group) : group (modGroup i f s) i = f (group s i) := tget_tmod_self ..
theorem group_modGroup_ne {i j : Nat} (f : Group → Group) (h : j ≠ i) : group (modGroup i f s) j = group s j := tget_tmod_ne _ _ _ h
@[simp] theorem tile_modTile_self (i : Nat) (f : Tile → Tile) : tile (modTile i f s) i = f (tile s i) := tget_tmod_self ..
theorem tile_modTile_ne {i j : Nat} (f : Tile → Tile) (h : j ≠ i) : tile (modTile i f s) j = tile s j := tget_tmod_ne _ _ _ h
@[simp] theorem link_modLink_self (i : Nat) (f : Link → Link) : link (modLink i f s) i = f (link s i) := tget_tmod_self ..
theorem link_modLink_ne {i j : Nat} (f : Link → Link) (h : j ≠ i) : link (modLink i f s) j = link s j := tget_tmod_ne _ _ _ h
@[simp] theorem pair_modPair_self (i : Nat) (f : Pair → Pair) : pair (modPair i f s) i = f (pair s i) := tget_tmod_self ..
theorem pair_modPair_ne {i j : Nat} (f : Pair → Pair) (h : j ≠ i) : pair (modPair i f s) j = pair s j := tget_tmod_ne _ _ _ h
@[simp] theorem vcell_modVCell_self (i : Nat) (f : VCell → VCell) : vcell (modVCell i f s) i = f (vcell s i) := tget_tmod_self ..
theorem vcell_modVCell_ne {i j : Nat} (f : VCell → VCell) (h : j ≠ i) : vcell (modVCell i f s) j = vcell s j := tget_tmod_ne _ _ _ h
@[simp] theorem munit_modUnit_self (i : Nat) (f : MUnit → MUnit) : munit (modUnit i f s) i = f (munit s i) := tget_tmod_self ..
theorem munit_modUnit_ne {i j : Nat} (f : MUnit → MUnit) (h : j ≠ i) : munit (modUnit i f s) j = munit s j := tget_tmod_ne _ _ _ h
@[simp] theorem cmp_modCmp_self (i : Nat) (f : Cmp → Cmp) : Machine.cmp (modCmp i f s) i = f (Machine.cmp s i) := tget_tmod_self ..
theorem cmp_modCmp_ne {i j : Nat} (f : Cmp → Cmp) (h : j ≠ i) : Machine.cmp (modCmp i f s) j = Machine.cmp s j := tget_tmod_ne _ _ _ h
@[simp] theorem slot_modSlot_self (i : Nat) (f : Slot → Slot) : slot (modSlot i f s) i = f (slot s i) := tget_tmod_self ..
theorem slot_modSlot_ne {i j : Nat} (f : Slot → Slot) (h : j ≠ i) : slot (modSlot i f s) j = slot s j := tget_tmod_ne _ _ _ h
@[simp] theorem hist_modHist_self (i : Nat) (f : Hist → Hist) : hist (modHist i f s) i = f (hist s i) := tget_tmod_self ..
theorem hist_modHist_ne {i j : Nat} (f : Hist → Hist) (h : j ≠ i) : hist (modHist i f s) j = hist s j := tget_tmod_ne _ _ _ h
@[simp] theorem chan_modChan_self (i : Nat) (f : TsChan → TsChan) : chan (modChan i f s) i = f (chan s i) := tget_tmod_self ..
theorem chan_modChan_ne {i j : Nat} (f : TsChan → TsChan) (h : j ≠ i) : chan (modChan i f s) j = chan s j := tget_tmod_ne _ _ _ h
@[simp] theorem fo_wr (a : Nat) (v : Word) (b : Nat) : fo (wr a v s) b = fo s b := rfl
@[simp] theorem link_wr (a : Nat) (v : Word) (n : Nat) : link (wr a v s) n = link s n := rfl
@[simp] theorem group_wr (a : Nat) (v : Word) (g : Nat) : group (wr a v s) g = group s g := rfl
@[simp] theorem munit_wr (a : Nat) (v : Word) (u : Nat) : munit (wr a v s) u = munit s u := rfl
@[simp] theorem rd_setFo (a : Nat) (v : Word) (b : Nat) : rd (setFo a v s) b = rd s b := rfl
@[simp] theorem link_setFo (a : Nat) (v : Word) (n : Nat) : link (setFo a v s) n = link s n := rfl
@[simp] theorem group_setFo (a : Nat) (v : Word) (g : Nat) : group (setFo a v s) g = group s g := rfl
@[simp] theorem munit_setFo (a : Nat) (v : Word) (u : Nat) : munit (setFo a v s) u = munit s u := rfl
@[simp] theorem rd_noteEvent (a : Nat) (f : Word → Word) (b : Nat) : rd (noteEvent a f s) b = rd s b := rfl
@[simp] theorem fo_noteEvent (a : Nat) (f : Word → Word) (b : Nat) : fo (noteEvent a f s) b = fo s b := rfl
@[simp] theorem link_noteEvent (a : Nat) (f : Word → Word) (n : Nat) : link (noteEvent a f s) n = link s n := rfl
@[simp] theorem group_noteEvent (a : Nat) (f : Word → Word) (g : Nat) : group (noteEvent a f s) g = group s g := rfl
@[simp] theorem munit_noteEvent (a : Nat) (f : Word → Word) (u : Nat) : munit (noteEvent a f s) u = munit s u := rfl
@[simp] theorem rd_modGroup (i : Nat) (f : Group → Group) (b : Nat) : rd (modGroup i f s) b = rd s b := rfl
@[simp] theorem fo_modGroup (i : Nat) (f : Group → Group) (b : Nat) : fo (modGroup i f s) b = fo s b := rfl
@[simp] theorem link_modGroup (i : Nat) (f : Group → Group) (n : Nat) : link (modGroup i f s) n = link s n := rfl
@[simp] theorem munit_modGroup (i : Nat) (f : Group → Group) (u : Nat) : munit (modGroup i f s) u = munit s u := rfl
@[simp] theorem rd_modTile (i : Nat) (f : Tile → Tile) (b : Nat) : rd (modTile i f s) b = rd s b := rfl
@[simp] theorem fo_modTile (i : Nat) (f : Tile → Tile) (b : Nat) : fo (modTile i f s) b = fo s b := rfl
@[simp] theorem link_modTile (i : Nat) (f : Tile → Tile) (n : Nat) : link (modTile i f s) n = link s n := rfl
@[simp] theorem group_modTile (i : Nat) (f : Tile → Tile) (g : Nat) : group (modTile i f s) g = group s g := rfl
@[simp] theorem munit_modTile (i : Nat) (f : Tile → Tile) (u : Nat) : munit (modTile i f s) u = munit s u := rfl
@[simp] theorem rd_modLink (i : Nat) (f : Link → Link) (b : Nat) : rd (modLink i f s) b = rd s b := rfl
@[simp] theorem fo_modLink (i : Nat) (f : Link → Link) (b : Nat) : fo (modLink i f s) b = fo s b := rfl
@[simp] theorem group_modLink (i : Nat) (f : Link → Link) (g : Nat) : group (modLink i f s) g = group s g := rfl
@[simp] theorem munit_modLink (i : Nat) (f : Link → Link) (u : Nat) : munit (modLink i f s) u = munit s u := rfl
@[simp] theorem rd_modPair (i : Nat) (f : Pair → Pair) (b : Nat) : rd (modPair i f s) b = rd s b := rfl
@[simp] theorem fo_modPair (i : Nat) (f : Pair → Pair) (b : Nat) : fo (modPair i f s) b = fo s b := rfl
@[simp] theorem link_modPair (i : Nat) (f : Pair → Pair) (n : Nat) : link (modPair i f s) n = link s n := rfl
@[simp] theorem group_modPair (i : Nat) (f : Pair → Pair) (g : Nat) : group (modPair i f s) g = group s g := rfl
@[simp] theorem munit_modPair (i : Nat) (f : Pair → Pair) (u : Nat) : munit (modPair i f s) u = munit s u := rfl
@[simp] theorem rd_modVCell (i : Nat) (f : VCell → VCell) (b : Nat) : rd (modVCell i f s) b = rd s b := rfl
@[simp] theorem fo_modVCell (i : Nat) (f : VCell → VCell) (b : Nat) : fo (modVCell i f s) b = fo s b := rfl
@[simp] theorem link_modVCell (i : Nat) (f : VCell → VCell) (n : Nat) : link (modVCell i f s) n = link s n := rfl
@[simp] theorem group_modVCell (i : Nat) (f : VCell → VCell) (g : Nat) : group (modVCell i f s) g = group s g := rfl
@[simp] theorem munit_modVCell (i : Nat) (f : VCell → VCell) (u : Nat) : munit (modVCell i f s) u = munit s u := rfl
@[simp] theorem rd_modUnit (i : Nat) (f : MUnit → MUnit) (b : Nat) : rd (modUnit i f s) b = rd s b := rfl
@[simp] theorem fo_modUnit (i : Nat) (f : MUnit → MUnit) (b : Nat) : fo (modUnit i f s) b = fo s b := rfl
@[simp] theorem link_modUnit (i : Nat) (f : MUnit → MUnit) (n : Nat) : link (modUnit i f s) n = link s n := rfl
@[simp] theorem group_modUnit (i : Nat) (f : MUnit → MUnit) (g : Nat) : group (modUnit i f s) g = group s g := rfl
@[simp] theorem rd_modCmp (i : Nat) (f : Cmp → Cmp) (b : Nat) : rd (modCmp i f s) b = rd s b := rfl
@[simp] theorem fo_modCmp (i : Nat) (f : Cmp → Cmp) (b : Nat) : fo (modCmp i f s) b = fo s b := rfl
@[simp] theorem link_modCmp (i : Nat) (f : Cmp → Cmp) (n : Nat) : link (modCmp i f s) n = link s n := rfl
@[simp] theorem group_modCmp (i : Nat) (f : Cmp → Cmp) (g : Nat) : group (modCmp i f s) g = group s g := rfl
@[simp] theorem munit_modCmp (i : Nat) (f : Cmp → Cmp) (u : Nat) : munit (modCmp i f s) u = munit s u := rfl
@[simp] theorem rd_modSlot (i : Nat) (f : Slot → Slot) (b : Nat) : rd (modSlot i f s) b = rd s b := rfl
@[simp] theorem fo_modSlot (i : Nat) (f : Slot → Slot) (b : Nat) : fo (modSlot i f s) b = fo s b := rfl
@[simp] theorem link_modSlot (i : Nat) (f : Slot → Slot) (n : Nat) : link (modSlot i f s) n = link s n := rfl
@[simp] theorem group_modSlot (i : Nat) (f : Slot → Slot) (g : Nat) : group (modSlot i f s) g = group s g := rfl
@[simp] theorem munit_modSlot (i : Nat) (f : Slot → Slot) (u : Nat) : munit (modSlot i f s) u = munit s u := rfl
@[simp] theorem rd_modHist (i : Nat) (f : Hist → Hist) (b : Nat) : rd (modHist i f s) b = rd s b := rfl
@[simp] theorem fo_modHist (i : Nat) (f : Hist → Hist) (b : Nat) : fo (modHist i f s) b = fo s b := rfl
@[simp] theorem link_modHist (i : Nat) (f : Hist → Hist) (n : Nat) : link (modHist i f s) n = link s n := rfl
@[simp] theorem group_modHist (i : Nat) (f : Hist → Hist) (g : Nat) : group (modHist i f s) g = group s g := rfl
@[simp] theorem munit_modHist (i : Nat) (f : Hist → Hist) (u : Nat) : munit (modHist i f s) u = munit s u := rfl
@[simp] theorem rd_modChan (i : Nat) (f : TsChan → TsChan) (b : Nat) : rd (modChan i f s) b = rd s b := rfl
@[simp] theorem fo_modChan (i : Nat) (f : TsChan → TsChan) (b : Nat) : fo (modChan i f s) b = fo s b := rfl
@[simp] theorem link_modChan (i : Nat) (f : TsChan → TsChan) (n : Nat) : link (modChan i f s) n = link s n := rfl
@[simp] theorem group_modChan (i : Nat) (f : TsChan → TsChan) (g : Nat) : group (modChan i f s) g = group s g := rfl
@[simp] theorem munit_modChan (i : Nat) (f : TsChan → TsChan) (u : Nat) : munit (modChan i f s) u = munit s u := rfl
@[simp] theorem rd_modDamask (f : Damask → Damask) (b : Nat) : rd (modDamask f s) b = rd s b := rfl
@[simp] theorem fo_modDamask (f : Damask → Damask) (b : Nat) : fo (modDamask f s) b = fo s b := rfl
@[simp] theorem link_modDamask (f : Damask → Damask) (n : Nat) : link (modDamask f s) n = link s n := rfl
@[simp] theorem group_modDamask (f : Damask → Damask) (g : Nat) : group (modDamask f s) g = group s g := rfl
@[simp] theorem munit_modDamask (f : Damask → Damask) (u : Nat) : munit (modDamask f s) u = munit s u := rfl
@[simp] theorem rd_modClock (f : Clock → Clock) (b : Nat) : rd (modClock f s) b = rd s b := rfl
@[simp] theorem fo_modClock (f : Clock → Clock) (b : Nat) : fo (modClock f s) b = fo s b := rfl
@[simp] theorem link_modClock (f : Clock → Clock) (n : Nat) : link (modClock f s) n = link s n := rfl
@[simp] theorem group_modClock (f : Clock → Clock) (g : Nat) : group (modClock f s) g = group s g := rfl
@[simp] theorem munit_modClock (f : Clock → Clock) (u : Nat) : munit (modClock f s) u = munit s u := rfl
@[simp] theorem rd_modMod (f : Mod → Mod) (b : Nat) : rd (modMod f s) b = rd s b := rfl
@[simp] theorem fo_modMod (f : Mod → Mod) (b : Nat) : fo (modMod f s) b = fo s b := rfl
@[simp] theorem link_modMod (f : Mod → Mod) (n : Nat) : link (modMod f s) n = link s n := rfl
@[simp] theorem group_modMod (f : Mod → Mod) (g : Nat) : group (modMod f s) g = group s g := rfl
@[simp] theorem munit_modMod (f : Mod → Mod) (u : Nat) : munit (modMod f s) u = munit s u := rfl
@[simp] theorem rd_modGorse (f : Gorse → Gorse) (b : Nat) : rd (modGorse f s) b = rd s b := rfl
@[simp] theorem fo_modGorse (f : Gorse → Gorse) (b : Nat) : fo (modGorse f s) b = fo s b := rfl
@[simp] theorem link_modGorse (f : Gorse → Gorse) (n : Nat) : link (modGorse f s) n = link s n := rfl
@[simp] theorem group_modGorse (f : Gorse → Gorse) (g : Nat) : group (modGorse f s) g = group s g := rfl
@[simp] theorem munit_modGorse (f : Gorse → Gorse) (u : Nat) : munit (modGorse f s) u = munit s u := rfl
@[simp] theorem rd_modConv (f : Conv → Conv) (b : Nat) : rd (modConv f s) b = rd s b := rfl
@[simp] theorem fo_modConv (f : Conv → Conv) (b : Nat) : fo (modConv f s) b = fo s b := rfl
@[simp] theorem link_modConv (f : Conv → Conv) (n : Nat) : link (modConv f s) n = link s n := rfl
@[simp] theorem group_modConv (f : Conv → Conv) (g : Nat) : group (modConv f s) g = group s g := rfl
@[simp] theorem munit_modConv (f : Conv → Conv) (u : Nat) : munit (modConv f s) u = munit s u := rfl
@[simp] theorem rd_modTime (f : TimeEng → TimeEng) (b : Nat) : rd (modTime f s) b = rd s b := rfl
@[simp] theorem fo_modTime (f : TimeEng → TimeEng) (b : Nat) : fo (modTime f s) b = fo s b := rfl
@[simp] theorem link_modTime (f : TimeEng → TimeEng) (n : Nat) : link (modTime f s) n = link s n := rfl
@[simp] theorem group_modTime (f : TimeEng → TimeEng) (g : Nat) : group (modTime f s) g = group s g := rfl
@[simp] theorem munit_modTime (f : TimeEng → TimeEng) (u : Nat) : munit (modTime f s) u = munit s u := rfl
@[simp] theorem rd_modEth (f : Eth → Eth) (b : Nat) : rd (modEth f s) b = rd s b := rfl
@[simp] theorem fo_modEth (f : Eth → Eth) (b : Nat) : fo (modEth f s) b = fo s b := rfl
@[simp] theorem link_modEth (f : Eth → Eth) (n : Nat) : link (modEth f s) n = link s n := rfl
@[simp] theorem group_modEth (f : Eth → Eth) (g : Nat) : group (modEth f s) g = group s g := rfl
@[simp] theorem munit_modEth (f : Eth → Eth) (u : Nat) : munit (modEth f s) u = munit s u := rfl
@[simp] theorem rd_modMeas (f : Meas → Meas) (b : Nat) : rd (modMeas f s) b = rd s b := rfl
@[simp] theorem fo_modMeas (f : Meas → Meas) (b : Nat) : fo (modMeas f s) b = fo s b := rfl
@[simp] theorem link_modMeas (f : Meas → Meas) (n : Nat) : link (modMeas f s) n = link s n := rfl
@[simp] theorem group_modMeas (f : Meas → Meas) (g : Nat) : group (modMeas f s) g = group s g := rfl
@[simp] theorem munit_modMeas (f : Meas → Meas) (u : Nat) : munit (modMeas f s) u = munit s u := rfl
@[simp] theorem rd_modMeter (f : Meter → Meter) (b : Nat) : rd (modMeter f s) b = rd s b := rfl
@[simp] theorem fo_modMeter (f : Meter → Meter) (b : Nat) : fo (modMeter f s) b = fo s b := rfl
@[simp] theorem link_modMeter (f : Meter → Meter) (n : Nat) : link (modMeter f s) n = link s n := rfl
@[simp] theorem group_modMeter (f : Meter → Meter) (g : Nat) : group (modMeter f s) g = group s g := rfl
@[simp] theorem munit_modMeter (f : Meter → Meter) (u : Nat) : munit (modMeter f s) u = munit s u := rfl
@[simp] theorem rd_modBr (f : Bracken → Bracken) (b : Nat) : rd (modBr f s) b = rd s b := rfl
@[simp] theorem fo_modBr (f : Bracken → Bracken) (b : Nat) : fo (modBr f s) b = fo s b := rfl
@[simp] theorem link_modBr (f : Bracken → Bracken) (n : Nat) : link (modBr f s) n = link s n := rfl
@[simp] theorem group_modBr (f : Bracken → Bracken) (g : Nat) : group (modBr f s) g = group s g := rfl
@[simp] theorem munit_modBr (f : Bracken → Bracken) (u : Nat) : munit (modBr f s) u = munit s u := rfl
@[simp] theorem rd_modHost (f : HostIf → HostIf) (b : Nat) : rd (modHost f s) b = rd s b := rfl
@[simp] theorem fo_modHost (f : HostIf → HostIf) (b : Nat) : fo (modHost f s) b = fo s b := rfl
@[simp] theorem link_modHost (f : HostIf → HostIf) (n : Nat) : link (modHost f s) n = link s n := rfl
@[simp] theorem group_modHost (f : HostIf → HostIf) (g : Nat) : group (modHost f s) g = group s g := rfl
@[simp] theorem munit_modHost (f : HostIf → HostIf) (u : Nat) : munit (modHost f s) u = munit s u := rfl
@[simp] theorem rd_modTherm (f : Therm → Therm) (b : Nat) : rd (modTherm f s) b = rd s b := rfl
@[simp] theorem fo_modTherm (f : Therm → Therm) (b : Nat) : fo (modTherm f s) b = fo s b := rfl
@[simp] theorem link_modTherm (f : Therm → Therm) (n : Nat) : link (modTherm f s) n = link s n := rfl
@[simp] theorem group_modTherm (f : Therm → Therm) (g : Nat) : group (modTherm f s) g = group s g := rfl
@[simp] theorem munit_modTherm (f : Therm → Therm) (u : Nat) : munit (modTherm f s) u = munit s u := rfl
@[simp] theorem rd_modPower (f : Power → Power) (b : Nat) : rd (modPower f s) b = rd s b := rfl
@[simp] theorem fo_modPower (f : Power → Power) (b : Nat) : fo (modPower f s) b = fo s b := rfl
@[simp] theorem link_modPower (f : Power → Power) (n : Nat) : link (modPower f s) n = link s n := rfl
@[simp] theorem group_modPower (f : Power → Power) (g : Nat) : group (modPower f s) g = group s g := rfl
@[simp] theorem munit_modPower (f : Power → Power) (u : Nat) : munit (modPower f s) u = munit s u := rfl
@[simp] theorem rd_dramPut (o : Nat) (l : List Byte) (b : Nat) : rd (dramPut o l s) b = rd s b := rfl
@[simp] theorem fo_dramPut (o : Nat) (l : List Byte) (b : Nat) : fo (dramPut o l s) b = fo s b := rfl
@[simp] theorem link_dramPut (o : Nat) (l : List Byte) (n : Nat) : link (dramPut o l s) n = link s n := rfl
@[simp] theorem group_dramPut (o : Nat) (l : List Byte) (g : Nat) : group (dramPut o l s) g = group s g := rfl
@[simp] theorem munit_dramPut (o : Nat) (l : List Byte) (u : Nat) : munit (dramPut o l s) u = munit s u := rfl

/-! The canonical form (R17, R336). -/

theorem regsOk_wr (a : Nat) (v : Word) (h : regsOk s) : regsOk (wr a v s) := ⟨twf_tset _ _ _ _ h.1, h.2⟩
theorem regsOk_setFo (a : Nat) (v : Word) (h : regsOk s) : regsOk (setFo a v s) := ⟨h.1, twf_tset _ _ _ _ h.2⟩

theorem dramOk_put (o : Nat) (l : List Byte) (h : dramOk s) : dramOk (dramPut o l s) := by
  refine ⟨twf_tsetRun _ _ _ _ h.1, fun p hp => ?_⟩
  rcases mem_tsetRun_key _ _ _ _ _ hp with h1 | h1
  · have h2 := List.length_take_le (dramSize - o) l
    rw [List.length_take] at h1
    omega
  · exact h.2 p h1

/-- A write of DRAM changes no byte outside it. -/
theorem dramPut_other (o : Nat) (l : List Byte) (a : Nat) (h : a < o ∨ o + l.length ≤ a) :
    tget dZeroB (dramPut o l s).dram a = tget dZeroB s.dram a := by
  rw [dramPut_dram, tget_tsetRun]
  split
  · next hle =>
    have h1 : (l.take (dramSize - o)).length ≤ a - o := by
      rw [List.length_take]
      omega
    rw [List.getElem?_eq_none h1, Option.getD_none]
  · rfl

end Sys2Proof.Laws
end

