-- ==== Sys2Proof/Laws/Flags.lean ====
section
/-! SUPPORT. What flags, counters, interrupts and log entries leave as it is, field by field, and which registers an
interrupt writes (R342, R343, R345); a command's frame from the updates it makes. -/

namespace Sys2Proof.Laws

open Sys2Proof Sys2Proof.Machine

/-- A field outside l stays the same under the updates of the fields of l. -/
theorem kept_same {l : List Part} (p : Part) (h : partMask l &&& partBit p = 0) (s : State) : Kept l (samePart p s) := by
  have put : ∀ (q : Part) (t u : State), (∀ r, r ≠ q → samePart r t u) → partBit q &&& partMask l = partBit q →
      samePart p s t → samePart p s u := by
    intro q t u hs hm ht
    have hpq : p ≠ q := by
      rintro rfl
      rw [Nat.and_comm, hm] at h
      exact absurd h (by cases p <;> decide)
    have h2 := hs p hpq
    revert h2 ht
    cases p <;> (intro h1 h2; exact h2.trans h1)
  constructor
  case regs => exact fun hm t _ _ ht => put .regs _ _ (fun q hq => by cases q <;> first | rfl | exact absurd rfl hq) hm ht
  case regsClr => exact fun hm t _ _ ht => put .regs _ _ (fun q hq => by cases q <;> first | rfl | exact absurd rfl hq) hm ht
  case events => exact fun hm t _ ht => put .events _ _ (fun q hq => by cases q <;> first | rfl | exact absurd rfl hq) hm ht
  case dram => exact fun hm _ _ t ht => put .dram _ _ (fun q hq => by cases q <;> first | rfl | exact absurd rfl hq) hm ht
  case force => exact fun hm t _ _ ht => put .force _ _ (fun q hq => by cases q <;> first | rfl | exact absurd rfl hq) hm ht
  case forceClr => exact fun hm t _ _ ht => put .force _ _ (fun q hq => by cases q <;> first | rfl | exact absurd rfl hq) hm ht
  case dirty => exact fun hm t _ ht => put .dirty _ _ (fun q hq => by cases q <;> first | rfl | exact absurd rfl hq) hm ht
  case groups => exact fun hm t _ ht => put .groups _ _ (fun q hq => by cases q <;> first | rfl | exact absurd rfl hq) hm ht
  case present => exact fun hm t _ ht => put .present _ _ (fun q hq => by cases q <;> first | rfl | exact absurd rfl hq) hm ht
  case damask => exact fun hm t _ ht => put .damask _ _ (fun q hq => by cases q <;> first | rfl | exact absurd rfl hq) hm ht
  case clock => exact fun hm t _ ht => put .clock _ _ (fun q hq => by cases q <;> first | rfl | exact absurd rfl hq) hm ht
  case links => exact fun hm t _ ht => put .links _ _ (fun q hq => by cases q <;> first | rfl | exact absurd rfl hq) hm ht
  case mod => exact fun hm t _ _ ht => put .mod _ _ (fun q hq => by cases q <;> first | rfl | exact absurd rfl hq) hm ht
  case units => exact fun hm t _ ht => put .units _ _ (fun q hq => by cases q <;> first | rfl | exact absurd rfl hq) hm ht
  case gorse => exact fun hm t _ ht => put .gorse _ _ (fun q hq => by cases q <;> first | rfl | exact absurd rfl hq) hm ht
  case conv => exact fun hm t _ ht => put .conv _ _ (fun q hq => by cases q <;> first | rfl | exact absurd rfl hq) hm ht
  case time => exact fun hm t _ ht => put .time _ _ (fun q hq => by cases q <;> first | rfl | exact absurd rfl hq) hm ht
  case eth => exact fun hm t _ ht => put .eth _ _ (fun q hq => by cases q <;> first | rfl | exact absurd rfl hq) hm ht
  case meas => exact fun hm t _ ht => put .meas _ _ (fun q hq => by cases q <;> first | rfl | exact absurd rfl hq) hm ht
  case meter => exact fun hm t _ ht => put .meter _ _ (fun q hq => by cases q <;> first | rfl | exact absurd rfl hq) hm ht
  case bracken => exact fun hm t _ ht => put .bracken _ _ (fun q hq => by cases q <;> first | rfl | exact absurd rfl hq) hm ht
  case host => exact fun hm t _ ht => put .host _ _ (fun q hq => by cases q <;> first | rfl | exact absurd rfl hq) hm ht
  case therm => exact fun hm t _ ht => put .therm _ _ (fun q hq => by cases q <;> first | rfl | exact absurd rfl hq) hm ht
  case power => exact fun hm t _ ht => put .power _ _ (fun q hq => by cases q <;> first | rfl | exact absurd rfl hq) hm ht

variable (s : State)

@[simp] theorem irq_pending (n : Nat) : (irq n s).pending = s.pending := kept_irq (kept_same .pending rfl s) n s rfl
@[simp] theorem irq_tick (n : Nat) : (irq n s).tick = s.tick := kept_irq (kept_same .tick rfl s) n s rfl
@[simp] theorem irq_force (n : Nat) : (irq n s).force = s.force := kept_irq (kept_same .force rfl s) n s rfl
@[simp] theorem irq_dirty (n : Nat) : (irq n s).dirty = s.dirty := kept_irq (kept_same .dirty rfl s) n s rfl
@[simp] theorem irq_dram (n : Nat) : (irq n s).dram = s.dram := kept_irq (kept_same .dram rfl s) n s rfl
@[simp] theorem irq_dev (n : Nat) : (irq n s).dev = s.dev := kept_irq (kept_same .dev rfl s) n s rfl
@[simp] theorem irq_groups (n : Nat) : (irq n s).groups = s.groups := kept_irq (kept_same .groups rfl s) n s rfl
@[simp] theorem irq_present (n : Nat) : (irq n s).present = s.present := kept_irq (kept_same .present rfl s) n s rfl
@[simp] theorem irq_damask (n : Nat) : (irq n s).damask = s.damask := kept_irq (kept_same .damask rfl s) n s rfl
@[simp] theorem irq_clock (n : Nat) : (irq n s).clock = s.clock := kept_irq (kept_same .clock rfl s) n s rfl
@[simp] theorem irq_links (n : Nat) : (irq n s).links = s.links := kept_irq (kept_same .links rfl s) n s rfl
@[simp] theorem irq_mod (n : Nat) : (irq n s).mod = s.mod := kept_irq (kept_same .mod rfl s) n s rfl
@[simp] theorem irq_units (n : Nat) : (irq n s).units = s.units := kept_irq (kept_same .units rfl s) n s rfl
@[simp] theorem irq_gorse (n : Nat) : (irq n s).gorse = s.gorse := kept_irq (kept_same .gorse rfl s) n s rfl
@[simp] theorem irq_conv (n : Nat) : (irq n s).conv = s.conv := kept_irq (kept_same .conv rfl s) n s rfl
@[simp] theorem irq_eth (n : Nat) : (irq n s).eth = s.eth := kept_irq (kept_same .eth rfl s) n s rfl
@[simp] theorem irq_meas (n : Nat) : (irq n s).meas = s.meas := kept_irq (kept_same .meas rfl s) n s rfl
@[simp] theorem irq_meter (n : Nat) : (irq n s).meter = s.meter := kept_irq (kept_same .meter rfl s) n s rfl
@[simp] theorem irq_bracken (n : Nat) : (irq n s).bracken = s.bracken := kept_irq (kept_same .bracken rfl s) n s rfl
@[simp] theorem irq_therm (n : Nat) : (irq n s).therm = s.therm := kept_irq (kept_same .therm rfl s) n s rfl
@[simp] theorem irq_power (n : Nat) : (irq n s).power = s.power := kept_irq (kept_same .power rfl s) n s rfl
@[simp] theorem link_irq (n : Nat) (i : Nat) : link (irq n s) i = link s i := by rw [link, irq_links, link]
@[simp] theorem group_irq (n : Nat) (i : Nat) : group (irq n s) i = group s i := by rw [group, irq_groups, group]
@[simp] theorem munit_irq (n : Nat) (i : Nat) : munit (irq n s) i = munit s i := by rw [munit, irq_units, munit]

@[simp] theorem stick_pending (a m : Nat) (src : Option Nat) : (stick a m src s).pending = s.pending := kept_stick (kept_same .pending rfl s) a m src s rfl
@[simp] theorem stick_tick (a m : Nat) (src : Option Nat) : (stick a m src s).tick = s.tick := kept_stick (kept_same .tick rfl s) a m src s rfl
@[simp] theorem stick_force (a m : Nat) (src : Option Nat) : (stick a m src s).force = s.force := kept_stick (kept_same .force rfl s) a m src s rfl
@[simp] theorem stick_dirty (a m : Nat) (src : Option Nat) : (stick a m src s).dirty = s.dirty := kept_stick (kept_same .dirty rfl s) a m src s rfl
@[simp] theorem stick_dram (a m : Nat) (src : Option Nat) : (stick a m src s).dram = s.dram := kept_stick (kept_same .dram rfl s) a m src s rfl
@[simp] theorem stick_dev (a m : Nat) (src : Option Nat) : (stick a m src s).dev = s.dev := kept_stick (kept_same .dev rfl s) a m src s rfl
@[simp] theorem stick_groups (a m : Nat) (src : Option Nat) : (stick a m src s).groups = s.groups := kept_stick (kept_same .groups rfl s) a m src s rfl
@[simp] theorem stick_present (a m : Nat) (src : Option Nat) : (stick a m src s).present = s.present := kept_stick (kept_same .present rfl s) a m src s rfl
@[simp] theorem stick_damask (a m : Nat) (src : Option Nat) : (stick a m src s).damask = s.damask := kept_stick (kept_same .damask rfl s) a m src s rfl
@[simp] theorem stick_clock (a m : Nat) (src : Option Nat) : (stick a m src s).clock = s.clock := kept_stick (kept_same .clock rfl s) a m src s rfl
@[simp] theorem stick_links (a m : Nat) (src : Option Nat) : (stick a m src s).links = s.links := kept_stick (kept_same .links rfl s) a m src s rfl
@[simp] theorem stick_mod (a m : Nat) (src : Option Nat) : (stick a m src s).mod = s.mod := kept_stick (kept_same .mod rfl s) a m src s rfl
@[simp] theorem stick_units (a m : Nat) (src : Option Nat) : (stick a m src s).units = s.units := kept_stick (kept_same .units rfl s) a m src s rfl
@[simp] theorem stick_gorse (a m : Nat) (src : Option Nat) : (stick a m src s).gorse = s.gorse := kept_stick (kept_same .gorse rfl s) a m src s rfl
@[simp] theorem stick_conv (a m : Nat) (src : Option Nat) : (stick a m src s).conv = s.conv := kept_stick (kept_same .conv rfl s) a m src s rfl
@[simp] theorem stick_eth (a m : Nat) (src : Option Nat) : (stick a m src s).eth = s.eth := kept_stick (kept_same .eth rfl s) a m src s rfl
@[simp] theorem stick_meas (a m : Nat) (src : Option Nat) : (stick a m src s).meas = s.meas := kept_stick (kept_same .meas rfl s) a m src s rfl
@[simp] theorem stick_meter (a m : Nat) (src : Option Nat) : (stick a m src s).meter = s.meter := kept_stick (kept_same .meter rfl s) a m src s rfl
@[simp] theorem stick_bracken (a m : Nat) (src : Option Nat) : (stick a m src s).bracken = s.bracken := kept_stick (kept_same .bracken rfl s) a m src s rfl
@[simp] theorem stick_therm (a m : Nat) (src : Option Nat) : (stick a m src s).therm = s.therm := kept_stick (kept_same .therm rfl s) a m src s rfl
@[simp] theorem stick_power (a m : Nat) (src : Option Nat) : (stick a m src s).power = s.power := kept_stick (kept_same .power rfl s) a m src s rfl
@[simp] theorem link_stick (a m : Nat) (src : Option Nat) (i : Nat) : link (stick a m src s) i = link s i := by rw [link, stick_links, link]
@[simp] theorem group_stick (a m : Nat) (src : Option Nat) (i : Nat) : group (stick a m src s) i = group s i := by rw [group, stick_groups, group]
@[simp] theorem munit_stick (a m : Nat) (src : Option Nat) (i : Nat) : munit (stick a m src s) i = munit s i := by rw [munit, stick_units, munit]

@[simp] theorem cntSat_pending (a n : Nat) : (cntSat a n s).pending = s.pending := kept_cntSat (kept_same .pending rfl s) a n s rfl
@[simp] theorem cntSat_tick (a n : Nat) : (cntSat a n s).tick = s.tick := kept_cntSat (kept_same .tick rfl s) a n s rfl
@[simp] theorem cntSat_force (a n : Nat) : (cntSat a n s).force = s.force := kept_cntSat (kept_same .force rfl s) a n s rfl
@[simp] theorem cntSat_dirty (a n : Nat) : (cntSat a n s).dirty = s.dirty := kept_cntSat (kept_same .dirty rfl s) a n s rfl
@[simp] theorem cntSat_dram (a n : Nat) : (cntSat a n s).dram = s.dram := kept_cntSat (kept_same .dram rfl s) a n s rfl
@[simp] theorem cntSat_dev (a n : Nat) : (cntSat a n s).dev = s.dev := kept_cntSat (kept_same .dev rfl s) a n s rfl
@[simp] theorem cntSat_groups (a n : Nat) : (cntSat a n s).groups = s.groups := kept_cntSat (kept_same .groups rfl s) a n s rfl
@[simp] theorem cntSat_present (a n : Nat) : (cntSat a n s).present = s.present := kept_cntSat (kept_same .present rfl s) a n s rfl
@[simp] theorem cntSat_damask (a n : Nat) : (cntSat a n s).damask = s.damask := kept_cntSat (kept_same .damask rfl s) a n s rfl
@[simp] theorem cntSat_clock (a n : Nat) : (cntSat a n s).clock = s.clock := kept_cntSat (kept_same .clock rfl s) a n s rfl
@[simp] theorem cntSat_links (a n : Nat) : (cntSat a n s).links = s.links := kept_cntSat (kept_same .links rfl s) a n s rfl
@[simp] theorem cntSat_mod (a n : Nat) : (cntSat a n s).mod = s.mod := kept_cntSat (kept_same .mod rfl s) a n s rfl
@[simp] theorem cntSat_units (a n : Nat) : (cntSat a n s).units = s.units := kept_cntSat (kept_same .units rfl s) a n s rfl
@[simp] theorem cntSat_gorse (a n : Nat) : (cntSat a n s).gorse = s.gorse := kept_cntSat (kept_same .gorse rfl s) a n s rfl
@[simp] theorem cntSat_conv (a n : Nat) : (cntSat a n s).conv = s.conv := kept_cntSat (kept_same .conv rfl s) a n s rfl
@[simp] theorem cntSat_time (a n : Nat) : (cntSat a n s).time = s.time := kept_cntSat (kept_same .time rfl s) a n s rfl
@[simp] theorem cntSat_eth (a n : Nat) : (cntSat a n s).eth = s.eth := kept_cntSat (kept_same .eth rfl s) a n s rfl
@[simp] theorem cntSat_meas (a n : Nat) : (cntSat a n s).meas = s.meas := kept_cntSat (kept_same .meas rfl s) a n s rfl
@[simp] theorem cntSat_meter (a n : Nat) : (cntSat a n s).meter = s.meter := kept_cntSat (kept_same .meter rfl s) a n s rfl
@[simp] theorem cntSat_bracken (a n : Nat) : (cntSat a n s).bracken = s.bracken := kept_cntSat (kept_same .bracken rfl s) a n s rfl
@[simp] theorem cntSat_host (a n : Nat) : (cntSat a n s).host = s.host := kept_cntSat (kept_same .host rfl s) a n s rfl
@[simp] theorem cntSat_therm (a n : Nat) : (cntSat a n s).therm = s.therm := kept_cntSat (kept_same .therm rfl s) a n s rfl
@[simp] theorem cntSat_power (a n : Nat) : (cntSat a n s).power = s.power := kept_cntSat (kept_same .power rfl s) a n s rfl
@[simp] theorem link_cntSat (a n : Nat) (i : Nat) : link (cntSat a n s) i = link s i := by rw [link, cntSat_links, link]
@[simp] theorem group_cntSat (a n : Nat) (i : Nat) : group (cntSat a n s) i = group s i := by rw [group, cntSat_groups, group]
@[simp] theorem munit_cntSat (a n : Nat) (i : Nat) : munit (cntSat a n s) i = munit s i := by rw [munit, cntSat_units, munit]

@[simp] theorem cntUp_pending (a n : Nat) : (cntUp a n s).pending = s.pending := kept_cntUp (kept_same .pending rfl s) a n s rfl
@[simp] theorem cntUp_tick (a n : Nat) : (cntUp a n s).tick = s.tick := kept_cntUp (kept_same .tick rfl s) a n s rfl
@[simp] theorem cntUp_force (a n : Nat) : (cntUp a n s).force = s.force := kept_cntUp (kept_same .force rfl s) a n s rfl
@[simp] theorem cntUp_dirty (a n : Nat) : (cntUp a n s).dirty = s.dirty := kept_cntUp (kept_same .dirty rfl s) a n s rfl
@[simp] theorem cntUp_dram (a n : Nat) : (cntUp a n s).dram = s.dram := kept_cntUp (kept_same .dram rfl s) a n s rfl
@[simp] theorem cntUp_dev (a n : Nat) : (cntUp a n s).dev = s.dev := kept_cntUp (kept_same .dev rfl s) a n s rfl
@[simp] theorem cntUp_groups (a n : Nat) : (cntUp a n s).groups = s.groups := kept_cntUp (kept_same .groups rfl s) a n s rfl
@[simp] theorem cntUp_present (a n : Nat) : (cntUp a n s).present = s.present := kept_cntUp (kept_same .present rfl s) a n s rfl
@[simp] theorem cntUp_damask (a n : Nat) : (cntUp a n s).damask = s.damask := kept_cntUp (kept_same .damask rfl s) a n s rfl
@[simp] theorem cntUp_clock (a n : Nat) : (cntUp a n s).clock = s.clock := kept_cntUp (kept_same .clock rfl s) a n s rfl
@[simp] theorem cntUp_links (a n : Nat) : (cntUp a n s).links = s.links := kept_cntUp (kept_same .links rfl s) a n s rfl
@[simp] theorem cntUp_mod (a n : Nat) : (cntUp a n s).mod = s.mod := kept_cntUp (kept_same .mod rfl s) a n s rfl
@[simp] theorem cntUp_units (a n : Nat) : (cntUp a n s).units = s.units := kept_cntUp (kept_same .units rfl s) a n s rfl
@[simp] theorem cntUp_gorse (a n : Nat) : (cntUp a n s).gorse = s.gorse := kept_cntUp (kept_same .gorse rfl s) a n s rfl
@[simp] theorem cntUp_conv (a n : Nat) : (cntUp a n s).conv = s.conv := kept_cntUp (kept_same .conv rfl s) a n s rfl
@[simp] theorem cntUp_time (a n : Nat) : (cntUp a n s).time = s.time := kept_cntUp (kept_same .time rfl s) a n s rfl
@[simp] theorem cntUp_eth (a n : Nat) : (cntUp a n s).eth = s.eth := kept_cntUp (kept_same .eth rfl s) a n s rfl
@[simp] theorem cntUp_meas (a n : Nat) : (cntUp a n s).meas = s.meas := kept_cntUp (kept_same .meas rfl s) a n s rfl
@[simp] theorem cntUp_meter (a n : Nat) : (cntUp a n s).meter = s.meter := kept_cntUp (kept_same .meter rfl s) a n s rfl
@[simp] theorem cntUp_bracken (a n : Nat) : (cntUp a n s).bracken = s.bracken := kept_cntUp (kept_same .bracken rfl s) a n s rfl
@[simp] theorem cntUp_host (a n : Nat) : (cntUp a n s).host = s.host := kept_cntUp (kept_same .host rfl s) a n s rfl
@[simp] theorem cntUp_therm (a n : Nat) : (cntUp a n s).therm = s.therm := kept_cntUp (kept_same .therm rfl s) a n s rfl
@[simp] theorem cntUp_power (a n : Nat) : (cntUp a n s).power = s.power := kept_cntUp (kept_same .power rfl s) a n s rfl
@[simp] theorem link_cntUp (a n : Nat) (i : Nat) : link (cntUp a n s) i = link s i := by rw [link, cntUp_links, link]
@[simp] theorem group_cntUp (a n : Nat) (i : Nat) : group (cntUp a n s) i = group s i := by rw [group, cntUp_groups, group]
@[simp] theorem munit_cntUp (a n : Nat) (i : Nat) : munit (cntUp a n s) i = munit s i := by rw [munit, cntUp_units, munit]

@[simp] theorem logEv_pending (code arg : Nat) : (logEv code arg s).pending = s.pending := kept_logEv (kept_same .pending rfl s) code arg s rfl
@[simp] theorem logEv_tick (code arg : Nat) : (logEv code arg s).tick = s.tick := kept_logEv (kept_same .tick rfl s) code arg s rfl
@[simp] theorem logEv_regs (code arg : Nat) : (logEv code arg s).regs = s.regs := kept_logEv (kept_same .regs rfl s) code arg s rfl
@[simp] theorem logEv_events (code arg : Nat) : (logEv code arg s).events = s.events := kept_logEv (kept_same .events rfl s) code arg s rfl
@[simp] theorem logEv_force (code arg : Nat) : (logEv code arg s).force = s.force := kept_logEv (kept_same .force rfl s) code arg s rfl
@[simp] theorem logEv_dirty (code arg : Nat) : (logEv code arg s).dirty = s.dirty := kept_logEv (kept_same .dirty rfl s) code arg s rfl
@[simp] theorem logEv_dram (code arg : Nat) : (logEv code arg s).dram = s.dram := kept_logEv (kept_same .dram rfl s) code arg s rfl
@[simp] theorem logEv_dev (code arg : Nat) : (logEv code arg s).dev = s.dev := kept_logEv (kept_same .dev rfl s) code arg s rfl
@[simp] theorem logEv_groups (code arg : Nat) : (logEv code arg s).groups = s.groups := kept_logEv (kept_same .groups rfl s) code arg s rfl
@[simp] theorem logEv_present (code arg : Nat) : (logEv code arg s).present = s.present := kept_logEv (kept_same .present rfl s) code arg s rfl
@[simp] theorem logEv_damask (code arg : Nat) : (logEv code arg s).damask = s.damask := kept_logEv (kept_same .damask rfl s) code arg s rfl
@[simp] theorem logEv_clock (code arg : Nat) : (logEv code arg s).clock = s.clock := kept_logEv (kept_same .clock rfl s) code arg s rfl
@[simp] theorem logEv_links (code arg : Nat) : (logEv code arg s).links = s.links := kept_logEv (kept_same .links rfl s) code arg s rfl
@[simp] theorem logEv_mod (code arg : Nat) : (logEv code arg s).mod = s.mod := kept_logEv (kept_same .mod rfl s) code arg s rfl
@[simp] theorem logEv_units (code arg : Nat) : (logEv code arg s).units = s.units := kept_logEv (kept_same .units rfl s) code arg s rfl
@[simp] theorem logEv_gorse (code arg : Nat) : (logEv code arg s).gorse = s.gorse := kept_logEv (kept_same .gorse rfl s) code arg s rfl
@[simp] theorem logEv_conv (code arg : Nat) : (logEv code arg s).conv = s.conv := kept_logEv (kept_same .conv rfl s) code arg s rfl
@[simp] theorem logEv_time (code arg : Nat) : (logEv code arg s).time = s.time := kept_logEv (kept_same .time rfl s) code arg s rfl
@[simp] theorem logEv_eth (code arg : Nat) : (logEv code arg s).eth = s.eth := kept_logEv (kept_same .eth rfl s) code arg s rfl
@[simp] theorem logEv_meas (code arg : Nat) : (logEv code arg s).meas = s.meas := kept_logEv (kept_same .meas rfl s) code arg s rfl
@[simp] theorem logEv_meter (code arg : Nat) : (logEv code arg s).meter = s.meter := kept_logEv (kept_same .meter rfl s) code arg s rfl
@[simp] theorem logEv_bracken (code arg : Nat) : (logEv code arg s).bracken = s.bracken := kept_logEv (kept_same .bracken rfl s) code arg s rfl
@[simp] theorem logEv_therm (code arg : Nat) : (logEv code arg s).therm = s.therm := kept_logEv (kept_same .therm rfl s) code arg s rfl
@[simp] theorem logEv_power (code arg : Nat) : (logEv code arg s).power = s.power := kept_logEv (kept_same .power rfl s) code arg s rfl
@[simp] theorem link_logEv (code arg : Nat) (i : Nat) : link (logEv code arg s) i = link s i := by rw [link, logEv_links, link]
@[simp] theorem group_logEv (code arg : Nat) (i : Nat) : group (logEv code arg s) i = group s i := by rw [group, logEv_groups, group]
@[simp] theorem munit_logEv (code arg : Nat) (i : Nat) : munit (logEv code arg s) i = munit s i := by rw [munit, logEv_units, munit]

@[simp] theorem vecRaise_pending (v : Nat) : (vecRaise v s).pending = s.pending := kept_vecRaise (kept_same .pending rfl s) v s rfl
@[simp] theorem vecRaise_tick (v : Nat) : (vecRaise v s).tick = s.tick := kept_vecRaise (kept_same .tick rfl s) v s rfl
@[simp] theorem vecRaise_events (v : Nat) : (vecRaise v s).events = s.events := kept_vecRaise (kept_same .events rfl s) v s rfl
@[simp] theorem vecRaise_force (v : Nat) : (vecRaise v s).force = s.force := kept_vecRaise (kept_same .force rfl s) v s rfl
@[simp] theorem vecRaise_dirty (v : Nat) : (vecRaise v s).dirty = s.dirty := kept_vecRaise (kept_same .dirty rfl s) v s rfl
@[simp] theorem vecRaise_dram (v : Nat) : (vecRaise v s).dram = s.dram := kept_vecRaise (kept_same .dram rfl s) v s rfl
@[simp] theorem vecRaise_dev (v : Nat) : (vecRaise v s).dev = s.dev := kept_vecRaise (kept_same .dev rfl s) v s rfl
@[simp] theorem vecRaise_groups (v : Nat) : (vecRaise v s).groups = s.groups := kept_vecRaise (kept_same .groups rfl s) v s rfl
@[simp] theorem vecRaise_present (v : Nat) : (vecRaise v s).present = s.present := kept_vecRaise (kept_same .present rfl s) v s rfl
@[simp] theorem vecRaise_damask (v : Nat) : (vecRaise v s).damask = s.damask := kept_vecRaise (kept_same .damask rfl s) v s rfl
@[simp] theorem vecRaise_clock (v : Nat) : (vecRaise v s).clock = s.clock := kept_vecRaise (kept_same .clock rfl s) v s rfl
@[simp] theorem vecRaise_links (v : Nat) : (vecRaise v s).links = s.links := kept_vecRaise (kept_same .links rfl s) v s rfl
@[simp] theorem vecRaise_mod (v : Nat) : (vecRaise v s).mod = s.mod := kept_vecRaise (kept_same .mod rfl s) v s rfl
@[simp] theorem vecRaise_units (v : Nat) : (vecRaise v s).units = s.units := kept_vecRaise (kept_same .units rfl s) v s rfl
@[simp] theorem vecRaise_gorse (v : Nat) : (vecRaise v s).gorse = s.gorse := kept_vecRaise (kept_same .gorse rfl s) v s rfl
@[simp] theorem vecRaise_conv (v : Nat) : (vecRaise v s).conv = s.conv := kept_vecRaise (kept_same .conv rfl s) v s rfl
@[simp] theorem vecRaise_eth (v : Nat) : (vecRaise v s).eth = s.eth := kept_vecRaise (kept_same .eth rfl s) v s rfl
@[simp] theorem vecRaise_meas (v : Nat) : (vecRaise v s).meas = s.meas := kept_vecRaise (kept_same .meas rfl s) v s rfl
@[simp] theorem vecRaise_meter (v : Nat) : (vecRaise v s).meter = s.meter := kept_vecRaise (kept_same .meter rfl s) v s rfl
@[simp] theorem vecRaise_bracken (v : Nat) : (vecRaise v s).bracken = s.bracken := kept_vecRaise (kept_same .bracken rfl s) v s rfl
@[simp] theorem vecRaise_therm (v : Nat) : (vecRaise v s).therm = s.therm := kept_vecRaise (kept_same .therm rfl s) v s rfl
@[simp] theorem vecRaise_power (v : Nat) : (vecRaise v s).power = s.power := kept_vecRaise (kept_same .power rfl s) v s rfl
@[simp] theorem link_vecRaise (v : Nat) (i : Nat) : link (vecRaise v s) i = link s i := by rw [link, vecRaise_links, link]
@[simp] theorem group_vecRaise (v : Nat) (i : Nat) : group (vecRaise v s) i = group s i := by rw [group, vecRaise_groups, group]
@[simp] theorem munit_vecRaise (v : Nat) (i : Nat) : munit (vecRaise v s) i = munit s i := by rw [munit, vecRaise_units, munit]

@[simp] theorem clkStick_pending (b : Nat) : (clkStick b s).pending = s.pending := kept_clkStick (kept_same .pending rfl s) b s rfl
@[simp] theorem clkStick_tick (b : Nat) : (clkStick b s).tick = s.tick := kept_clkStick (kept_same .tick rfl s) b s rfl
@[simp] theorem clkStick_force (b : Nat) : (clkStick b s).force = s.force := kept_clkStick (kept_same .force rfl s) b s rfl
@[simp] theorem clkStick_dirty (b : Nat) : (clkStick b s).dirty = s.dirty := kept_clkStick (kept_same .dirty rfl s) b s rfl
@[simp] theorem clkStick_dram (b : Nat) : (clkStick b s).dram = s.dram := kept_clkStick (kept_same .dram rfl s) b s rfl
@[simp] theorem clkStick_dev (b : Nat) : (clkStick b s).dev = s.dev := kept_clkStick (kept_same .dev rfl s) b s rfl
@[simp] theorem clkStick_groups (b : Nat) : (clkStick b s).groups = s.groups := kept_clkStick (kept_same .groups rfl s) b s rfl
@[simp] theorem clkStick_present (b : Nat) : (clkStick b s).present = s.present := kept_clkStick (kept_same .present rfl s) b s rfl
@[simp] theorem clkStick_damask (b : Nat) : (clkStick b s).damask = s.damask := kept_clkStick (kept_same .damask rfl s) b s rfl
@[simp] theorem clkStick_clock (b : Nat) : (clkStick b s).clock = s.clock := kept_clkStick (kept_same .clock rfl s) b s rfl
@[simp] theorem clkStick_links (b : Nat) : (clkStick b s).links = s.links := kept_clkStick (kept_same .links rfl s) b s rfl
@[simp] theorem clkStick_mod (b : Nat) : (clkStick b s).mod = s.mod := kept_clkStick (kept_same .mod rfl s) b s rfl
@[simp] theorem clkStick_units (b : Nat) : (clkStick b s).units = s.units := kept_clkStick (kept_same .units rfl s) b s rfl
@[simp] theorem clkStick_gorse (b : Nat) : (clkStick b s).gorse = s.gorse := kept_clkStick (kept_same .gorse rfl s) b s rfl
@[simp] theorem clkStick_conv (b : Nat) : (clkStick b s).conv = s.conv := kept_clkStick (kept_same .conv rfl s) b s rfl
@[simp] theorem clkStick_eth (b : Nat) : (clkStick b s).eth = s.eth := kept_clkStick (kept_same .eth rfl s) b s rfl
@[simp] theorem clkStick_meas (b : Nat) : (clkStick b s).meas = s.meas := kept_clkStick (kept_same .meas rfl s) b s rfl
@[simp] theorem clkStick_meter (b : Nat) : (clkStick b s).meter = s.meter := kept_clkStick (kept_same .meter rfl s) b s rfl
@[simp] theorem clkStick_bracken (b : Nat) : (clkStick b s).bracken = s.bracken := kept_clkStick (kept_same .bracken rfl s) b s rfl
@[simp] theorem clkStick_therm (b : Nat) : (clkStick b s).therm = s.therm := kept_clkStick (kept_same .therm rfl s) b s rfl
@[simp] theorem clkStick_power (b : Nat) : (clkStick b s).power = s.power := kept_clkStick (kept_same .power rfl s) b s rfl
@[simp] theorem link_clkStick (b : Nat) (i : Nat) : link (clkStick b s) i = link s i := by rw [link, clkStick_links, link]
@[simp] theorem group_clkStick (b : Nat) (i : Nat) : group (clkStick b s) i = group s i := by rw [group, clkStick_groups, group]
@[simp] theorem munit_clkStick (b : Nat) (i : Nat) : munit (clkStick b s) i = munit s i := by rw [munit, clkStick_units, munit]

@[simp] theorem setClk_pending (b : Nat) (v : Bool) : (setClk b v s).pending = s.pending := kept_setClk (kept_same .pending rfl s) b v s rfl
@[simp] theorem setClk_tick (b : Nat) (v : Bool) : (setClk b v s).tick = s.tick := kept_setClk (kept_same .tick rfl s) b v s rfl
@[simp] theorem setClk_events (b : Nat) (v : Bool) : (setClk b v s).events = s.events := kept_setClk (kept_same .events rfl s) b v s rfl
@[simp] theorem setClk_force (b : Nat) (v : Bool) : (setClk b v s).force = s.force := kept_setClk (kept_same .force rfl s) b v s rfl
@[simp] theorem setClk_dirty (b : Nat) (v : Bool) : (setClk b v s).dirty = s.dirty := kept_setClk (kept_same .dirty rfl s) b v s rfl
@[simp] theorem setClk_dram (b : Nat) (v : Bool) : (setClk b v s).dram = s.dram := kept_setClk (kept_same .dram rfl s) b v s rfl
@[simp] theorem setClk_dev (b : Nat) (v : Bool) : (setClk b v s).dev = s.dev := kept_setClk (kept_same .dev rfl s) b v s rfl
@[simp] theorem setClk_groups (b : Nat) (v : Bool) : (setClk b v s).groups = s.groups := kept_setClk (kept_same .groups rfl s) b v s rfl
@[simp] theorem setClk_present (b : Nat) (v : Bool) : (setClk b v s).present = s.present := kept_setClk (kept_same .present rfl s) b v s rfl
@[simp] theorem setClk_damask (b : Nat) (v : Bool) : (setClk b v s).damask = s.damask := kept_setClk (kept_same .damask rfl s) b v s rfl
@[simp] theorem setClk_clock (b : Nat) (v : Bool) : (setClk b v s).clock = s.clock := kept_setClk (kept_same .clock rfl s) b v s rfl
@[simp] theorem setClk_links (b : Nat) (v : Bool) : (setClk b v s).links = s.links := kept_setClk (kept_same .links rfl s) b v s rfl
@[simp] theorem setClk_mod (b : Nat) (v : Bool) : (setClk b v s).mod = s.mod := kept_setClk (kept_same .mod rfl s) b v s rfl
@[simp] theorem setClk_units (b : Nat) (v : Bool) : (setClk b v s).units = s.units := kept_setClk (kept_same .units rfl s) b v s rfl
@[simp] theorem setClk_gorse (b : Nat) (v : Bool) : (setClk b v s).gorse = s.gorse := kept_setClk (kept_same .gorse rfl s) b v s rfl
@[simp] theorem setClk_conv (b : Nat) (v : Bool) : (setClk b v s).conv = s.conv := kept_setClk (kept_same .conv rfl s) b v s rfl
@[simp] theorem setClk_time (b : Nat) (v : Bool) : (setClk b v s).time = s.time := kept_setClk (kept_same .time rfl s) b v s rfl
@[simp] theorem setClk_eth (b : Nat) (v : Bool) : (setClk b v s).eth = s.eth := kept_setClk (kept_same .eth rfl s) b v s rfl
@[simp] theorem setClk_meas (b : Nat) (v : Bool) : (setClk b v s).meas = s.meas := kept_setClk (kept_same .meas rfl s) b v s rfl
@[simp] theorem setClk_meter (b : Nat) (v : Bool) : (setClk b v s).meter = s.meter := kept_setClk (kept_same .meter rfl s) b v s rfl
@[simp] theorem setClk_bracken (b : Nat) (v : Bool) : (setClk b v s).bracken = s.bracken := kept_setClk (kept_same .bracken rfl s) b v s rfl
@[simp] theorem setClk_host (b : Nat) (v : Bool) : (setClk b v s).host = s.host := kept_setClk (kept_same .host rfl s) b v s rfl
@[simp] theorem setClk_therm (b : Nat) (v : Bool) : (setClk b v s).therm = s.therm := kept_setClk (kept_same .therm rfl s) b v s rfl
@[simp] theorem setClk_power (b : Nat) (v : Bool) : (setClk b v s).power = s.power := kept_setClk (kept_same .power rfl s) b v s rfl
@[simp] theorem link_setClk (b : Nat) (v : Bool) (i : Nat) : link (setClk b v s) i = link s i := by rw [link, setClk_links, link]
@[simp] theorem group_setClk (b : Nat) (v : Bool) (i : Nat) : group (setClk b v s) i = group s i := by rw [group, setClk_groups, group]
@[simp] theorem munit_setClk (b : Nat) (v : Bool) (i : Nat) : munit (setClk b v s) i = munit s i := by rw [munit, setClk_units, munit]

/-- The registers that an interrupt event may write: SRC_STATUS, the service copy, stamps and overrun bits. -/
theorem rd_vecRaise (v a : Nat) (hv : v < 64) (ha : ¬ intReg a) : rd (vecRaise v s) a = rd s a := by
  unfold intReg at ha
  unfold vecRaise
  simp only [rd_modHost, rd_modTime]
  split
  · rfl
  · rw [rd_wr_ne _ _ (by omega), rd_wr_ne _ _ (by omega), rd_wr_ne _ _ (by omega)]

/-- A hardware event on the register at a (R15): its word. -/
theorem rd_landWord (a b : Nat) (m v : Word) : rd (landWord a m v s) b = if b = a then v else rd s b := rd_wr _ _ _ _

theorem rd_orWord (a b : Nat) (m : Word) : rd (orWord a m s) b = if b = a then rd s a ||| m else rd s b := rd_wr _ _ _ _

theorem rd_orWord_ne {a b : Nat} (m : Word) (h : b ≠ a) : rd (orWord a m s) b = rd s b := rd_wr_ne _ _ h

theorem rd_irq (n a : Nat) (hn : n < 128) (ha : ¬ intReg a) : rd (irq n s) a = rd s a := by
  have h3 := ha
  unfold intReg at h3
  unfold irq
  extract_lets r b old s1 v
  have h1 : rd s1 a = rd s a := by
    unfold s1
    rw [rd_orWord_ne _ _ (by unfold aSvc r; omega), rd_orWord_ne _ _ (by unfold aSrcStatus r; omega)]
  have h2 : v < 64 := Nat.mod_lt _ (by decide)
  split
  · split
    · rw [rd_orWord_ne _ _ (by unfold aStampOvr; omega), h1]
    · split
      · exact h1
      · rw [rd_vecRaise _ _ _ h2 ha, h1]
  · exact h1

/-- A sticky write changes its own word and what an interrupt event may write. -/
theorem rd_stick (a m b : Nat) (src : Option Nat) (hs : ∀ n, src = some n → n < 128) (hb : ¬ intReg b) :
    rd (stick a m src s) b = if b = a then rd s a ||| wd m else rd s b := by
  unfold stick
  cases src with
  | none => exact rd_wr _ _ _ _
  | some n =>
    dsimp only
    split
    · exact rd_wr _ _ _ _
    · rw [rd_irq _ _ _ (hs n rfl) hb]
      exact rd_wr _ _ _ _

@[simp] theorem rd_logEv (code arg b : Nat) : rd (logEv code arg s) b = rd s b := rfl

/-- The time that an interrupt event leaves: only the held stamps change. -/
theorem irq_sec (n : Nat) : (irq n s).time.sec = s.time.sec ∧ (irq n s).time.ns = s.time.ns ∧
    (irq n s).time.servo = s.time.servo := by
  unfold irq vecRaise
  dsimp only
  split
  · split
    · exact ⟨rfl, rfl, rfl⟩
    · split
      · exact ⟨rfl, rfl, rfl⟩
      · split <;> exact ⟨rfl, rfl, rfl⟩
  · exact ⟨rfl, rfl, rfl⟩

/-! Loops over distinct numbers. -/

/-- A loop whose body at i changes only the i-th element: the element of a member is changed once. -/
theorem forEach_get {β : Type} (get : State → Nat → β) (f : Nat → State → State) (h : Nat → β → β)
    (hs : ∀ i t, get (f i t) i = h i (get t i)) (hn : ∀ i j t, j ≠ i → get (f i t) j = get t j) (l : List Nat)
    (hl : l.Nodup) (t : State) (j : Nat) : get (forEach l f t) j = if j ∈ l then h j (get t j) else get t j := by
  unfold forEach
  induction l generalizing t with
  | nil => simp
  | cons a l ih =>
    have hl' := List.nodup_cons.mp hl
    rw [List.foldl_cons, ih hl'.2]
    by_cases hj : j = a
    · subst hj
      simp [hl'.1, hs]
    · simp [hj, hn a j t hj]

/-- A loop with an invariant over the part of the list that is done. -/
theorem forEach_inv (f : Nat → State → State) (I : List Nat → State → Prop) (l : List Nat) (hl : l.Nodup) (s : State)
    (h0 : I [] s) (hs : ∀ d i t, i ∉ d → i ∈ l → I d t → I (d ++ [i]) (f i t)) : I l (forEach l f s) := by
  have key : ∀ (r d : List Nat) (t : State), d ++ r = l → I d t → I l (r.foldl (fun a i => f i a) t) := by
    intro r
    induction r with
    | nil =>
      intro d t h hI
      rw [List.append_nil] at h
      exact h ▸ hI
    | cons i r ih =>
      intro d t h hI
      have hn : i ∉ d := by
        intro hd
        rw [← h] at hl
        exact (List.disjoint_of_nodup_append hl) hd (by simp)
      exact ih (d ++ [i]) (f i t) (by simpa using h) (hs d i t hn (h ▸ by simp) hI)
  exact key l [] s rfl h0

theorem nodup_bitsOf (n v : Nat) : (bitsOf n v).Nodup := List.nodup_range.filter _

theorem mem_bitsOf (n v i : Nat) : i ∈ bitsOf n v ↔ i < n ∧ v.testBit i = true := by
  simp [bitsOf]

end Sys2Proof.Laws
end

