-- ==== Sys2Proof/Laws/Trip.lean ====
section
/-! SUPPORT. What the response to a protection source can do, said once (R36, R210 to R214, R220): the fields of State that
it writes, within links, groups, modulation, Gorse, the host interface and the registers too. -/

namespace Sys2Proof.Laws

open Sys2Proof Sys2Proof.Machine

/-- The registers that a response writes besides those of intReg. -/
def tripReg (a : Nat) : Prop := a = aGorseSticky ∨ a = aModSticky ∨ a = aTripCnt ∨ a = aBlankPendCnt ∨ a = aXchkCnt

/-- A link without what a response writes: block runs with the symbols they replace, the stop of DCK and BLK. -/
def linkCore (x : Link) : Link :=
  { x with txBlock := false, stopDue := false, blk := false, gorseBlock := false, wzRun := 0, frame := [], runFrames := 0 }

/-- Modulation without enables, the clockless latch, the pairs and the cells. -/
def modCore (m : Mod) : Mod :=
  { m with en := 0, enStaged := 0, enDirty := 0, asyncSafe := false, asyncBy := [], pairs := [], cells := [] }

/-- Gorse without causes, records and the safe-stop sequence. -/
def gorseCore (g : Gorse) : Gorse :=
  { g with
    mismatch := none, snapBlank := [], latch := 0, tripId := 0, eventOpen := false, eventTick := 0, snapTick := none, snapState := .run, snapDt := 0
    snapH := 0, snapL := 0, recSeq := 0, recHead := 0, recRead := 0, recUsed := 0, recs := [], recTick := []
    ssRunning := false, ssSteps := [], ssStep := 0, ssAt := 0, ssMaxMs := 0, ssWaiting := false, ssArmed := false
    ssReady := false, blockActive := false }

/-- The host interface without pending vectors, messages and the event log. -/
def hostCore (h : HostIf) : HostIf := { h with vecPend := 0, pba := 0, msgs := [], evlog := [], evHead := 0 }

/-- A property that every update of a response keeps, but for the change of the device state. -/
structure KeptR (P : State → Prop) : Prop where
  reg : ∀ a v s, tripReg a ∨ intReg a → Holds P s → Holds P (wr a v s)
  event : ∀ a f s, Holds P s → Holds P (noteEvent a f s)
  link : ∀ l f s, (∀ x, linkCore (f x) = linkCore x) → Holds P s → Holds P (modLink l f s)
  group : ∀ g (e : Nat × Nat → Nat × Nat) s, Holds P s → Holds P (modGroup g (fun x => { x with takenEn := e x.takenEn }) s)
  modF : ∀ f s, (∀ m, modCore (f m) = modCore m) → (∀ m, (f m).en &&& m.en = (f m).en) → Holds P s → Holds P (modMod f s)
  pair : ∀ p f s, Holds P s → Holds P (modPair p f s)
  cell : ∀ c f s, Holds P s → Holds P (modVCell c f s)
  gorse : ∀ f s, (∀ g, gorseCore (f g) = gorseCore g) → (∀ g, g.latch &&& (f g).latch = g.latch) →
    Holds P s → Holds P (modGorse f s)
  host : ∀ f s, (∀ h, hostCore (f h) = hostCore h) → Holds P s → Holds P (modHost f s)
  time : ∀ f s, (∀ t : TimeEng, { f t with stampHeld := 0 } = { t with stampHeld := 0 }) → Holds P s → Holds P (modTime f s)
  meas : ∀ f s, Holds P s → Holds P (modMeas f s)
  power : ∀ f s, (∀ p : Power, ({ f p with waking := false, wakeCause := 0, wakeWc := 0, wakeEv := none } : Power)
    = { p with waking := false, wakeCause := 0, wakeWc := 0, wakeEv := none }) → Holds P s → Holds P (modPower f s)

/-- A property that a response keeps. -/
structure KeptB (P : State → Prop) : Prop extends KeptR P where
  stop : ∀ s, s.dev = .run → Holds P s → Holds P { s with dev := .safeStop }
  trip : ∀ s, s.dev = .run ∨ s.dev = .safeStop → Holds P s → Holds P { s with dev := .tripped }

variable {P : State → Prop}

theorem and_or_self (a b : Nat) : a &&& (a ||| b) = a := by
  apply Nat.eq_of_testBit_eq
  intro i
  simp only [Nat.testBit_and, Nat.testBit_or]
  cases a.testBit i <;> simp

theorem kb_onlyIf (b : Bool) (f : State → State) (s : State) (hf : ∀ s, Holds P s → Holds P (f s)) (h : Holds P s) :
    Holds P (onlyIf b f s) := by
  unfold onlyIf
  exact holds_if (fun _ => hf s h) (fun _ => h)

theorem kb_vecRaise (kp : KeptR P) (v : Nat) (s : State) (hv : v < 64) (h : Holds P s) : Holds P (vecRaise v s) := by
  unfold vecRaise
  dsimp only
  refine kp.host _ _ (fun _ => rfl) (kp.time _ _ (fun _ => rfl) (holds_if (fun _ => h) (fun _ => ?_)))
  exact kp.reg _ _ _ (by unfold intReg; omega) (kp.reg _ _ _ (by unfold intReg; omega)
    (kp.reg _ _ _ (by unfold intReg; omega) h))

theorem kb_landWord (kp : KeptR P) (a : Nat) (m v : Word) (s : State) (ha : tripReg a ∨ intReg a) (h : Holds P s) :
    Holds P (landWord a m v s) := kp.reg _ _ _ ha (kp.event _ _ _ h)

theorem kb_orWord (kp : KeptR P) (a : Nat) (m : Word) (s : State) (ha : tripReg a ∨ intReg a) (h : Holds P s) :
    Holds P (orWord a m s) := kb_landWord kp _ _ _ _ ha h

theorem kb_cntSat (kp : KeptR P) (a n : Nat) (s : State) (ha : tripReg a ∨ intReg a) (h : Holds P s) :
    Holds P (cntSat a n s) := kp.reg _ _ _ ha (kp.event _ _ _ h)

theorem kb_irq (kp : KeptR P) (n : Nat) (s : State) (hn : n < 128) (h : Holds P s) : Holds P (irq n s) := by
  have a1 : intReg (aSrcStatus (n / 32)) := by unfold intReg aSrcStatus; omega
  have a2 : intReg (aSvc (0x30 + 4 * (n / 32))) := by unfold intReg aSvc; omega
  have hv : ∀ w, fld w 0 6 < 64 := fun w => Nat.mod_lt _ (by decide)
  unfold irq
  extract_lets r b old s1 v
  have h1 : Holds P s1 := kb_orWord kp _ _ _ (Or.inr a2) (kb_orWord kp _ _ _ (Or.inr a1) h)
  have hv' : v < 64 := hv _
  exact holds_if (fun _ => holds_if (fun _ => kb_orWord kp _ _ _ (Or.inr (by unfold intReg aStampOvr; omega)) h1)
    (fun _ => holds_if (fun _ => h1) (fun _ => kb_vecRaise kp _ _ hv' h1))) (fun _ => h1)

theorem kb_stick (kp : KeptR P) (a m : Nat) (src : Option Nat) (s : State) (ha : tripReg a)
    (hs : ∀ n, src = some n → n < 128) (h : Holds P s) : Holds P (stick a m src s) := by
  unfold stick
  extract_lets old new s1
  have h1 : Holds P s1 := kb_orWord kp _ _ _ (Or.inl ha) h
  cases src with
  | none => exact h1
  | some n => exact holds_if (fun _ => h1) (fun _ => kb_irq kp _ _ (hs n rfl) h1)

theorem kb_modStick (kp : KeptR P) (b : Nat) (s : State) (h : Holds P s) : Holds P (modStick b s) :=
  kb_stick kp _ _ _ _ (by unfold tripReg; decide) (fun n e => by cases e; decide) h

theorem kb_gorseStick (kp : KeptR P) (b : Nat) (s : State) (h : Holds P s) : Holds P (gorseStick b s) :=
  kb_stick kp _ _ _ _ (by unfold tripReg; decide) (fun n e => by cases e) h

theorem kb_logEv (kp : KeptR P) (code arg : Nat) (s : State) (h : Holds P s) : Holds P (logEv code arg s) :=
  kp.host _ _ (fun _ => rfl) h

theorem kb_trips (kp : KeptR P) (n : Nat) (s : State) (h : Holds P s) : Holds P (cntSat aTripCnt n s) :=
  kb_cntSat kp _ _ _ (Or.inl (by unfold tripReg; decide)) h

theorem kb_blanks (kp : KeptR P) (n : Nat) (s : State) (h : Holds P s) : Holds P (cntSat aBlankPendCnt n s) :=
  kb_cntSat kp _ _ _ (Or.inl (by unfold tripReg; decide)) h

theorem kb_settleBlank (kp : KeptR P) (s : State) (h : Holds P s) : Holds P (settleBlank s) :=
  holds_forEach _ (fun _ _ h => holds_if (fun _ => kp.pair _ _ _ (kb_onlyIf _ _ _ (fun _ h => kb_blanks kp _ _ h) h))
    (fun _ => h)) _ _ h

theorem kb_recTrigger (kp : KeptR P) (mask : Nat) (s : State) (h : Holds P s) : Holds P (recTrigger mask s) :=
  holds_if (fun _ => h) (fun _ => holds_if (fun _ => kp.meas _ _ h) (fun _ => kp.meas _ _ h))

theorem kb_wake (kp : KeptR P) (c w : Nat) (s : State) (h : Holds P s) : Holds P (wake c w s) := by
  have h0 : Holds P (if (wakeNow s).isSome then s else modPower (fun p => { p with wakeEv := some (s.tick, c, w) }) s) :=
    holds_if (fun _ => h) (fun _ => kp.power _ _ (fun _ => rfl) h)
  exact holds_if (fun _ => kp.power _ _ (fun _ => rfl) h0) (fun _ => h0)

theorem kb_startRun (kp : KeptR P) (stop : Bool) (l : Nat) (s : State) (h : Holds P s) : Holds P (startRun stop l s) :=
  kp.link _ _ _ (fun _ => rfl) h

theorem kb_blockLink (kp : KeptR P) (stop : Bool) (l : Nat) (s : State) (h : Holds P s) : Holds P (blockLink stop l s) :=
  holds_if (fun _ => kb_startRun kp _ _ _ h) (fun _ => h)

theorem kb_blockWz (kp : KeptR P) (l : Nat) (s : State) (h : Holds P s) : Holds P (blockWz l s) :=
  holds_if (fun _ => kp.link _ _ _ (fun _ => rfl) h) (fun _ => h)

theorem kb_setDev (kp : KeptR P) (d : DevState) (s : State) (hd : Holds P { s with dev := d }) (h : Holds P s) :
    Holds P (setDev d s) :=
  holds_if (fun _ => h) (fun _ => kb_irq kp _ _ (by decide) (kb_logEv kp _ _ _ hd))

theorem kb_snap (kp : KeptR P) (s : State) (h : Holds P s) : Holds P (snap s) :=
  holds_if (fun _ => h) (fun _ => kp.gorse _ _ (fun _ => rfl) (fun _ => Nat.and_self _) h)

theorem kb_record (kp : KeptR P) (n layer action links pairs : Nat) (blank : Option (Nat × Nat)) (s : State)
    (h : Holds P s) : Holds P (record n layer action links pairs blank s) := by
  unfold record
  extract_lets t fresh s1 r same sec ns w0 w3 w5 w6 ws s2 s3 s4 s5
  have h0 : Holds P t := kb_snap kp _ h
  have h1 : Holds P s1 := holds_if (fun _ => kb_trips kp _ _ (kp.gorse _ _ (fun _ => rfl) (fun _ => Nat.and_self _) h0)) (fun _ => h0)
  have h2 : Holds P s2 := kb_onlyIf _ _ _ (fun _ h => kb_gorseStick kp _ _ h) h1
  have h3 : Holds P s3 := kp.gorse _ _ (fun _ => rfl) (fun _ => Nat.and_self _) h2
  have h4 : Holds P s4 := by
    refine holds_forEach _ (fun q t h => ?_) _ _ h3
    exact kp.gorse _ _ (fun _ => rfl) (fun _ => Nat.and_self _) h
  exact kb_wake kp _ _ _ (kb_recTrigger kp _ _ (kb_irq kp _ _ (by decide) (kb_logEv kp _ _ _ h4)))

theorem kb_asyncSet (kp : KeptR P) (n : Nat) (s : State) (h : Holds P s) : Holds P (asyncSet n s) :=
  kb_modStick kp _ _ (kp.modF _ _ (fun _ => rfl) (fun _ => Nat.and_self _) h)

theorem kb_clearEnables (kp : KeptR P) (s : State) (h : Holds P s) : Holds P (clearEnables s) :=
  holds_forEach _ (fun _ _ h => holds_if (fun _ => h) (fun _ => kp.group _ (fun _ => (0, 0)) _ h)) _ _
    (kp.modF _ _ (fun _ => rfl) (fun _ => Nat.zero_and _) h)

theorem kb_applySafe (kp : KeptR P) (s : State) (h : Holds P s) : Holds P (applySafe s) := by
  unfold applySafe
  extract_lets s1
  have h1 : Holds P s1 := by
    refine holds_forEach _ (fun p t h => ?_) _ _ h
    unfold dropPair
    exact kp.pair _ _ _ h
  refine holds_forEach _ (fun l t h => ?_) _ _ h1
  exact kb_blockLink kp _ _ _ (holds_if (fun _ => h) (fun _ => kp.link _ _ _ (fun _ => rfl) h))

theorem kb_tripEnter (kp : KeptB P) (n : Nat) (s : State) (h : Holds P s) : Holds P (tripEnter n s) := by
  unfold tripEnter
  refine holds_if (fun hd => ?_) (fun _ => h)
  extract_lets s1 s2 s3
  have low : ∀ Q, KeptR Q → Holds Q s → Holds Q s3 := by
    intro Q k h
    have h1 : Holds Q s1 := kb_applySafe k _ (kb_asyncSet k _ _ (kb_snap k _ h))
    have h2 : Holds Q s2 := holds_forEach _ (fun _ _ h => kb_blockWz k _ _ h) _ _ h1
    exact k.gorse _ _ (fun _ => rfl) (fun _ => Nat.and_self _) (kb_clearEnables k _ h2)
  have e : s3.dev = s.dev :=
    low (fun t => t.dev = s.dev) (by constructor <;> intros <;> assumption) rfl
  have hd' : s3.dev = .run ∨ s3.dev = .safeStop := by
    rw [e]
    exact hd
  have h3 : Holds P s3 := low P kp.toKeptR h
  exact kb_settleBlank kp.toKeptR _ (kb_setDev kp.toKeptR _ _ (kp.trip _ hd' h3) h3)

theorem kb_ssEnd (kp : KeptR P) (s : State) (h : Holds P s) : Holds P (ssEnd s) := by
  unfold ssEnd
  exact kb_settleBlank kp _ (kb_applySafe kp _ (kb_asyncSet kp _ _ (kb_clearEnables kp _ (kp.gorse _ _ (fun _ => rfl) (fun _ => Nat.and_self _) h))))

theorem kb_dropFresh (kp : KeptR P) (s : State) (h : Holds P s) : Holds P (dropFresh s) := by
  unfold dropFresh
  extract_lets f s1 s2
  refine holds_if (fun _ => h) (fun _ => ?_)
  refine holds_forEach _ (fun c t h => ?_) _ _ ?_
  · exact kp.cell _ _ _ (kp.link _ _ _ (fun _ => rfl) h)
  refine holds_forEach _ (fun p t h => ?_) _ _ ?_
  · exact kp.pair _ _ _ h
  refine holds_forEach _ (fun g t h => ?_) _ _ h
  exact kp.group g (fun e => (e.1, e.2 &&& t.mod.en)) t h

theorem kb_enterSafeStop (kp : KeptB P) (s : State) (h : Holds P s) : Holds P (enterSafeStop s) := by
  unfold enterSafeStop
  refine holds_if (fun hd => ?_) (fun _ => h)
  extract_lets c s1 s2 s3
  have h1 : Holds P s1 := kb_setDev kp.toKeptR _ _ (kp.stop _ hd h) h
  have h2 : Holds P s2 := kb_dropFresh kp.toKeptR _ (kp.modF _ _ (fun _ => rfl) (fun _ => Nat.and_self _) h1)
  have h3 : Holds P s3 := kp.gorse _ _ (fun _ => rfl) (fun _ => Nat.and_self _) h2
  exact holds_if (fun _ => kb_ssEnd kp.toKeptR _ h3) (fun _ => h3)

theorem kb_blockAct (kp : KeptR P) (links pairs : Nat) (s : State) (h : Holds P s) : Holds P (blockAct links pairs s) := by
  unfold blockAct
  extract_lets s1 s2
  have h1 : Holds P s1 := by
    refine holds_forEach _ (fun l t h => ?_) _ _ h
    exact kb_blockLink kp _ _ _ (kp.link _ _ _ (fun _ => rfl) h)
  have h2 : Holds P s2 := by
    refine holds_forEach _ (fun p t h => ?_) _ _ h1
    exact kp.pair _ _ _ h
  exact kb_settleBlank kp _ (kp.gorse _ _ (fun _ => rfl) (fun _ => Nat.and_self _) h2)

theorem kb_fabric (kp : KeptB P) (n : Nat) (bs : Bool) (va vb : Nat) (again : Bool) (blank : Option (Nat × Nat)) (s : State)
    (h : Holds P s) : Holds P (fabric n bs va vb again blank s) := by
  unfold fabric
  extract_lets t acts has k3 bsTrip wantTrip wantSs live bl bp latching latched v action links pairs s1 s2 s3
  have h0 : Holds P t := kb_snap kp.toKeptR _ h
  have h1 : Holds P s1 := kb_onlyIf _ _ _ (fun _ h => kb_record kp.toKeptR _ _ _ _ _ _ _ h) h0
  have h2 : Holds P s2 := holds_if (fun _ => kp.toKeptR.gorse _ _ (fun _ => rfl) (fun _ => and_or_self _ _) h1) (fun _ => h1)
  have h3 : Holds P s3 := holds_if (fun _ => kb_blockAct kp.toKeptR _ _ _ h2) (fun _ => h2)
  exact holds_if (fun _ => h) (fun _ => holds_if (fun _ => kb_tripEnter kp _ _ h3)
    (fun _ => holds_if (fun _ => kb_enterSafeStop kp _ h3) (fun _ => h3)))

theorem kb_xchk (kp : KeptR P) (n : Nat) (s : State) (h : Holds P s) : Holds P (xchk n s) :=
  holds_if (fun _ => kb_gorseStick kp _ _ (kb_cntSat kp _ _ _ (Or.inl (by unfold tripReg; decide))
    (kp.gorse _ _ (fun _ => rfl) (fun _ => Nat.and_self _) h))) (fun _ => h)

/-- What the assertion of a B source can do. -/
theorem kb_bAssert (kp : KeptB P) (n : Nat) (blank : Option (Nat × Nat)) (s : State) (h : Holds P s) :
    Holds P (bAssert n blank s) :=
  holds_if (fun _ => kb_logEv kp.toKeptR _ _ _ h) (fun _ => kb_fabric kp _ _ _ _ _ _ _ (kb_xchk kp.toKeptR _ _ h))

/-! Its frame. -/

theorem keptB_same (p : Part) (h : partMask [.regs, .events, .dev, .groups, .links, .mod, .gorse, .time, .meas, .host, .power]
    &&& partBit p = 0) (s : State) : KeptB (samePart p s) := by
  refine ⟨?_, ?_, ?_⟩
  case refine_1 => constructor <;> intros <;> cases p <;> first | assumption | (simp [partMask, partBit] at h)
  all_goals intros; cases p <;> first | assumption | (simp [partMask, partBit] at h)

theorem keptB_regs (s : State) : KeptB (fun t => ∀ a, ¬ tripReg a → ¬ intReg a → rd t a = rd s a) := by
  refine ⟨?_, fun _ _ h => h, fun _ _ h => h⟩
  constructor
  case reg =>
    intro a v t ha h b hb hb2
    rw [rd_wr_ne _ _ (by rintro rfl; exact ha.elim hb hb2)]
    exact h b hb hb2
  all_goals intros; assumption

theorem keptB_links (s : State) : KeptB (fun t => ∀ l, linkCore (link t l) = linkCore (link s l)) := by
  refine ⟨?_, fun _ _ h => h, fun _ _ h => h⟩
  constructor
  case link =>
    intro l f t hf h j
    by_cases hj : j = l
    · subst hj
      rw [link_modLink_self, hf]
      exact h j
    · rw [link_modLink_ne _ _ hj]
      exact h j
  all_goals intros; assumption

theorem keptB_gorse (s : State) : KeptB (fun t => gorseCore t.gorse = gorseCore s.gorse) := by
  refine ⟨?_, fun _ _ h => h, fun _ _ h => h⟩
  constructor
  case gorse =>
    intro f t hf _ h
    exact (hf _).trans h
  all_goals intros; assumption

/-- Causes stay latched. -/
theorem keptB_latch (m : Nat) : KeptB (fun t => m &&& t.gorse.latch = m) := by
  refine ⟨?_, fun _ _ h => h, fun _ _ h => h⟩
  constructor
  case gorse =>
    intro f t _ hl h
    show m &&& (f t.gorse).latch = m
    exact and_sub h (hl _)
  all_goals intros; assumption

/-- No enable comes into force. -/
theorem keptB_en (s : State) : KeptB (fun t => t.mod.en &&& s.mod.en = t.mod.en) := by
  refine ⟨?_, fun _ _ h => h, fun _ _ h => h⟩
  constructor
  case modF =>
    intro f t _ he h
    show (f t.mod).en &&& s.mod.en = (f t.mod).en
    exact and_sub (he _) h
  all_goals intros; assumption

theorem keptB_host (s : State) : KeptB (fun t => hostCore t.host = hostCore s.host) := by
  refine ⟨?_, fun _ _ h => h, fun _ _ h => h⟩
  constructor
  case host =>
    intro f t hf h
    exact (hf _).trans h
  all_goals intros; assumption

theorem keptB_time (s : State) :
    KeptB (fun t => ({ t.time with stampHeld := 0 } : TimeEng) = { s.time with stampHeld := 0 }) := by
  refine ⟨?_, fun _ _ h => h, fun _ _ h => h⟩
  constructor
  case time =>
    intro f t hf h
    exact (hf _).trans h
  all_goals intros; assumption

theorem keptB_groups (s : State) :
    KeptB (fun t => ∀ g, ({ group t g with takenEn := (0, 0) } : Group) = { group s g with takenEn := (0, 0) }) := by
  refine ⟨?_, fun _ _ h => h, fun _ _ h => h⟩
  constructor
  case group =>
    intro g e t h j
    by_cases hj : j = g
    · subst hj
      rw [group_modGroup_self]
      exact h j
    · rw [group_modGroup_ne _ _ hj]
      exact h j
  all_goals intros; assumption

/-! A trip. -/

theorem settleBlank_dev (s : State) : (settleBlank s).dev = s.dev := kept_settleBlank (kept_same .dev rfl s) s rfl

theorem clearEnables_en (s : State) : (clearEnables s).mod.en = 0 := by
  have h : Holds (samePart .mod (modMod (fun m => { m with en := 0, enStaged := 0, enDirty := 0 }) s)) (clearEnables s) := by
    unfold clearEnables
    refine holds_forEach _ (fun g t h => ?_) _ _ rfl
    exact holds_if (fun _ => h) (fun _ => kept_modGroup (kept_same .mod rfl _) _ _ _ h)
  have h2 : (clearEnables s).mod = (modMod (fun m => { m with en := 0, enStaged := 0, enDirty := 0 }) s).mod := h
  rw [h2]
  rfl

/-- tripEnter in RUN or SAFE-STOP: TRIPPED, and no enable is in force (R36, R163). -/
theorem tripEnter_trip (n : Nat) (s : State) (hd : s.dev = .run ∨ s.dev = .safeStop) :
    (tripEnter n s).dev = .tripped ∧ (tripEnter n s).mod.en = 0 := by
  unfold tripEnter
  rw [if_pos hd]
  extract_lets s1 s2 s3
  have d3 : s3.dev ≠ .tripped := by
    have e : s3.dev = s.dev := by
      have k1 : Holds (samePart .dev s) s1 := kept_applySafe (kept_same .dev rfl s) _
        (kept_asyncSet (kept_same .dev rfl s) _ _ (kept_snap (kept_same .dev rfl s) _ rfl))
      have k2 : Holds (samePart .dev s) s2 := holds_forEach _ (fun _ _ h => kept_blockWz (kept_same .dev rfl s) _ _ h) _ _ k1
      exact kept_modGorse (kept_same .dev rfl s) ssClear _ (kept_clearEnables (kept_same .dev rfl s) s2 k2)
    rw [e]
    rcases hd with h | h <;> rw [h] <;> decide
  have dd : (setDev .tripped s3).dev = .tripped := by
    unfold setDev
    rw [if_neg d3, irq_dev, logEv_dev]
  have de : (setDev .tripped s3).mod = s3.mod := by
    unfold setDev
    rw [if_neg d3, irq_mod, logEv_mod]
  have en : s3.mod.en = 0 := by
    have e3 : s3 = modGorse ssClear (clearEnables s2) := rfl
    rw [e3, modGorse_mod]
    exact clearEnables_en s2
  refine ⟨(settleBlank_dev _).trans dd, ?_⟩
  have h5 : (settleBlank (setDev .tripped s3)).mod.en &&& (setDev .tripped s3).mod.en
      = (settleBlank (setDev .tripped s3)).mod.en := kb_settleBlank (keptB_en _).toKeptR _ (Nat.and_self _)
  rw [de, en, Nat.and_zero] at h5
  exact h5.symm

/-- A source that the backstop takes and answers by a trip, in RUN or SAFE-STOP: TRIPPED, its cause latched, no enable in force
(R36, R163, R210). -/
theorem fabric_trip (n va vb : Nat) (blank : Option (Nat × Nat)) (s : State) (hn : isWdogOrSs n = false)
    (hk : (decide (36 ≤ n) && decide (n < 72) && bit (rd s aBsCfg) 0) = false) (hd : s.dev = .run ∨ s.dev = .safeStop) :
    (fabric n true va vb false blank s).dev = .tripped ∧ (fabric n true va vb false blank s).gorse.latch.testBit n = true
      ∧ (fabric n true va vb false blank s).mod.en = 0 := by
  unfold fabric
  extract_lets t acts has k3 bsTrip wantTrip wantSs live bl bp latching latched v action links pairs s1 s2 s3
  have hr : rd t aBsCfg = rd s aBsCfg := rd_of_regs (kept_snap (kept_same .regs rfl s) s rfl) _
  have e3 : k3 = false := by
    show (true && decide (36 ≤ n) && decide (n < 72) && bit (rd t aBsCfg) 0) = false
    rw [hr]
    simpa using hk
  have eT : wantTrip = true := by
    show (true && !isWdogOrSs n && !k3 || has ActClass.trip) = true
    rw [hn, e3]
    rfl
  have eL : latching = true := by
    show (true || _ || _ || _) = true
    simp
  rw [if_neg (by simp [eL]), if_pos eT]
  have keep : ∀ Q, KeptR Q → Holds Q s2 → Holds Q s3 := fun Q k h => holds_if (fun _ => kb_blockAct k _ _ _ h) (fun _ => h)
  have kd : KeptR (fun u => u.dev = s.dev) := by constructor <;> intros <;> assumption
  have h3 : s3.dev = s.dev := by
    refine keep _ kd ?_
    have h0 : Holds (fun u => u.dev = s.dev) t := kb_snap kd _ rfl
    have h1 : Holds (fun u => u.dev = s.dev) s1 := kb_onlyIf _ _ _ (fun _ h => kb_record kd _ _ _ _ _ _ _ h) h0
    exact holds_if (fun _ => kd.gorse _ _ (fun _ => rfl) (fun _ => and_or_self _ _) h1) (fun _ => h1)
  have hl2 : (2 ^ n) &&& s2.gorse.latch = 2 ^ n := by
    have : s2 = modGorse (fun g => { g with latch := g.latch ||| 2 ^ n }) s1 := if_pos eL
    rw [this, modGorse_gorse, Nat.or_comm, and_or_self]
  have hl3 : (2 ^ n) &&& s3.gorse.latch = 2 ^ n := keep _ (keptB_latch (2 ^ n)).toKeptR hl2
  have hl4 : (2 ^ n) &&& (tripEnter n s3).gorse.latch = 2 ^ n := kb_tripEnter (keptB_latch (2 ^ n)) n s3 hl3
  obtain ⟨a, b⟩ := tripEnter_trip n s3 (by rw [h3]; exact hd)
  refine ⟨a, ?_, b⟩
  have := congrArg (fun m => m.testBit n) hl4
  simpa [Nat.testBit_and] using this

/-- The same of a B source that asserts, with the cross-check of its cycle (R210, R215). -/
theorem bAssert_trip (n : Nat) (blank : Option (Nat × Nat)) (s : State) (hn : isWdogOrSs n = false)
    (hk : (decide (36 ≤ n) && decide (n < 72) && bit (rd s aBsCfg) 0) = false) (hd : s.dev = .run ∨ s.dev = .safeStop) :
    (bAssert n blank s).dev = .tripped ∧ (bAssert n blank s).gorse.latch.testBit n = true ∧ (bAssert n blank s).mod.en = 0 := by
  have h1 : ¬ ((n = 186 ∨ n = 187) ∧ (s.dev = .tripped ∨ s.dev = .safeStop)) := by
    rintro ⟨rfl | rfl, _⟩ <;> simp [isWdogOrSs] at hn
  have hx : rd (xchk n s) aBsCfg = rd s aBsCfg :=
    kb_xchk (keptB_regs s).toKeptR n s (fun _ _ _ => rfl) _ (by unfold tripReg; decide) (by unfold intReg; decide)
  have hdx : (xchk n s).dev = s.dev := kept_xchk (kept_same .dev rfl s) n s rfl
  unfold bAssert
  rw [if_neg h1]
  exact fabric_trip n _ _ blank _ hn (by rw [hx]; exact hk) (by rw [hdx]; exact hd)

end Sys2Proof.Laws
end

