-- ==== Sys2Proof/WellFormed.lean ====
section
/-! DEFINITION. When a command's operands are as the rules give them: lengths of superframes, training blocks, service
transactions and BAR2 accesses, ranges of message fields. A typed operand needs no check. -/

namespace Sys2Proof

/-- The command's operands lie within what its rule gives them. -/
def Instr.wellFormed (i : Instr) : Bool :=
  match i with
  | .commitReq _ => true
  | .cutoff _ => true
  | .periodBoundary _ => true
  | .mirrorCopyEnd _ => true
  | .coefCopyDone _ => true
  | .muComputeStart _ => true
  | .muComputeDone _ => true
  | .midCutoff _ => true
  | .midPeriodTransfer _ => true
  | .gateEdge _ _ => true
  | .clockGroupStart => true
  | .imageActivation => true
  | .selfCal _ _ => true
  | .tileLoad _ _ _ _ => true
  | .tileSwap _ _ _ _ _ => true
  | .linkTrain _ _ _ => true
  | .offstateDiag _ _ _ _ => true
  | .cmpSelftest _ _ => true
  | .histCapture _ _ _ _ _ _ => true
  | .waveDump _ _ _ => true
  | .twLocate _ _ _ => true
  | .mramScrub _ _ => true
  | .badOpcode _ op =>
    op == 0 || decide (10 < op.toNat)
  | .opStart _ => true
  | .sectionProgramDone _ _ => true
  | .suspend _ => true
  | .resume _ => true
  | .cancel _ => true
  | .svcOpCancel _ => true
  | .opSuspensionPoint _ => true
  | .tileDiscard _ => true
  | .scrubSweep _ => true
  | .keyProg _ => true
  | .keyProgDone _ => true
  | .qspiReadDone _ _ => true
  | .bar2Write off data =>
    decide (off.toNat + data.length ≤ 2 ^ 27)
  | .bar2Read off len _ =>
    decide (off.toNat + len ≤ 2 ^ 27)
  | .refclkDetect _ => true
  | .rootLock => true
  | .mLock => true
  | .dividerRelease => true
  | .refLoss => true
  | .wzRefLoss => true
  | .rootLol => true
  | .mLol => true
  | .fineCalFail _ => true
  | .lockReacquired _ => true
  | .sscApply _ => true
  | .profileOrigin => true
  | .refSelWrite _ => true
  | .clkMon _ => true
  | .phaseAcquired _ _ => true
  | .upLock _ => true
  | .alignTimeout _ => true
  | .markerErr _ => true
  | .phaseLimit _ => true
  | .ebufErr _ => true
  | .trainingBlockRx _ groups =>
    groups.length == 256
  | .capTimeout _ => true
  | .checkWindowDone _ => true
  | .ackTimeout _ => true
  | .countdownEnd _ => true
  | .dckRestart _ => true
  | .fallbackConfirm _ => true
  | .linkTrainDone => true
  | .bitslipUp _ => true
  | .bitslipDown _ => true
  | .alignModeChange _ => true
  | .loopWrite _ _ => true
  | .loopFail _ => true
  | .ddtSkewApply _ => true
  | .downstreamSuperframeStart _ => true
  | .upstreamSuperframeRx _ groups _ =>
    groups.length == 256
  | .echoLoss _ => true
  | .latencyUpdate _ => true
  | .asymTrimWrite _ _ => true
  | .k28_3Rx _ => true
  | .dckStop _ => true
  | .edge _ _ _ _ _ coarse fine =>
    decide (1 ≤ coarse.length) && fine.length == coarse.length && coarse.all (fun c => decide (c < 2 ^ 24))
      && fine.all (fun f => decide (f < 16))
  | .boundary _ _ _ offset ofine mid mfine =>
    decide (offset < 2 ^ 24) && decide (ofine < 16) && decide (mid < 2 ^ 24) && decide (mfine < 16)
  | .sample _ _ _ => true
  | .supply _ _ _ => true
  | .diag _ _ _ _ _ => true
  | .grid _ _ _ _ _ _ => true
  | .wzTrip _ => true
  | .wzLink _ => true
  | .cellBlock _ _ => true
  | .cellFaultLatch _ _ _ => true
  | .incompletePeriod _ => true
  | .dsatCrossing _ => true
  | .blankingEnd _ _ => true
  | .cSourceFiltered _ _ _ => true
  | .xchkReplayDone _ _ => true
  | .gorseSelftest _ _ _ => true
  | .singleChLimit => true
  | .hostTrip _ => true
  | .hostSafeStop _ => true
  | .safeStop _ => true
  | .ssStep => true
  | .ssWaitEnd => true
  | .safeStopTimeout => true
  | .debugHalt => true
  | .enFall => true
  | .enRise _ => true
  | .brkTurnOn => true
  | .brkTurnOff => true
  | .brkOvertime => true
  | .offstateDiagDone _ => true
  | .cmpSelftestDone _ => true
  | .tripRecRead _ _ => true
  | .spotTrig _ => true
  | .spotPeriodicCapture _ => true
  | .adcDataRead _ _ => true
  | .refEnWrite _ => true
  | .refSettled => true
  | .selfCalCommit _ => true
  | .ucalSave _ => true
  | .ucalSaveDone => true
  | .wcCrossing _ _ => true
  | .wcSettled _ _ => true
  | .capRead _ _ => true
  | .rbCtrl _ => true
  | .readbackDone levels => levels.length == 256
  | .reg64LowRead _ addr =>
    addr.toNat % 4 == 0
  | .timeNsRead _ => true
  | .timeAdj _ => true
  | .timeSet _ => true
  | .addendWrite _ _ => true
  | .ethFrameRx _ _ _ => true
  | .servoMeasurement _ => true
  | .holdoverEntry => true
  | .holdoverCorrection => true
  | .ppsOutRise => true
  | .ppsOutFall => true
  | .ppsInEdge => true
  | .ppsInMissing => true
  | .lqTailWrite _ _ => true
  | .frameLaunch _ _ => true
  | .pmuReport _ _ => true
  | .pmuCfgChange => true
  | .dataOn => true
  | .dataOff => true
  | .sendCfg2 => true
  | .sendHdr => true
  | .pmuNotice _ => true
  | .twFront _ _ _ => true
  | .twEventEnd => true
  | .twLocateDone => true
  | .recForce _ => true
  | .recFreeze => true
  | .recRelease _ => true
  | .waveDumpDone => true
  | .lineCycleEnd samples _ _ =>
    !samples.isEmpty && samples.all (fun x => x.eff.length == 16 && x.quad.length == 16)
  | .pulseEnd _ => true
  | .periodicRecord => true
  | .noLine _ => true
  | .pfwNFall => true
  | .finalRepeat => true
  | .energyClear _ => true
  | .brackenSecond codes0 codes1 codes2 =>
    codes0.length == 4000 && codes1.length == 4000 && codes2.length == 4000
  | .alignmentRecord => true
  | .brClear _ => true
  | .vbatRestart => true
  | .registerWrite i addr len _ _ =>
    decide (1 ≤ len) && (match i with | .host => decide (addr.toNat < 0x400000) | .svc => len == 4 && addr.toNat % 4 == 0)
  | .rcRead i addr len =>
    decide (1 ≤ len) && (match i with | .host => decide (addr.toNat < 0x401000) | .svc => len == 4 && addr.toNat % 4 == 0)
  | .macHiWrite _ _ => true
  | .spiWrite out =>
    decide (10 ≤ out.length) && out.getD 0 0 == 2
  | .spiRead out =>
    decide (13 ≤ out.length) && out.getD 0 0 == 3
  | .spiBadCommand cmd len =>
    decide (1 ≤ len) && cmd != 2 && cmd != 3
  | .spiAbort out =>
    (out.getD 0 0 == 2 && decide (1 ≤ out.length) && decide (out.length < 10))
      || (out.getD 0 0 == 3 && decide (out.length < 13))
  | .vecAck _ _ => true
  | .msixEnable => true
  | .watchdogExpire _ => true
  | .wdogWarn _ => true
  | .hostWdogKick _ => true
  | .svcWdogKick _ => true
  | .histCaptureEnd => true
  | .tsConversion _ _ => true
  | .dieSensorConversion _ _ => true
  | .dieShutdown _ => true
  | .dieShutdownRelease _ => true
  | .quadRailMeasure mv =>
    mv.length == 4
  | .powerOnReset => true
  | .resetN => true
  | .perstN => true
  | .resetRelease _ => true
  | .standbyEnter _ => true
  | .standbyWake _ => true
  | .standbyExitDone => true
  | .referenceReturn => true
  | .timeCtrlWrite _ => true
  | .pfwNRise => true
  | .vbatLoss => true
  | .brackenCrystalStop => true
  | .mramScrubDone _ _ _ => true
  | .ethLinkChange _ _ => true
  | .ethCfgWrite _ _ => true
  | .converterSample codes =>
    codes.length == 16

end Sys2Proof
end

