-- ==== Sys2Proof/Tests/Slice0.lean ====
section
/-! SUPPORT. Tests: the WellFormed smoke (each check refuses an ill-formed term), a state and operands for the
hypotheses of each statement, and results of single commands that the spec's rules and worked examples give. -/

namespace Sys2Proof.Tests

open Sys2Proof Sys2Proof.Machine

/-! States to start from. -/

def s0 : State := State.reset
def dev (d : DevState) : State := { s0 with dev := d }
def withReg (a : Nat) (v : Word) (s : State) : State := wr a v s
def withLink (l : Nat) (x : Link) (s : State) : State := modLink l (fun _ => x) s
def withGroup (g present : Nat) (x : Group) (s : State) : State := { modGroup g (fun _ => x) s with present := present }
def withSlot (i : Nat) (x : Slot) (s : State) : State := modSlot i (fun _ => x) s
def withPlane (k : Nat) (b : SectionBody) (s : State) : State :=
  modTile k (fun t => { t with active := some { idle := false, body := b } }) s
def withPair (p : Nat) (x : Pair) (s : State) : State := modPair p (fun _ => x) s

/-- The state that a command leaves. -/
def after (c : Instr) (s : State) : State := match exec c s with | .next t => t | _ => s0

/-! WellFormed: one ill-formed command for each check. -/

theorem test_wf_memory : (Instr.bar2Write 134217727 [1, 2]).wellFormed = false
    ∧ (Instr.bar2Read 134217727 2 .clean).wellFormed = false ∧ (Instr.bar2Read 134217727 1 .clean).wellFormed = true := by decide
theorem test_wf_frames : (Instr.trainingBlockRx 0 []).wellFormed = false
    ∧ (Instr.upstreamSuperframeRx 0 [] 0).wellFormed = false ∧ (Instr.readbackDone []).wellFormed = false := by decide
theorem test_wf_edge : (Instr.edge 0 0 0 true false [] []).wellFormed = false
    ∧ (Instr.edge 0 0 0 true false [1] []).wellFormed = false
    ∧ (Instr.edge 0 0 0 true false [16777216] [0]).wellFormed = false
    ∧ (Instr.edge 0 0 0 true false [16777215] [16]).wellFormed = false
    ∧ (Instr.edge 0 0 0 true false [16777215] [15]).wellFormed = true := by decide
theorem test_wf_boundary : (Instr.boundary 0 0 0 16777216 0 0 0).wellFormed = false
    ∧ (Instr.boundary 0 0 0 0 16 0 0).wellFormed = false ∧ (Instr.boundary 0 0 0 0 0 16777216 0).wellFormed = false
    ∧ (Instr.boundary 0 0 0 0 0 0 16).wellFormed = false := by decide
theorem test_wf_opcode : (Instr.badOpcode 0 10).wellFormed = false ∧ (Instr.badOpcode 0 11).wellFormed = true := by decide
theorem test_wf_registers : (Instr.reg64LowRead .host 2).wellFormed = false
    ∧ (Instr.registerWrite .host 0 0 0 0).wellFormed = false ∧ (Instr.registerWrite .host 0x400000 4 15 0).wellFormed = false
    ∧ (Instr.registerWrite .svc 0x400000 2 15 0).wellFormed = false ∧ (Instr.rcRead .host 0 0).wellFormed = false
    ∧ (Instr.rcRead .host 0x401000 4).wellFormed = false ∧ (Instr.rcRead .svc 0x400002 4).wellFormed = false := by decide
theorem test_wf_service : (Instr.spiWrite [2]).wellFormed = false ∧ (Instr.spiRead [3]).wellFormed = false
    ∧ (Instr.spiBadCommand 2 1).wellFormed = false ∧ (Instr.spiBadCommand 4 0).wellFormed = false
    ∧ (Instr.spiAbort []).wellFormed = false ∧ (Instr.spiAbort (2 :: List.replicate 9 0)).wellFormed = false
    ∧ (Instr.spiAbort (3 :: List.replicate 12 0)).wellFormed = false := by decide
theorem test_wf_measured : (Instr.lineCycleEnd [] 0 0).wellFormed = false
    ∧ (Instr.lineCycleEnd [{ eff := [], quad := [] }] 0 0).wellFormed = false
    ∧ (Instr.brackenSecond [] [] []).wellFormed = false ∧ (Instr.quadRailMeasure [800, 800, 800]).wellFormed = false
    ∧ (Instr.converterSample []).wellFormed = false := by decide

/-! Witnesses: the machine as a whole. -/

theorem witness_IdleTick : s0.pending = [] := by decide
theorem witness_MemoryInvariant : ∃ t, memoryOk s0 ∧ step s0 = .next t :=
  ⟨_, ⟨⟨by decide, by intro p h; cases h⟩, by decide, by decide⟩, rfl⟩
theorem witness_CommandFrame : ∃ t, exec .dataOn s0 = .next t := ⟨_, rfl⟩
theorem witness_DeviceStateMoves : (after .dataOn s0).dev = .configWait
    ∧ (after (.hostTrip (wd 0x5452)) (dev .run)).dev = .tripped
    ∧ (after (.hostSafeStop (wd 0x5353)) (dev .run)).dev = .safeStop
    ∧ (after (.enRise { dsatClear := 0xFFF, clkGood := true, haltEnded := true, crcA := true, crcB := true })
        { dev .tripped with tick := 4000 }).dev = .run := by decide +kernel
theorem witness_EnablesAtBoundary : (∀ g, Instr.dataOn ≠ .periodBoundary g) ∧ ∃ t, exec .dataOn s0 = .next t :=
  ⟨by decide, _, rfl⟩
theorem witness_OutputsSafe : s0.dev = .configWait ∧ (dev .tripped).dev = .tripped ∧ (dev .safeStop).dev = .safeStop
    ∧ (dev .safeStop).gorse.ssRunning = false := by decide

/-! Commits, clock groups, the control engine, modulation. -/

/-- Group 7 defined and started, with what x says. -/
def grp7 (x : Group) : State := withGroup 7 0x80 { x with started := true, period := 25000 } (dev .run)

theorem witness_CommitRequest : (dev .run).dev ≠ .configWait ∧ s0.dev = .configWait
    ∧ (wd 0x40).getLsbD 6 = true ∧ (grp7 {}).present.testBit 6 = false ∧ (wd 0x80).getLsbD 7 = true
    ∧ (grp7 {}).present.testBit 7 = true ∧ (rd (grp7 {}) aCommitLate).toNat + 8 < 2 ^ 32 := by decide
/-- Group 7 with a request and a staged period, pair-lock on, pair 0 of the group switching. -/
def lockState : State :=
  let s := withPlane 4 (.mod { chgCg := [(0, 7)], pairs := [(0, { chg := 0, carrier := 0 })] }) (grp7 { req := true })
  withReg aPairlock (wd 0x80) { s with mod := { s.mod with en := 1 }, dirty := [aCgPeriod 7] }

theorem witness_CutoffTakesIn : let s := grp7 { req := true }
    s.present.testBit 7 = true ∧ (group s 7).started = true ∧ (group s 7).cut = false ∧ (group s 7).req = true
    ∧ s.damask.swap = none ∧ plBlocks s 7 = false ∧ (group (grp7 {}) 7).req = false ∧ (group (grp7 {}) 7).cut = false
    ∧ (let p := lockState
       p.present.testBit 7 = true ∧ (group p 7).started = true ∧ (group p 7).cut = false ∧ (group p 7).req = true
       ∧ p.damask.swap = none ∧ plBlocks p 7 = true) := by decide
theorem witness_PeriodBoundary :
    let s := grp7 { cut := true, taken := true, takenRegs := [(aLp 0 0, 5), (aCgPeriod 7, 25000)] }
    s.present.testBit 7 = true ∧ (group s 7).started = true ∧ (group s 7).cut = true ∧ (group s 7).taken = true
    ∧ s.damask.swap = none ∧ s.gorse.ssWaiting = false ∧ ((group s 7).takenRegs.map Prod.fst).Nodup
    ∧ (aLp 0 0, (5 : Word)) ∈ (group s 7).takenRegs ∧ 0x100000 ≤ aLp 0 0 ∧ aLp 0 0 < 0x180000 := by decide

/-- Channel group 0 belongs to clock group 7 and takes mid-period updates. -/
def midState (x : Group) : State :=
  let s := withPlane 4 (.mod { chgCg := [(0, 7)] }) (grp7 { x with midAt := 12500 })
  { s with mod := { s.mod with upd := 1 } }

theorem witness_GroupInstants : (group (grp7 { mirrorSeq := 1 }) 7).mirrorSeq % 2 = 1
    ∧ (∀ x ∈ [({ req := true } : Group), { req := true, plHold := true }, {}],
       let s := midState x
       s.present.testBit 7 = true ∧ (group s 7).started = true ∧ (group s 7).midCut = false ∧ (group s 7).cut = false
       ∧ s.mod.upd &&& chgMask s 7 ≠ 0 ∧ (group s 7).midAt ≠ 0 ∧ plBlocks s 7 = false)
    ∧ ((group (grp7 { midRegs := [(aLp 0 0, 5), (aLp 11 0, 6)] }) 7).midRegs.map Prod.fst).Nodup
    ∧ (let s := modDamask (fun d => { d with imageValid := true }) { s0 with present := 0x80 }
       s.damask.imageValid = true ∧ s.damask.wzRole ≠ 2 ∧ s.present.testBit 7 = true ∧ (group s 7).started = false
       ∧ s.present.testBit 0 = false) := by decide +kernel

/-- Unit 15 defined in clock group 0, its inputs latched. -/
def unit15 (x : MUnit) : State :=
  modUnit 15 (fun _ => { x with latched := true })
    (withPlane 15 (.ctrl { odd := { defined := true, n := 1, m := 1 } }) (dev .run))

theorem witness_MatrixUnit : unitGroup (unit15 {}) 15 = some 0 ∧ unitComputes (unit15 {}) 15 = true
    ∧ (group (unit15 {}) 0).cut = false ∧ (munit (unit15 {}) 15).ready = none
    ∧ (munit (unit15 { busy := true }) 15).busy = true ∧ (munit (unit15 { copying := true }) 15).copying = true := by
  decide
theorem witness_ChannelWaveform : 0 < 1 ∧ takeEdge true [{ time := 0, high := true, level := true }]
    = some ({ time := 0, high := true, level := true }, [])
    ∧ takeEdge false [{ time := 5, high := true, level := true }, { time := 5, high := false, level := false }]
      = some ({ time := 5, high := false, level := false }, [{ time := 5, high := true, level := true }]) := by decide
theorem witness_LawArithmetic : sat32 (-2147483649) = -2147483648 ∧ sat32 (-2147483648) = -2147483648
    ∧ sat32 2147483647 = 2147483647 ∧ sat32 2147483648 = 2147483647 := by decide

/-! Twill. -/

theorem witness_LinkAlignment : picks (link (withLink 37 { st := .align } s0) 37) = true
    ∧ (∀ i, i < 64 → (BitVec.allOnes 64).getLsbD ((63 + i) % 64) = true)
    ∧ (let s := fun w f => withLink 0 { st := .align, dck := true, eyeWidth := w, fallback := f } s0
       wzInbound (s 15 false) 0 = false ∧ (link (s 15 false) 0).st = .align ∧ (link (s 15 false) 0).upLock = false
       ∧ (link (s 15 false) 0).dck = true ∧ (link (s 15 false) 0).eyeWidth < 16 ∧ 16 ≤ (link (s 16 false) 0).eyeWidth
       ∧ (link (s 16 false) 0).fallback = false ∧ (link (s 16 true) 0).fallback = true)
    ∧ wzInbound s0 36 = true ∧ (link s0 36).st ≠ .loopback ∧ (link s0 36).upLock = false
    ∧ (let s := fun f n => withLink 0 { st := .align, dck := true, stage := .restarted, fallback := f, tries := n } s0
       (link (s true 0) 0).st = .align ∧ (link (s true 0) 0).upLock = false ∧ (link (s true 0) 0).manual = false
       ∧ (link (s true 0) 0).stage = .restarted ∧ (link (s true 0) 0).fallback = true ∧ (link (s false 0) 0).fallback = false
       ∧ (link (s false 0) 0).tries < retries (s false 0) 0 ∧ retries (s false 3) 0 ≤ (link (s false 3) 0).tries
       ∧ (link (s false 3) 0).goodRate.getD 0 = 0 ∧ (link (withLink 0 { st := .align } s0) 0).stage ≠ .restarted)
    ∧ (let s := fun n => withLink 0 { st := .linked, upLock := true, dck := true, markerRun := n } s0
       (link (s 2) 0).upLock = true ∧ (link (s 2) 0).dck = true ∧ (link (s 2) 0).markerRun < 3 ∧ 3 ≤ (link (s 3) 0).markerRun)
    ∧ (link (withLink 0 { st := .loopback, upLock := true } s0) 0).st = .loopback := by decide
theorem witness_LinkErrors : (let s := withLink 0 { st := .loopback, loop := 3, frames := 16 } s0
      (link s 0).st = .loopback ∧ (link s 0).loop = 3 ∧ (link s 0).loopSync = false ∧ 16 ≤ (link s 0).frames)
    ∧ (let s := withLink 0 { dck := true, stopDue := true, runFrames := 1 } s0
       (link s 0).dck = true ∧ (link s 0).stopDue = true ∧ (link s 0).runFrames ≠ 0) := by decide
theorem witness_LinkBringUp :
    (let s := withLink 0 { st := .capExchange, frames := 1024 } s0
     (link s 0).st = .capExchange ∧ 1024 ≤ (link s 0).frames)
    ∧ (let s := fun f => withLink 0 { st := .check, checkTail := some 0, rate := 1, finalRate := f } s0
       (link (s 1) 0).st = .check ∧ (link (s 1) 0).fallback = false ∧ (link (s 1) 0).checkTail = some 0
       ∧ (link (s 1) 0).rate = (link (s 1) 0).finalRate ∧ (link (s 3) 0).rate ≠ (link (s 3) 0).finalRate)
    ∧ (let s := fun f n g => withLink 0
         { st := .rateSwitch, stage := .request, frames := 1024, fallback := f, tries := n, goodRate := g, rate := g.getD 0 } s0
       (link (s true 0 none) 0).st = .rateSwitch ∧ (link (s true 0 none) 0).stage = .request
       ∧ 1024 ≤ (link (s true 0 none) 0).frames ∧ (link (s true 0 none) 0).fallback = true
       ∧ (link (s false 0 none) 0).fallback = false ∧ (link (s false 0 none) 0).tries < retries (s false 0 none) 0
       ∧ retries (s false 3 none) 0 ≤ (link (s false 3 none) 0).tries ∧ (link (s false 3 none) 0).goodRate.getD 0 = 0
       ∧ (link (s false 3 (some 1)) 0).goodRate.getD 0 ≠ 0
       ∧ (link (s false 3 (some 1)) 0).rate = (link (s false 3 (some 1)) 0).goodRate.getD 0)
    ∧ (let s := withLink 0 { st := .rateSwitch, stage := .countdown, countdown := some 0 } s0
       (link s 0).stage = .countdown ∧ (link s 0).countdown = some 0)
    ∧ (link (withLink 0 { st := .rateSwitch, stage := .stopped } s0) 0).stage = .stopped
    ∧ (let s := withLink 0 { st := .check, fallback := true, fbClean := 4096 } s0
       (link s 0).fallback = true ∧ (link s 0).st = .check ∧ 4096 ≤ (link s 0).fbClean)
    ∧ (let s := fun st => withLink 37 { st := st, named := true } (withSlot 15 { st := .running, op := 4, started := true } s0)
       runSlot (s .linked) 0x04 = some 15 ∧ trainAll (s .linked) = true ∧ trainAll (s .align) = false) := by decide

/-- The groups of a training superframe with block b, its PRBS bytes zeros, and the control code c in symbol 1. -/
def trainLine (c : KCode) (b : TrainBlock) : List (BitVec 10) := (lineOf false (trainFrame c (blockBytes b) (List.replicate 238 0))).1

/-- A superframe as it is received holds block b, and no K28.3. -/
def spells (x : Link) (groups : List (BitVec 10)) (b : TrainBlock) : Bool :=
  (symBytes (rxSyms x groups).1 2 16).bind blockOfBytes == some b && (rxSyms x groups).1.all (fun y => symK y != some .k28_3)

theorem witness_TrainingBlock_caps : ∀ w ∈ [0x801F, 0],
    let s := withLink 0 { st := .capExchange, upLock := true, capRun := 15, capLast := wd w } s0
    wzInbound s 0 = false ∧ (link s 0).st = .capExchange ∧ (link s 0).upLock = true
    ∧ spells (link s 0) (trainLine .k28_6 { cap := wd w }) { cap := wd w } = true ∧ 15 ≤ (link s 0).capRun
    ∧ wd w = (link s 0).capLast ∧ capAcceptable (wd w) = decide (w = 0x801F) := by decide +kernel
theorem witness_TrainingBlock_line : (∀ y ∈ [Sym.data 5, .k .k28_5], (∃ b, y = .data b) ∨ ∃ c, y = .k c)
    ∧ ({ errs := 4294967295 } : TrainBlock).errs < 2 ^ 32 := by
  refine ⟨?_, by decide⟩
  intro y h
  rcases List.mem_cons.mp h with rfl | h
  · exact .inl ⟨5, rfl⟩
  · exact .inr ⟨.k28_5, List.mem_singleton.mp h⟩
theorem witness_TrainingBlock_ack : let s := withLink 0 { st := .rateSwitch, stage := .request, target := 3, upLock := true } s0
    let b : TrainBlock := { target := 3, flags := 2 }
    wzInbound s 0 = false ∧ (link s 0).st = .rateSwitch ∧ (link s 0).stage = .request ∧ (link s 0).upLock = true
    ∧ spells (link s 0) (trainLine .k28_6 b) b = true ∧ b.flags.testBit 1 = true ∧ b.target = (link s 0).target := by
  decide +kernel
theorem witness_TrainingBlock_check :
    (let s := withLink 0 { st := .check, fallback := true, upLock := true } s0
     wzInbound s 0 = false ∧ (link s 0).st = .check ∧ (link s 0).fallback = true ∧ (link s 0).upLock = true)
    ∧ (let s := withLink 0 { st := .loopback, loop := 3, upLock := true } s0
       (link s 0).st = .loopback ∧ (link s 0).loop = 3 ∧ (link s 0).upLock = true)
    ∧ spells { st := .check } (trainLine .k28_6 {}) {} = true
    ∧ (let s := withLink 35 { st := .align, dck := true, upLock := true } s0
       (link s 35).upLock = true ∧ hears (link s 35) = true)
    ∧ (∃ y ∈ (rxSyms { st := .align } (trainLine .k28_3 {})).1, symK y = some .k28_3)
    ∧ (link s0 0).upLock = false ∧ (link s0 0).manual = false := by decide +kernel
theorem witness_LinkManual : (link (withLink 0 { manual := true } s0) 0).manual = true ∧ (link s0 0).manual = false
    ∧ (∀ st ∈ [LtState.align, .capExchange, .check, .loopback], (link (withLink 0 { st := st } s0) 0).st = st)
    ∧ ¬((link s0 0).st = .align ∨ (link s0 0).st = .capExchange ∨ (link s0 0).st = .check ∨ (link s0 0).st = .loopback)
    ∧ (3 : BitVec 2) ≠ 0 ∧ (link s0 0).st = .disabled ∧ linkInService s0 0 = false
    ∧ (link (withLink 0 { st := .rateSwitch } s0) 0).st = .rateSwitch := by decide
theorem witness_DownstreamSuperframe : (link (withLink 35 { st := .linked, dck := true, txBlock := true } s0) 35).txBlock = true
    ∧ (let s := withLink 35 { st := .linked, dck := true } s0
       (link s 35).dck = true ∧ (link s 35).txBlock = false ∧ (link s 35).st = .linked ∧ (link s 35).wzRun = 0
       ∧ nearLoop (link s 35) = false)
    ∧ (let s := withLink 37 { st := .loopback } s0
       (link s 37).st = .loopback ∧ (link s 37).txBlock = false ∧ (link s 37).farLoop = false) := by decide

/-- The groups of an upstream superframe with the header bytes b, or the codes given at symbols 1 and 2. -/
def upLine (c e : KCode) (b : List Byte) : List (BitVec 10) :=
  (lineOf false ([.k .k28_5, .k c, .k e] ++ (b ++ leBytes 2 (crc16 b)).map .data ++ List.replicate 240 (.data 0))).1

theorem witness_UpstreamSuperframe : (let s := withLink 35 { st := .linked, upLock := true, dck := true } s0
      (link s 35).st = .linked ∧ (link s 35).upLock = true ∧ (link s 35).dck = true ∧ (link s 35).tCnt < avgCount s 35)
    ∧ (∀ p ∈ [(KCode.k28_0, KCode.k28_1), (.k28_3, .k28_0)],
        let syms := (rxSyms { st := .linked } (upLine p.1 p.2 (List.replicate 11 1))).1
        readStretch syms 3 13 = .good (List.replicate 11 1) ∧ kAt syms 2 .k28_1 = decide (p.2 = .k28_1)
        ∧ syms.any (fun y => symK y == some .k28_3) = decide (p.1 = .k28_3)) := by decide +kernel
theorem witness_Latency : (let s := fun v n => withLink 0 { st := .linked, dck := true, tCnt := 256, latValid := v, unstableRun := n, echoMiss := 64 } s0
      (link (s false 0) 0).st = .linked ∧ (link (s false 0) 0).dck = true ∧ avgCount (s false 0) 0 ≤ (link (s false 0) 0).tCnt
      ∧ (link (s false 0) 0).latValid = false ∧ (link (s false 0) 0).ests.length < 3 ∧ (link (s true 14) 0).latValid = true
      ∧ (link (s true 14) 0).unstableRun < 15 ∧ 64 ≤ (link (s true 14) 0).echoMiss) := by decide
/-- A link in acquisition with the estimates l. -/
def acquiring (l : List Int) : State := withLink 0 { st := .linked, dck := true, tCnt := 256, ests := l } s0

theorem witness_Latency_acquire : let e := estimate (acquiring []) 0
    let s := acquiring [e, e, e]
    (link s 0).latValid = false ∧ (link s 0).ests = e :: e :: e :: []
    ∧ max (estimate s 0) (max e (max e e)) - min (estimate s 0) (min e (min e e)) ≤ 400 * unitsPerPs := by
  refine ⟨rfl, rfl, ?_⟩
  rw [show estimate (acquiring [estimate (acquiring []) 0, estimate (acquiring []) 0, estimate (acquiring []) 0]) 0
      = estimate (acquiring []) 0 from rfl]
  generalize estimate (acquiring []) 0 = e
  have h : (0 : Int) ≤ 400 * unitsPerPs := by decide
  omega
theorem witness_CellMessages : (let s := fun c => withLink 35 { st := .linked, dck := true, partnerCap := wd 0x100, cell := c } s0
      cellHears (s {}) 35 = true ∧ (0 : Fin 16).val < fld (link (s {}) 35).partnerCap 8 4
      ∧ cellHears (s { midTag := some 255, curTag := some 255 }) 35 = true
      ∧ (link (s { midTag := some 255 }) 35).cell.midTag = some (255 : Byte).toNat
      ∧ (link (s { curTag := some 255 }) 35).cell.curTag = some (255 : Byte).toNat
      ∧ (link (s {}) 35).cell.curTag ≠ some (255 : Byte).toNat)
    ∧ (let s := withReg (aLink 35 0x100) 1 (withLink 35 { st := .linked, dck := true, cell := { diagSeen := some 9 } } s0)
       cellHears s 35 = true ∧ (bit (rd s (aLink 35 0x100)) 0 && (link s 35).cell.diagSeen == some (9 : Byte).toNat) = true)
    ∧ cellHears s0 35 = false := by decide
theorem witness_CellFaults : (link s0 0).cell.missed = false
    ∧ (link (withLink 0 { cell := { missed := true } } s0) 0).cell.missed = true := by decide

/-- A follower whose clock group 7 has started or not. -/
def follower (x : Group) : State :=
  modDamask (fun d => { d with wzRole := 2, imageValid := true })
    (setFo (aCgPeriod 7) (wd 25000) (withGroup 7 0x80 x s0))

theorem witness_GridMessage : (let s := follower {}
      s.damask.wzRole = 2 ∧ s.damask.imageValid = true ∧ s.present.testBit 7 = true ∧ wzInbound s 37 = true
      ∧ (group s 7).started = false ∧ (group s 7).gridBad = false
      ∧ (25000 : BitVec 24).toNat = fld (fo s (aCgPeriod 7)) 0 24 ∧ (25001 : BitVec 24).toNat ≠ fld (fo s (aCgPeriod 7)) 0 24)
    ∧ (group (follower { started := true }) 7).started = true
    ∧ (let s := withReg (aLink 36 0) (wd 0x1000) (withLink 36 { st := .linked } (follower {}))
       (link s 36).st = .linked ∧ wzInbound s 36 = false) := by decide

/-! The clock root. -/

/-- CLK_STATUS at v. -/
def clk (v : Nat) : State := withReg aClkStatus (wd v) s0

theorem witness_ClockStart : (clk 0).clock.rootOnce = false ∧ refCode 9900000 = some 0 ∧ refCode 40400000 = some 3
    ∧ refCode 9899999 = none ∧ clkBit (clk 4) 0 = false ∧ clkBit (clk 4) 2 = true ∧ (clk 4).clock.released = false
    ∧ refSrc (clk 0x104) ≠ 0 ∧ refNear (modClock (fun c => { c with refHz := 10001000 }) (clk 4)) = true
    ∧ (clk 4).clock.mOnce = false ∧ (modClock (fun c => { c with rootOnce := true }) (clk 4)).clock.rootOnce = true
    ∧ (rd (clk 4) aLockEvent).toNat + 1 < 2 ^ 32
    ∧ clkBit (clk 5) 1 = false ∧ clkBit (clk 5) 0 = true ∧ (clk 5).clock.mOnce = false
    ∧ clkBit (clk 7) 0 = true ∧ clkBit (clk 7) 1 = true ∧ (clk 7).clock.released = false := by decide
theorem witness_ClockLossesAndSpread : refSrc (clk 0) = 0 ∧ refSrc (clk 0x100) ≠ 0 ∧ clkBit (clk 1) 0 = true
    ∧ clkBit (clk 2) 1 = true ∧ inBringUp (link (withLink 35 { st := .align } (clk 2)) 35).st = true
    ∧ inBringUp (link (clk 2) 0).st = false
    ∧ (let s := modClock (fun c => { c with released := true }) (clk 0)
       s.clock.released = true ∧ clkBit s 1 = false ∧ clkBit s 0 = false)
    ∧ bit (wd 1) 0 = true ∧ bit (wd 2) 0 = false ∧ (clk 0).clock.released = false
    ∧ (let s := fun v tick pend => { modClock (fun c => { c with
           released := true, sscPending := pend, segs := [{ start := 0, cfg := wd 0x0C350001 }] }) (clk v) with tick := tick }
       originDue (s 0 640 (some 1)) = 640 ∧ (s 0 640 (some 1)).clock.sscPending = some 1
       ∧ (s 0 639 none).tick < originDue (s 0 639 none)
       ∧ originDue (s 0x80 12800 none) = 12800 ∧ (s 0x80 12800 none).clock.sscPending = none
       ∧ clkBit (s 0x80 12800 none) 7 = true) := by decide +kernel
theorem witness_ReferenceSelect :
    (let s := withLink 37 { st := .linked, rate := 3, finalRate := 3 } s0
     s.dev = .configWait ∧ (∀ v ∈ [2, 3], min (fld (wd v) 0 2) 2 = 2) ∧ 2 ≠ refSrc s ∧ wzTrained s 2 = true ∧ wzTrained s 1 = false)
    ∧ min (fld (wd 0) 0 2) 2 = 0 ∧ 0 ≠ refSrc (clk 0x100) ∧ 0 = refSrc s0 ∧ (dev .run).dev ≠ .configWait := by decide

/-! Gorse. -/

theorem witness_BackstopTrips : (dev .run).dev = .run ∧ (dev .safeStop).dev = .safeStop ∧ wd 0 ≠ wd 0x5452
    ∧ (modGorse (fun g => { g with en := true, ssRunning := true, voteA := true }) (dev .safeStop)).gorse.en = true
    ∧ scRuns (modGorse (fun g => { g with voteA := true }) (dev .run)) = true
    ∧ (modGorse (fun g => { g with ssRunning := true }) (dev .safeStop)).gorse.ssRunning = true
    ∧ wzHoldOff (dev .run) = false ∧ (link (withLink 37 { st := .linked } (dev .run)) 37).st = .linked
    ∧ bit (rd (dev .run) aBsCfg) 0 = false := by decide

/-- RUN with DSAT11 used and the pair 11 as x says. -/
def dsat (x : Pair) : State := withReg aDsatUsed (wd 0x800) (withPair 11 x { (dev .run) with power := { inReset := false } })

theorem witness_Desaturation : dsatUsed (withReg aDsatUsed 0 s0) 11 = false ∧ dsatUsed (dsat {}) 11 = true ∧ pairIsOn (dsat {}) 11 = false
    ∧ pairIsOn (dsat { cmdH := true }) 11 = true ∧ blankingOf (dsat { cmdH := true }) 11 = none
    ∧ (blankingOf (dsat { cmdH := true, blanking := true }) 11).isSome = true
    ∧ (pair (dsat { cmdH := true, blanking := true }) 11).blanking = true
    ∧ pairIsOn (dsat { cmdH := true, blanking := true }) 11 = true ∧ (dsat {}).dev = .run := by decide +kernel

/-- RUN with both watchdogs enabled. -/
def dogs : State :=
  modGorse (fun g => { g with everRun := true })
    (withReg aSvcWdogCfg (wd 0x8001) (withReg aHostWdogCfg (wd 0x8001) { dev .run with tick := 400000 }))

theorem witness_SafeStopRequests : (dev .run).dev = .run ∧ tmOf (dev .run) 0 186 = 0 ∧ tmOf (dev .run) 1 187 = 0
    ∧ tmOf (dev .run) 1 186 = 0 ∧ tmOf (dev .run) 0 187 = 0 ∧ wd 0 ≠ wd 0x5353 ∧ (dev .tripped).dev = .tripped
    ∧ (dev .safeStop).dev = .safeStop ∧ dogs.dev = .run ∧ wdogRuns dogs true = true ∧ wdogRuns dogs false = true
    ∧ wdogPast dogs true 2 = true ∧ wdogPast dogs false 2 = true
    ∧ dogs.host.svcExpired = false ∧ dogs.host.hostExpired = false ∧ tmOf dogs 0 184 = 0 ∧ tmOf dogs 1 183 = 0
    ∧ tmOf dogs 1 184 = 0 ∧ tmOf dogs 0 183 = 0 := by decide

/-- A safe-stop sequence about to take steps l. -/
def seqOf (waiting : Bool) (l : List SsStep) : State :=
  modGorse (fun g => { g with ssRunning := true, ssReady := true, ssWaiting := waiting, ssSteps := l }) (dev .safeStop)

theorem witness_SafeStopSequence : (∀ l ∈ [[SsStep.wait 7 1], [.disable 7 0xFFFF, .wait 0 1], [.ramp 7 [(15, 1)] 1]],
      (seqOf false l).gorse.ssRunning = true ∧ (seqOf false l).gorse.ssReady = true
      ∧ (seqOf false l).gorse.ssWaiting = false ∧ (seqOf false l).gorse.ssSteps = l)
    ∧ [((15, 1) : Nat × Nat)] ≠ []
    ∧ (seqOf true [.wait 7 1, .wait 0 1]).gorse.ssWaiting = true
    ∧ (seqOf true [.wait 7 1, .wait 0 1]).gorse.ssSteps = [.wait 7 1, .wait 0 1] := by decide

/-- RUN, channel A voting, source 12 mapped to an action of the class. -/
def mapped (c : ActClass) : State :=
  modGorse (fun g => { g with voteA := true })
    (modCmp 0 (fun _ => { above := true }) <| withPlane 16 (.gorse { tm := [(12, 1)], act := [(0, { cls := c })] }) (dev .run))

theorem witness_FilteredSource : isC 12 = true ∧ isC 243 = true ∧ isC 0 = false ∧ srcMasked (mapped .trip) 12 = false
    ∧ srcLive (mapped .trip) 12 = true ∧ measCond 243 = true ∧ (mapped .trip).dev = .run
    ∧ (mapped .trip).gorse.voteA = true ∧ (mapped .notify).gorse.voteB = false
    ∧ actsOf (mapped .trip) 0 (tmOf (mapped .trip) 0 12) = [{ cls := .trip }]
    ∧ actsOf (mapped .notify) 0 (tmOf (mapped .notify) 0 12) = [{ cls := .notify }]
    ∧ (mapped .notify).gorse.inA.testBit 12 = false
    ∧ srcMasked (mapped .notify) 12 = false ∧ srcLive (mapped .notify) 12 = true
    ∧ srcMasked (modConv (fun c => { c with stTested := 1 }) s0) 12 = true ∧ measCond 12 = false ∧ srcLive s0 12 = false := by
  decide +kernel
theorem witness_ChannelChecks : s0.gorse.mismatch = none
    ∧ (let s := modGorse (fun g => { g with mismatch := some (1, 3), voteA := true }) s0
       s.gorse.mismatch = some (1, 3) ∧ s.gorse.voteA = true ∧ (1 &&& (1 ^^^ 3) = 0))
    ∧ (3 &&& (3 ^^^ 1) ≠ 0 ∧ 1 &&& (3 ^^^ 1) = 0) ∧ (tile s0 17).active = none
    ∧ (tile (mapped .trip) 16).active ≠ none ∧ (tile (mapped .trip) 16).st ≠ .tileFault := by decide
theorem witness_EnableEdgeAndBrake : (modGorse (fun g => { g with en := true }) s0).gorse.en = true
    ∧ (let s := fun n => { (dev .tripped) with tick := n }
       (s 3999).gorse.en = false ∧ (s 3999).tick - (s 3999).gorse.enFallAt < 4000
       ∧ 4000 ≤ (s 4000).tick - (s 4000).gorse.enFallAt ∧ (s 4000).dev = .tripped)
    ∧ (modHost (fun h => { h with hostExpired := true, svcExpired := true }) s0).host.hostExpired = true
    ∧ (modHost (fun h => { h with hostExpired := true, svcExpired := true }) s0).host.svcExpired = true
    ∧ (after (.enRise {
        dsatClear := 0, clkGood := true, haltEnded := true, crcA := true, crcB := true })
        { (dev .tripped) with tick := 4000, gorse := { latch := 1 } }).gorse.latch ≠ 0
    ∧ (let s := withReg aBrkCfg 1 { s0 with power := { inReset := false } }; brkEn s = true ∧ s.power.inReset = false)
    ∧ brkEn s0 = false ∧ s0.power.inReset = true
    ∧ (modGorse (fun g => { g with brk := true }) s0).gorse.brk = true := by decide +kernel
theorem witness_DiagnosticsEnd :
    (let s := withLink 35 { diagWait := true } (withSlot 15 { st := .running, op := 5, started := true, ps := [0, 8, 0xFFF] } s0)
     runSlot s 0x05 = some 15 ∧ (diagLinks s 15).testBit 35 = true ∧ (link s 35).diagWait = true
     ∧ (diagLinks s 15).testBit 0 = false)
    ∧ runSlot (withSlot 0 { st := .running, op := 6, started := true } s0) 0x06 = some 0 := by decide +kernel

/-! The operation queue. -/

/-- Slot 15, generation 27, as x says, in RUN. -/
def op15 (x : Slot) : State := withSlot 15 { x with gen := 27 } (dev .run)

theorem witness_OperationSubmission : isBusy (slot s0 15).st = false ∧ isBusy (slot (withSlot 15 { st := .queued } s0) 15).st = true
    ∧ (11 : Byte).toNat = 11 ∧ 10 < (11 : Byte).toNat ∧ (0 : Byte).toNat = 0
    ∧ (∀ n ∈ [1, 6, 8, 9, 10], opEligible (op15 { st := .queued, op := n }) 15 = true
        ∧ (slot (op15 { st := .queued, op := n }) 15).op = n)
    ∧ (op15 { st := .queued, op := 9 }).dev ≠ .configWait ∧ needsImage 1 = false
    ∧ (let s := { op15 { st := .queued, op := 3 } with dev := .configWait }
       opEligible s 15 = true ∧ needsImage (slot s 15).op = true ∧ s.dev = .configWait)
    ∧ refOn s0 = false ∧ refOn (withReg aRefCtrl 1 (op15 { st := .queued, op := 1 })) = true
    ∧ (op15 { st := .queued, op := 8 }).meas.recFrozen.testBit (fld (param (op15 { st := .queued, op := 8 }) 15 0) 0 3) = false := by
  decide +kernel
theorem witness_OperationActions : (0x01BF : BitVec 16).toNat % 16 = 15 ∧ (slot s0 15).gen ≠ (0x01BF : BitVec 16).toNat / 16
    ∧ (∀ x ∈ [({ st := .queued, op := 8 } : Slot), { st := .running, op := 8, started := true }, { st := .suspended, op := 8 },
        { st := .suspended, op := 8, started := true }, { st := .running, op := 8, suspReq := true, started := true },
        { st := .completed, op := 8, started := true }, { st := .completed, op := 8, cancelAt := some 0 }],
        (slot (op15 x) 15).gen = (0x01BF : BitVec 16).toNat / 16 ∧ slot (op15 x) 15 = { x with gen := 27 })
    ∧ suspendable 8 = true ∧ suspendable 9 = false ∧ (8 : Nat) ∈ [1, 5, 6, 7, 8, 9, 10] ∧ (8 : Nat) ∈ [7, 8, 10]
    ∧ opArbitrated (op15 { st := .running, op := 3, started := true }) 15 = false ∧ (dev .run).tick = 0
    ∧ fld (wd 0x1BF) 0 16 % 16 = 15 ∧ (slot s0 15).gen ≠ fld (wd 0x1BF) 0 16 / 16
    ∧ fld (wd 0x1BF) 0 16 / 16 = 27
    ∧ runSlot (op15 { st := .running, op := 10, started := true }) 0x0A = some 15 := by decide +kernel

/-! Converters and comparators. -/

theorem witness_SpotReads : convGap (modConv (fun c => { c with calBusy := 0x8000 }) s0) 15 = true ∧ convGap s0 15 = false
    ∧ (let s := modConv (fun c => { c with spotWait := 0x8000 }) (withReg (aAdcCfg 15) 1 s0)
       s.conv.spotWait.testBit 15 = true ∧ spotMode s 15 = 1 ∧ s.conv.spotWait.testBit 0 = false)
    ∧ spotMode (withReg (aAdcCfg 15) 2 s0) 15 = 2 ∧ spotMode s0 15 ≠ 2 ∧ eventNow s0 (aAdcData 15) = none := by decide
theorem witness_ReferenceBuffer : bit (wd 1) 0 = true ∧ bit (wd 0) 0 = false ∧ s0.dev = .configWait ∧ (dev .run).dev ≠ .configWait
    ∧ refOn (withReg aRefCtrl 1 s0) = true ∧ (withReg aRefCtrl 1 s0).conv.refSettled = false := by decide
theorem witness_Calibration :
    (let s := modConv (fun c => { c with calMask := 0x8000 }) (withSlot 0 { st := .running, op := 1, started := true } s0)
     runSlot s 0x01 = some 0 ∧ s.conv.calWait = false ∧ s.conv.calMask.testBit 15 = true)
    ∧ calPasses { conv := 15, ofs := -131072, gain := 4320133, stage := 0 } = true
    ∧ calPasses { conv := 15, ofs := -131073, gain := 4320133, stage := 0 } = false
    ∧ s0.conv.ucalBusy = false ∧ wd 0 ≠ wd 0x5543
    ∧ (let s := modConv (fun c => { c with ucalBusy := true, ucalSlots := [ucalBody 1 (List.replicate 32 5)] }) s0
       s.conv.ucalBusy = true ∧ (List.replicate 32 (5 : Word)).length = 32 ∧ ucalSlot s 0 = ucalBody 1 (List.replicate 32 5)) := by
  decide +kernel

/-- Comparator 23 enabled, both sides in use. -/
def wc23 (settled : Bool) : State :=
  modCmp 23 (fun c => { c with settled := settled })
    (withReg (aWcCfg 23) 7 (setFo (aWcCfg 23) 7 (withPlane 18 (.meas {}) s0)))

theorem witness_Comparators : wcEnabled s0 23 = false ∧ (cmp (wc23 false) 23).settled = false ∧ wcEnabled (wc23 true) 23 = true
    ∧ (cmp (wc23 true) 23).settled = true ∧ wcEnabled (wc23 false) 23 = true
    ∧ convInService (modMod (fun m => { m with en := 1 }) s0) = true
    ∧ (modConv (fun c => { c with calBusy := 0x8000 }) s0).conv.calBusy.testBit (fld (wd 0xF00) 8 4) = true
    ∧ (modConv (fun c => { c with rbConv := some 15 }) s0).conv.rbConv = some 15 ∧ eventNow s0 (aCap 7 8) = none
    ∧ convInService s0 = false ∧ s0.conv.calBusy.testBit (fld (wd 0xF00) 8 4) = false ∧ s0.conv.rbConv = none := by decide

/-! Planes, the key hash and DRAM. -/

theorem witness_TilePlanes :
    (let ld : Load := { activates := true }
     let s := modDamask (fun d => { d with load := some ld }) s0
     s.damask.load = some ld ∧ ld.activates = true ∧ ld.todo = [] ∧ s.dev = .configWait
     ∧ (leAt ld.blocks 23 1 = 2 ↔ fld (rd s aClkCfg) 0 2 ≠ 0) ∧ wzPosBad s (leAt ld.blocks 22 1) = []
     ∧ wzPosBad (withLink 36 { st := .linked, rxSeq := some 0, wzPos := 5 } s) (leAt ld.blocks 22 1) = [36])
    ∧ (let ld : Load := { activates := true, slot := some 0 }
       let s := withReg aClkCfg 1 (modDamask (fun d => { d with load := some ld }) s0)
       ¬(leAt ld.blocks 23 1 = 2 ↔ fld (rd s aClkCfg) 0 2 ≠ 0) ∧ ld.slot = some 0)
    ∧ (let ld : Load := { slot := some 0, todo := [19], entries := [(19, [0, 4, 0x2144DF1C, 0, 0])] }
       let s := modTile 19 (fun t => { t with st := .loading }) (modDamask (fun d => { d with load := some ld }) s0)
       s.damask.load = some ld ∧ ld.todo = [19] ∧ 19 ∉ ([] : List Nat) ∧ (tile s 19).st = .loading ∧ ([] : List Nat).head? ≠ some 0
       ∧ crc32 (dramAt s (ld.offset + (loadEntry ld 19).off) (loadEntry ld 19).len) = (loadEntry ld 19).crc)
    ∧ crc32 [1, 0, 0, 0] ≠ 0x2144DF1C
    ∧ bit (wd 0x80000) 19 = true ∧ bit (wd 0x80000) 0 = false
    ∧ (∀ st ∈ [TileState.loading, .swapping, .shadowRun, .activeOnly, .tileFault], (tile (modTile 19 (fun t => { t with st := st }) s0) 19).st = st)
    ∧ (∀ u ∈ [({ tile := 19, shadow := false, uncorrectable := false } : Upset)], u.uncorrectable = false)
    ∧ (rd s0 aSeuCorr).toNat + 1 < 2 ^ 32 ∧ ({ tile := 19, shadow := true, uncorrectable := true } : Upset).uncorrectable = true ∧ (tile (withPlane 19 (.meter {}) s0) 19).active.isSome = true
    ∧ (tile s0 19).st ≠ .loading ∧ (tile s0 19).st ≠ .swapping := by decide +kernel
/-- A key hash word has been written. -/
def keyed : State := modDamask (fun d => { d with keyWr := [(7, 1)] }) s0

theorem witness_KeyProg : (∃ w ∈ (List.range 8).map (tget dZeroW keyed.damask.keyWr), w ≠ 0)
    ∧ (∀ w ∈ (List.range 8).map (tget dZeroW s0.damask.keyWr), w = 0) := by
  refine ⟨⟨1, by decide, by decide⟩, ?_⟩
  intro w h
  obtain ⟨k, -, rfl⟩ := List.mem_map.mp h
  rfl
theorem witness_KeyBootAndDram :
    keyed.dev = .configWait ∧ keyed.damask.otpKey = none
    ∧ (dev .run).dev ≠ .configWait ∧ (modDamask (fun d => { d with otpKey := some [] }) s0).damask.otpKey ≠ none
    ∧ wd 0 ≠ wd 0x4B48
    ∧ (modDamask (fun d => { d with keyBusy := true }) s0).damask.keyBusy = true
    ∧ (let s := modDamask (fun d => { d with qspiBusy := true }) s0
       s.damask.qspiBusy = true ∧ s.damask.load = none) ∧ ([1] : List Byte).length ≤ 0x1800000
    ∧ (let s := modDamask (fun d => { d with load := some { slot := some 0 } }) s0
       stagingLocked s = true ∧ (25165823 : BitVec 27).toNat < s.damask.stagingMib * 2 ^ 20) ∧ ([1] : List Byte) ≠ [] := by
  decide +kernel

/-! The host interface. -/

theorem witness_RegisterReads : (0x3FFFFF : BitVec 24).toNat < 0x400000 ∧ (0x3FFFFF : BitVec 24).toNat % 4 + 1 ≤ 4
    ∧ 4 < (0x3FFFFF : BitVec 24).toNat % 4 + 2 ∧ eventNow s0 0x3FFFFC = none ∧ svcHolds (0x400018 : BitVec 24).toNat = true
    ∧ svcHolds (0x400001 : BitVec 24).toNat = false ∧ is64Low (0x180 : BitVec 24).toNat = true
    ∧ (regInfo (aLink 0 0x2C)).acc = .rc := by decide
theorem witness_RegisterWrites : (0x3FFFFC : BitVec 24).toNat < 0x400000 ∧ (3 : Nat) ≠ 4
    ∧ (aLp 11 0 % 4 = 0 ∧ 0x100000 ≤ aLp 11 0 ∧ aLp 11 0 < 0x180000 ∧ (regInfo (aLp 11 0)).acc = .rws
       ∧ aLp 11 0 ≠ aChgEn ∧ aLp 11 0 ≠ aChgUpd)
    ∧ (aMu 15 4 % 4 = 0 ∧ 0x200000 ≤ aMu 15 4 ∧ aMu 15 4 < 0x300000 ∧ (regInfo (aMu 15 4)).acc = .rws)
    ∧ (blockOf 0xA4000).1 = 99 ∧ (blockOf (aMu 15 0)).1 = 14 ∧ (regInfo (aMu 15 0)).acc = .ro ∧ svcWritable (0x400000 : BitVec 24).toNat = false := by decide
theorem witness_ServicePort :
    (let good : List Byte := [2, 0x40, 0, 0x20, 0, 0, 0, 1]
     let w := good ++ [byt (crc8 good), 0]
     byteAt w 0 = 2 ∧ 10 ≤ w.length ∧ svcWriteCrcGood w = true ∧ svcWritable (svcAddr w) = true
     ∧ svcWriteCrcGood (good ++ [byt (crc8 good + 1), 0]) = false)
    ∧ (let ro : List Byte := [2, 0x40, 0, 0, 0, 0, 0, 1]
       svcWriteCrcGood (ro ++ [byt (crc8 ro), 0]) = true ∧ svcWritable (svcAddr ro) = false)
    ∧ (let r : List Byte := [3, 0x40, 0, 0x18]
       let x := r ++ [byt (crc8 r)] ++ List.replicate 8 0
       byteAt x 0 = 3 ∧ 13 ≤ x.length ∧ svcReadCrcGood x = true ∧ svcHolds (svcAddr x) = true
       ∧ svcReadCrcGood (r ++ [byt (crc8 r + 1)] ++ List.replicate 8 0) = false)
    ∧ (let r : List Byte := [3, 0x40, 0, 1]
       svcReadCrcGood (r ++ [byt (crc8 r)] ++ List.replicate 8 0) = true ∧ svcHolds (svcAddr r) = false)
    ∧ (4 : Byte) ≠ 2 ∧ (4 : Byte) ≠ 3 ∧ byteAt [2] 0 = 2 ∧ byteAt (3 :: List.replicate 11 0) 0 = 3
    ∧ (3 :: List.replicate 11 (0 : Byte)).length < 13 := by decide +kernel

/-! Time and Ethernet. -/

/-- The servo enabled with source n. -/
def servo (n : Nat) (st : ServoState) : State :=
  modTime (fun t => { t with servo := st }) (withReg aTimeCtrl (wd (1 + 2 * n)) s0)

theorem witness_TimeCommands : servoEn (servo 0 .freeRun) = true ∧ servoEn s0 = false ∧ bit (rd s0 aClkStatus) 2 = false := by
  decide

/-- A PTP source on port 0 with an identity. -/
def ptp (st : ServoState) : State :=
  modEth (fun e => { e with mac0 := 1 }) (withReg aPtpIdLo 1 (withReg (aEth 0 0) (wd 5) (servo 0 st)))

/-- An exchange whose Sync came `ns` late over a path of no delay. -/
def exchange (ns : Nat) : PtpExchange :=
  { sender := 0, domain := 0, logSync := 4, t1 := 0, t2 := 65536 * ns, corr := 0, path := .e2e (65536 * ns) 0 0 }

theorem witness_ServoAndPps : ptpTakes (exchange 5) s0 = false ∧ ptpTakes (exchange 5) (ptp .acquiring) = true
    ∧ (ptp .acquiring).time.servo ≠ .locked ∧ ¬((ptp .acquiring).time.servo = .refLost ∧ bit (rd (ptp .acquiring) aClkStatus) 2 = false)
    ∧ ((ptp .refLost).time.servo = .refLost ∧ bit (rd (ptp .refLost) aClkStatus) 2 = false)
    ∧ servoEn (servo 2 .locked) = true ∧ servoSrc (servo 2 .locked) ≠ 3 ∧ (servo 2 .locked).time.servo = .locked
    ∧ (servo 2 .acquiring).time.servo = .acquiring ∧ (servo 2 .locked).time.hist = []
    ∧ (let s := { servo 2 .locked with tick := 1200000000 }
       s.time.measAt + measGap s ≤ s.tick ∧ (servo 2 .locked).tick < (servo 2 .locked).time.measAt + measGap (servo 2 .locked))
    ∧ (servo 0 .refLost).time.servo = .refLost
    ∧ (servo 0 .holdover).time.servo = .holdover ∧ bit (rd (servo 0 .holdover) (aHo 0)) 0 = false
    ∧ (let s := withReg (aHo 0) (wd 1) (servo 0 .holdover)
       bit (rd s (aHo 0)) 0 = true ∧ hoTemp s = none ∧ hoTemp (modChan 0 (fun c => { c with valid := true, temp := 400 }) s) = some 400)
    ∧ (let s := withReg aPpsCfg 1 (modTime (fun t => { t with ppsPass := true }) s0)
       bit (rd s aPpsCfg) 0 = true ∧ s.time.ppsPass = true ∧ s0.time.ppsPass = false)
    ∧ (let s := withReg aPpsCfg 0 s0; s.time.ppsAt + ppsWidth s ≤ s.tick)
    ∧ s0.time.ppsInAt + 600000000 ≤ { s0 with tick := 600000000 }.tick ∧ s0.tick < s0.time.ppsInAt + 600000000
    ∧ servoSrc (servo 2 .locked) = 2 := by decide +kernel
theorem witness_ServoAndPps_sizes :
    (let s := withReg aLockNs 4 (withReg aStepNs 4 (ptp .acquiring))
     ptpTakes (exchange 5) s = true ∧ (rd s aStepNs).toNat < (ptpOffset (exchange 5)).natAbs
     ∧ (rd s aLockNs).toNat < (ptpOffset (exchange 5)).natAbs)
    ∧ (ptpOffset (exchange 5)).natAbs ≤ (rd (ptp .acquiring) aStepNs).toNat := by decide +kernel

/-- Port 1 enabled with an address, its link up, the receive ring of four entries with the host at `head`. -/
def eth1 (head : Nat) : State :=
  modEth (fun e => { e with mac1 := 1, up1 := true })
    (withReg (aEth 1 0x28) (wd head) (withReg (aEth 1 0x24) (wd 4) (withReg (aEth 1 0) (wd 5) (withReg aPtpIdLo 1 s0))))
/-- LQ7 enabled, holding a frame for port 1 due at n ns, or at once. -/
def lq7 (n : Option Nat) (drop : Bool) : State :=
  modTime (fun t => { t with ns := 100000 })
    (withReg (aLq 7 0x10) (wd (1 + 2 * b2n drop))
      (modEth (fun e => { e with lq7 := [(1, n.map (fun x => (0, x)), [7])] }) (eth1 0)))
/-- A datagram for TW_PORT on port 0, from a station that sends a front of line 0. -/
def twDgram : List Byte := udpFrame s0 0 0 0 0 (twBytes {})
/-- Port 0 enabled with its link up, line 0 enabled or not. -/
def eth0 (v : Nat) : State :=
  modEth (fun e => { e with mac0 := 1, up0 := true }) (withReg (aLineCfg 0 0) (wd v) (withReg (aEth 0 0) (wd 1) (withReg aTwPort 0 s0)))

theorem witness_EthernetQueues : portEnabled (eth1 0) 1 = true ∧ portEnabled s0 0 = false ∧ linkUp s0 1 = false ∧ linkUp (eth1 0) 1 = true
    ∧ twFrame (eth1 0) 1 [1] = none
    ∧ ringNext (rd (eth1 0) (aEth 1 0x24)).toNat (rd (eth1 0) (aEth 1 0x2C)).toNat ≠ (rd (eth1 0) (aEth 1 0x28)).toNat
    ∧ ringNext (rd (eth1 1) (aEth 1 0x24)).toNat (rd (eth1 1) (aEth 1 0x2C)).toNat = (rd (eth1 1) (aEth 1 0x28)).toNat
    ∧ linkUp (eth0 0) 0 = true ∧ lineOn (eth0 0) 0 = false ∧ lineOn (eth0 0x80000000) 0 = true
    ∧ twRead (twBytes {}) = some {} ∧ (rd s0 aTwRxDrop).toNat + 1 < 2 ^ 32 ∧ lqHead s0 7 = none
    ∧ (∀ n ∈ [none, some 100008, some 99992, some 99991, some 100009], ∀ d ∈ [true, false],
        (lqHead (lq7 n d) 7).map (fun h => (h.port, h.launch, h.own)) = some (1, n, true)
        ∧ (lqHead (lq7 n d) 7).map (lqBlocked (lq7 n d) 7) = some false
        ∧ linkUp (lq7 n d) 1 = true)
    ∧ (100008 : Int) * 65536 - nowFine (lq7 none true) = 524288 ∧ (99992 : Int) * 65536 - nowFine (lq7 none true) = -524288
    ∧ (99991 : Int) * 65536 - nowFine (lq7 none true) < -524288 ∧ 524288 < (100009 : Int) * 65536 - nowFine (lq7 none true)
    ∧ bit (rd (lq7 none true) (aLq 7 0x10)) 1 = true ∧ bit (rd (lq7 none false) (aLq 7 0x10)) 1 = false
    ∧ linkUp { (lq7 none true) with eth := { (lq7 none true).eth with up1 := false } } 1 = false := by decide +kernel

/-! Measurement. -/

/-- The MEAS tile live with PMU, travelling waves (component 2, threshold 10) and the recorder enabled. -/
def meas (f : Meas → Meas) : State :=
  modMeas f (setFo aRecCfg (wd 0x0430FFFF) (setFo (aTwCfg + 4) (wd 10) (setFo aTwCfg (wd 9) (setFo aPmuCfg 1
    (withPlane 18 (.meas {}) s0)))))

theorem witness_Synchrophasors : 65535 < 65536 ∧ (List.replicate 4 (0 : Byte)).length + 28 < 65536
    ∧ (pmuEn s0 && s0.meas.dataRunning) = false
    ∧ (let s := meas (fun m => { m with dataRunning := true })
       (pmuEn s && s.meas.dataRunning) = true ∧ fld (rd s aIdcode) 0 16 = 0 ∧ pmuEn s = true
       ∧ fld (rd (withReg aIdcode 1 s) aIdcode) 0 16 ≠ 0 ∧ pmuEn (withReg aIdcode 1 s) = true)
    ∧ (meas (fun m => { m with cfgPending := true })).meas.cfgPending = true ∧ s0.meas.cfgPending = false := by decide
/-- Samples, newest first, whose component 2 stepped to `a` five samples ago. -/
def rise (a : Int) : List TwSample :=
  (List.range 14).map (fun i => { tick := 100 - 2 * i, fine := 327680 * (100 - i), a := if i < 5 then a else 0 })
/-- The MEAS tile with a step of `a` in its samples and channel 3 an input of the detector. -/
def wave (a : Int) (f : Meas → Meas) : State :=
  withPlane 18 (.meas { twCh := [3] }) (meas (fun m => f { m with twBuf := rise a }))

theorem witness_TravellingWaves :
    twFront s0 2 = none ∧ twFront (wave 0 id) 2 = none
    ∧ (twFront (wave 100000 id) 2).map (fun k => (k.d, k.at_.tick)) = some (100000, 92)
    ∧ (let ok := fun (s : State) => twEn s && bit (fo s aTwCfg) (1 + 2) && (plane s 18).meas.twCh.contains 3
         && (!s.meas.twOpen || (decide (s.meas.twFronts < 32) && decide (92 < s.meas.twStart + twWindow s)))
       ok (wave 100000 id) = true ∧ ok (wave 100000 (fun m => { m with twOpen := true, twFronts := 31 })) = true
       ∧ ok (wave 100000 (fun m => { m with twOpen := true, twFronts := 32 })) = false)
    ∧ s0.meas.twOpen = false ∧ (let s := { meas (fun m => { m with twOpen := true }) with tick := 1000000 }
       s.meas.twOpen = true ∧ s.meas.twStart + twWindow s ≤ s.tick)
    ∧ fld (rd s0 aTwStation) 0 18 = 0 ∧ fld (rd (withReg aTwStation (wd 0x3FFFF) s0) aTwStation) 0 18 ≠ 0
    ∧ (let r : TwReport := { station := 2 ^ 18 - 1, line := 65535, event := 65535, sec := 2 ^ 48 - 1, ns := 999999999
                             frac := 65535, uncert := 65535, front := 255, tq := 255, peak := -32768, rise := 65535 }
       r.station < 2 ^ 18 ∧ r.sec < 2 ^ 48 ∧ r.ns < 2 ^ 30 ∧ -32768 ≤ r.peak ∧ r.peak ≤ 32767 ∧ r.front < 256)
    ∧ runSlot (withSlot 3 { st := .running, op := 9, started := true } s0) 0x09 = some 3
    ∧ (∀ f ∈ s0.meas.fronts, f.station = 0 → f.event ≠ 0) := by decide +kernel
theorem witness_WaveformRecorder : bit (wd 0) 0 = false ∧ bit (fo s0 aRecCfg) 26 = false
    ∧ bit (wd 1) 0 = true ∧ bit (fo (meas id) aRecCfg) 26 = true ∧ s0.meas.recFilling = false
    ∧ (let s := fun n frozen => meas (fun m => { m with recFilling := true, recPost := n, recFrozen := frozen })
       let cap := recInstants (s 0 0) (fo (s 0 0) aRecCfg)
       let n := cap - cap * fld (fo (s 0 0) aRecCfg) 22 4 / 16
       n ≤ (s n 0).meas.recPost ∧ (s n 0).meas.recFilling = true ∧ recNext (s n 0) = some 1 ∧ recNext (s n 0xFF) = none
       ∧ (rd (s n 0) aRecMiss).toNat + 1 < 2 ^ 32)
    ∧ (meas (fun m => { m with recFrozen := 255 })).meas.recFrozen < 256
    ∧ (let s := withSlot 3 { st := .running, op := 8, started := true, ps := [7, wd 0x1000] } s0
       runSlot s 0x08 = some 3 ∧ (slot s 3).st = .running ∧ (param s 3 1).toNat + 64 ≤ dramSize) := by decide +kernel

/-! Metering. -/

/-- METER live, its fields as f says. -/
def metr (f : Meter → Meter) : State := modMeter f (setFo aMeterCfg (wd 2) (withPlane 19 (.meter {}) s0))

theorem witness_EnergyMetering : tileLive (metr id) 19 = true ∧ (metr (fun m => { m with metering := true })).meter.metering = true
    ∧ ¬(fld (fo (metr id) aMeterCfg) 0 16 ≤ (metr id).meter.cycles + 1)
    ∧ fld (fo (metr id) aMeterCfg) 0 16 ≤ (metr (fun m => { m with metering := true, cycles := 1 })).meter.cycles + 1
    ∧ (metr (fun m => { m with startDue := true })).meter.startDue = true ∧ (metr id).meter.metering = false
    ∧ (metr (fun m => { m with pulse := 255 })).meter.pulse < 256
    ∧ (metr (fun m => { m with periodicDue := true })).meter.periodicDue = true ∧ (metr id).meter.periodicDue = false
    ∧ (metr (fun m => { m with pfwLow := true })).meter.pfwLow = true
    ∧ (metr id).dev ≠ .run ∧ (tile (metr id) 19).st = .activeOnly ∧ (dev .run).dev = .run
    ∧ (tile (modTile 19 (fun t => { t with st := .loading }) s0) 19).st ≠ .activeOnly ∧ wd 0 ≠ wd 0x434C := by decide
theorem witness_BypassClear : s0.dev ≠ .run ∧ wd 0 ≠ wd 0x4243 ∧ (dev .run).dev = .run := by decide

/-- Bracken as f says. -/
def br (f : Bracken → Bracken) : State := modBr f (modTime (fun t => { t with servo := .locked }) s0)

theorem witness_BypassMeter : s0.bracken.running = false ∧ (br (fun b => { b with running := true })).bracken.running = true
    ∧ (br (fun b => { b with running := true })).time.servo = .locked ∧ (servo 0 .holdover).time.servo = .holdover
    ∧ alignDue (br (fun b => { b with running := true })).bracken = true
    ∧ (br (fun b => { b with vbatLost := true })).bracken.vbatLost = true
    ∧ (br (fun b => { b with vbatOk := true })).bracken.vbatOk = true ∧ s0.bracken.open_ = false := by decide
/-- A channel whose RMS of 2^-8 µA is above BR_ITHRES. -/
theorem witness_BypassMeter_current : let s := br (fun b => { b with running := true, regs := [(aBr 0x18, 1), (aBr 0x24, 0xFFFFFFFF)] })
    (brReg s 0x20).toNat * 256000 < (brRmsAll s (List.replicate 2 0xFFFFFF) [] []).getD 0 0 := by decide +kernel

/-! Interrupts, watchdogs, thermal, power. -/

theorem witness_VectorsAndWatchdogs : (∀ p ∈ s0.therm.hists, p.2.accepting = false) ∧ wdogRuns s0 false = false
    ∧ (wdogRuns dogs true && wdogPast dogs true 1) = true ∧ (wdogRuns s0 false && wdogPast s0 false 1) = false ∧ bit (rd s0 aHostWdogCfg) 14 = false ∧ wd 0 ≠ wd 0x4B43
    ∧ bit (rd (withReg aHostWdogCfg (wd 0x4000) s0) aHostWdogCfg) 14 = true
    ∧ bit (rd (withReg aSvcWdogCfg (wd 0x4000) s0) aSvcWdogCfg) 14 = true ∧ bit (rd s0 aSvcWdogCfg) 14 = false := by decide

/-- Channel 7 in mode m. -/
def ts7 (m : Nat) : State := withReg (aTs 7 0) (wd m) s0

theorem witness_ThermalAndRails : fld (rd s0 (aTs 7 0)) 0 2 = 0 ∧ fld (rd (ts7 1) (aTs 7 0)) 0 2 ≠ 0
    ∧ tsOpen 1 { v1 := 1000000000, v4 := 0, v16 := 0 } = false ∧ tsShort 1 { v1 := 150000000, v4 := 0, v16 := 0 } = false
    ∧ tsOpen 1 { v1 := 1000000001, v4 := 0, v16 := 0 } = true ∧ tsShort 1 { v1 := 149999999, v4 := 0, v16 := 0 } = true
    ∧ tsOpen 2 { v1 := 1150000000, v4 := 0, v16 := 0 } = false ∧ tsShort 3 { v1 := 999999, v4 := 0, v16 := 0 } = true
    ∧ (tsMeasure (ts7 2) 7 { v1 := 100000000, v4 := 0, v16 := 0 }).1.isSome = true
    ∧ (tsMeasure (ts7 3) 7 { v1 := 100000000, v4 := 0, v16 := 0 }).1 = none
    ∧ bit (rd (ts7 0x41) (aTs 7 0)) 6 = true ∧ bit (rd (ts7 1) (aTs 7 0)) 6 = false
    ∧ (let s := fun n => { withSlot 3 { st := .running, op := 7, started := true, ps := [0, wd 0x80000000, 0, 5] } s0 with tick := n }
       runSlot (s 2000) 0x07 = some 3 ∧ (slot (s 2000) 3).st = .running ∧ histEngines (s 2000) 3 = [63]
       ∧ (hist (s 2000) 63).accepting = false
       ∧ 0 < (param (s 2000) 3 3).toNat ∧ 400 * (param (s 2000) 3 3).toNat ≤ histRun (s 2000)) := by decide +kernel

/-- CONFIG-WAIT or TRIPPED with EN high, out of reset, TL35's DCK running. -/
def ready (f : Power → Power) : State :=
  modPower f (modGorse (fun g => { g with en := true })
    (withLink 35 { dck := true } { (dev .tripped) with power := { inReset := false } }))

theorem witness_ResetsAndStandby : (ready id).power.inReset = false ∧ s0.power.inReset = true ∧ s0.power.dieHold = false
    ∧ (modPower (fun p => { p with dieHold := true }) s0).power.dieHold = true
    ∧ bit (rd s0 aClkStatus) 5 = false ∧ bit (rd (clk 0x20) aClkStatus) 5 = true
    ∧ (ready id).power.standby = false ∧ stbyOk (ready id) = true ∧ wakeNow (ready id) = none ∧ stbyOk s0 = false
    ∧ (ready (fun p => { p with standby := true })).power.standby = true
    ∧ (ready (fun p => { p with standby := true })).power.waking = false
    ∧ wd 0 ≠ wd 0x5342 ∧ wd 0 ≠ wd 0x5742
    ∧ (ready (fun p => { p with standby := true, waking := true, stbyDck := 2 ^ 35 })).power.stbyDck.testBit 35 = true
    ∧ (ready (fun p => { p with standby := true, waking := true })).power.waking = true := by decide

/-! Results that the rules and the worked examples of the spec give. -/

/-- "123456789" in ASCII. -/
def digits : List Byte := [0x31, 0x32, 0x33, 0x34, 0x35, 0x36, 0x37, 0x38, 0x39]

/-- R116 and R339. -/
theorem test_crc_of_digits : crc16 digits = 0x29B1 ∧ crc8 digits = 0xF4 := by decide +kernel
/-- R162 and the worked example of chapter 6: carrier 1 with AUTO_INDEX 1 of 24, a period of 50,000 and then 62,500. -/
theorem test_carrier_phase : phaseOf { autoIndex := 1, autoDiv := 24 } 0 = 2731 ∧ phiOf 2731 50000 = 33337
    ∧ phiOf 2731 62500 = 41672 := by decide +kernel
/-- The same example: a compare of 30,000 is on from 4,833,425 ps to 16,833,425 ps. -/
theorem test_channel_on : (chanOn false 50000 30000 2731).map (fun i => (25 * i.1, 25 * i.2)) = [(4833425, 16833425)] := by
  decide +kernel
/-- The worked example of chapter 7: the term Φ(1,0)·v̂ alone is 40,000 A in Q12.20. -/
theorem test_law_term : term 1677721600 25 (800 * 2 ^ 20) = 41943040000 := by decide
/-- R371 and the worked example of chapter 13: TS2 at 91.5 °C with a knee of 85 °C, S = 250 and F = 4,000. -/
theorem test_throttle : thrContrib (wd 0x0FA000FA) 1360 1464 true = 27443 ∧ thrContrib (wd 0x0FA000FA) 1360 1360 true = 32768
    ∧ thrContrib (wd 0x0FA000FA) 1360 1744 true = 13107 ∧ thrContrib (wd 0x0FA000FA) 1360 0 false = 13107 := by decide
/-- R370: released below the level minus 1 °C, not at it. -/
theorem test_over_limit : overLevel false 4000 4000 = false ∧ overLevel false 4001 4000 = true ∧ overLevel true 3984 4000 = true
    ∧ overLevel true 3983 4000 = false := by decide
/-- Station A of the worked example of chapter 10, with its own front and B's report. -/
def stationA : State :=
  modMeas (fun m => { m with fronts := [
      { event := 1, sec := 9, ns := 500042857, frac := 9362, uncert := 2000 },
      { event := 5, sec := 9, ns := 500100000, uncert := 2000, station := 107717, line := 0 }] })
    (withReg (aLineCfg 0 0xC) (wd 107717) (withReg (aLineCfg 0 8) (wd 1000) (withReg (aLineCfg 0 4) (wd 294000)
      (withReg (aLineCfg 0 0) (wd 420000) s0))))
/-- R295 and that example: dx of the double-ended location is 143 dm. -/
theorem test_tw_locate : (twLocate stationA 0 1 true).r2 = 143 := by decide +kernel
/-- R254: the levels of codes 0 and 1,023, in 2^-3 µV. -/
theorem test_wc_level : wcLevel 0 0 = -8000000 ∧ wcLevel 0 1023 = 7984375 ∧ wcLevel 16 1023 = 12787500 := by decide
/-- R350 and the worked example of chapter 12: slot 3 after GEN 0x01A takes the handle 0x01B3. -/
theorem test_op_handle : handle 3 (slot (after (.waveDump 3 2 (wd 0x400000)) (withSlot 3 { st := .completed, gen := 0x1A } s0)) 3)
    = 0x1B3 := by decide +kernel
/-- The same example: a later action that names 0x01A3 is stale. -/
theorem test_op_stale : bit (rd (after (.suspend 0x1A3) (withSlot 3 { st := .running, gen := 0x1B, op := 8 } s0)) aOpqSticky) 1
    = true := by decide +kernel
/-- R15: the first HOST_TRIP is recorded: TRIPPED and source 185 latched. -/
theorem test_host_trip : (after (.hostTrip (wd 0x5452)) (dev .run)).dev = .tripped
    ∧ (after (.hostTrip (wd 0x5452)) (dev .run)).gorse.latch = 2 ^ 185 := by decide +kernel
/-- R235 and the worked example of chapter 8: the first words of the DSAT4 record with SEQ 41. -/
theorem test_trip_record : let s := { (dev .run) with
        gorse := { recSeq := 41 }, power := { inReset := false }
        links := (List.range 36).map (fun l => (l, { st := .linked, dck := true })) }
    let t := after (.dsatCrossing 4) (withPair 4 { cmdH := true } s)
    recWord t 0 0 = 0x00040029 ∧ recWord t 0 4 = 0xFFFFFFFF ∧ recWord t 0 5 = 0x0FFF000F := by decide +kernel
/-- R222: a low of 10 µs qualifies, one of a tick less does not. -/
theorem test_en_filter : let x : EnLive := { dsatClear := 0xFFF, clkGood := true, haltEnded := true, crcA := true, crcB := true }
    (after (.enRise x) { (dev .tripped) with tick := 3999 }).dev = .tripped
    ∧ (after (.enRise x) { (dev .tripped) with tick := 4000 }).dev = .run := by decide +kernel
/-- R268: a negative step across zero seconds borrows from the seconds. -/
theorem test_time_adj : let t := after (.timeAdj (wdI (-1))) (modTime (fun t => { t with sec := 5 }) s0)
    t.time.sec = 4 ∧ t.time.ns = 999999999 := by decide +kernel
/-- R112: the tenth slip brings SLIP_POS back to 0. -/
theorem test_slip_wraps : (link (after (.bitslipUp 0) (withLink 0 { manual := true, slipPos := 9 } s0)) 0).slipPos = 0 := by decide
/-- R336: a write past the end of DRAM stores nothing there, and a read gives back what was written. -/
theorem test_dram : (after (.bar2Read 5 3 .clean) (after (.bar2Write 5 [7, 0, 9]) s0)).host.result = .bytes [7, 0, 9] := by
  decide +kernel
/-- R45: PART_KIND. -/
theorem test_part_kind : (after (.rcRead .host 0 4) s0).host.result = .data 0x54361610 := by decide +kernel
/-- R306, R308 and R312: 3,600 W over one second on DC port LV0 are 1,000 mWh of import and of apparent energy, in
element a and in the sum. -/
theorem test_energy : dcIncs 1 (mkRat (4294967296 * 10) 36) { p := 3600 }
    = [(72, 4294967296000), (78, 4294967296000), (120, 4294967296000), (126, 4294967296000)] := by decide +kernel

end Sys2Proof.Tests
end

/-! Chapter 9: the reference buffer (R245, R246, R250) and the spot reads of the converters (R238, R241 to R245). -/

namespace Sys2Proof.Conversion

open Sys2Proof Sys2Proof.Machine Sys2Proof.Laws

/-! Frames shared by the commands of the converters. -/

theorem unchangedBut_refl (l : List Part) (s : State) : unchangedBut l s s := fun p _ => by cases p <;> rfl

/-- A command changes only the fields that `parts` names. -/
theorem exec_unchangedBut (c : Instr) (s t : State) (e : exec c s = .next t) : unchangedBut (parts c) s t :=
  kept_execAll c (kept_unchangedBut _ s) s t e (unchangedBut_refl _ s)

/-- The blocks between TIME and the service port hold no register of an interrupt event. -/
theorem not_intReg_of_between {a : Nat} (h : 0x60000 ≤ a) (h' : a < 0x400000) : ¬ intReg a := by
  unfold intReg
  omega

section
variable (s : State)

@[simp] theorem hostAccess_regs : (hostAccess s).regs = s.regs := kept_hostAccess (kept_same .regs rfl s) s rfl
@[simp] theorem hostAccess_dev : (hostAccess s).dev = s.dev := kept_hostAccess (kept_same .dev rfl s) s rfl
@[simp] theorem hostAccess_conv : (hostAccess s).conv = s.conv := kept_hostAccess (kept_same .conv rfl s) s rfl
@[simp] theorem rd_hostAccess (a : Nat) : rd (hostAccess s) a = rd s a := rd_of_regs (hostAccess_regs s) a

@[simp] theorem convStick_conv (b : Nat) : (convStick b s).conv = s.conv := stick_conv ..

theorem rd_convStick (b a : Nat) (ha : ¬ intReg a) :
    rd (convStick b s) a = if a = aConvSticky then rd s aConvSticky ||| wd (2 ^ b) else rd s a :=
  rd_stick s _ _ a _ (by rintro n ⟨⟩; decide) ha

end

/-! Bits and fields of words. -/

@[simp] theorem bit_or (x y : Word) (k : Nat) : bit (x ||| y) k = (bit x k || bit y k) := BitVec.getLsbD_or
@[simp] theorem bit_and (x y : Word) (k : Nat) : bit (x &&& y) k = (bit x k && bit y k) := BitVec.getLsbD_and

theorem bit_not {k : Nat} (x : Word) (hk : k < 32) : bit (~~~x) k = !bit x k := by simp [bit, hk]

theorem bit_wd {k : Nat} (x : Nat) (hk : k < 32) : bit (wd x) k = x.testBit k := by
  rw [bit, wd, BitVec.getLsbD_ofNat]
  simp [hk]

theorem testBit_fld (w : Word) (lo len k : Nat) : (fld w lo len).testBit k = (decide (k < len) && bit w (lo + k)) := by
  simp [fld, natFld, bit, BitVec.getLsbD]

/-- A field is read off the bits of its word. -/
theorem fld_eq_of_bits {w : Word} {lo len x : Nat} (hx : x < 2 ^ len) (h : ∀ k, k < len → bit w (lo + k) = x.testBit k) :
    fld w lo len = x := by
  refine Nat.eq_of_testBit_eq fun k => ?_
  rw [testBit_fld]
  by_cases hk : k < len
  · simp [hk, h k hk]
  · have hle : 2 ^ len ≤ 2 ^ k := Nat.pow_le_pow_right (by decide) (by omega)
    simp [hk, Nat.testBit_lt_two_pow (hx.trans_le hle)]

theorem maskOf_succ (n : Nat) (p : Nat → Bool) : maskOf (n + 1) p = if p n then maskOf n p + 2 ^ n else maskOf n p := by
  simp [maskOf, List.range_succ]

theorem maskOf_lt (n : Nat) (p : Nat → Bool) : maskOf n p < 2 ^ n := by
  induction n with
  | zero => simp [maskOf]
  | succ n ih =>
    rw [maskOf_succ, Nat.pow_succ]
    split <;> omega

/-- The mask of a predicate has the bits for which the predicate holds. -/
theorem testBit_maskOf (n : Nat) (p : Nat → Bool) (k : Nat) : (maskOf n p).testBit k = (decide (k < n) && p k) := by
  induction n with
  | zero => simp [maskOf]
  | succ n ih =>
    rw [maskOf_succ]
    rcases Nat.lt_trichotomy k n with hk | rfl | hk
    · have hs : (maskOf n p + 2 ^ n).testBit k = (maskOf n p).testBit k := by
        rw [Nat.add_comm, Nat.testBit_two_pow_add_gt hk]
      simp [apply_ite (fun m => Nat.testBit m k), hs, ih, hk, Nat.lt_succ_of_lt hk]
    · have hs : (maskOf k p + 2 ^ k).testBit k = true := by
        rw [Nat.add_comm, Nat.testBit_two_pow_add_eq, Nat.testBit_lt_two_pow (maskOf_lt k p)]
        rfl
      cases hp : p k <;> simp [hp, hs, ih]
    · have hlt : (if p n = true then maskOf n p + 2 ^ n else maskOf n p) < 2 ^ k := by
        rw [← maskOf_succ]
        exact (maskOf_lt (n + 1) p).trans_le (Nat.pow_le_pow_right (by decide) hk)
      simp [Nat.testBit_lt_two_pow hlt, Nat.not_lt.mpr (Nat.succ_le_of_lt hk)]

/-! Listed values of a sparse table. -/

theorem tlook_tdel_self {α : Type} (t : Tbl α) (k : Nat) : tlook (tdel t k) k = none := by
  induction t with
  | nil => rfl
  | cons p t ih =>
    by_cases hk : p.1 = k
    · simp [tdel, hk, ih]
    · simp [tdel, tlook, hk, ih]

theorem tlook_tins_self {α : Type} (t : Tbl α) (k : Nat) (v : α) (h : tlook t k = none) : tlook (tins t k v) k = some v := by
  induction t with
  | nil => simp [tins, tlook]
  | cons p t ih =>
    have hp : p.1 ≠ k := by
      intro e
      simp [tlook, e] at h
    have ht : tlook t k = none := by simpa [tlook, hp] using h
    simp only [tins]
    split
    · simp [tlook]
    · simp [tlook, hp, ih ht]

/-- A key set to a value other than its default is listed with that value. -/
theorem tlook_tset_self {α : Type} [DecidableEq α] (d : Nat → α) (t : Tbl α) (k : Nat) (v : α) (hv : v ≠ d k) :
    tlook (tset d t k v) k = some v := by
  rw [tset, if_neg hv, tlook_tins_self _ _ _ (tlook_tdel_self t k)]

/-! Events of a tick (R15). -/

section
variable (s : State)

/-- The first event of a tick on a register is noted with the word that the register held before it. -/
theorem eventNow_noteEvent (a : Nat) (f : Word → Word) (h : eventNow s a = none) :
    eventNow (noteEvent a f s) a = some { tick := s.tick, before := rd s a, set := f 0, count := 1 } := by
  have hl : tlook (noteEvent a f s).events a = some { tick := s.tick, before := rd s a, set := f 0, count := 1 } := by
    rw [noteEvent, h]
    exact tlook_tset_self _ _ _ _ (by simp [dEvent])
  simp [eventNow, hl]

theorem eventNow_landWord (a : Nat) (m v : Word) (h : eventNow s a = none) :
    eventNow (landWord a m v s) a = some { tick := s.tick, before := rd s a, set := m, count := 1 } := by
  have he := eventNow_noteEvent s a (· ||| m) h
  simp only [BitVec.ofNat_eq_ofNat, BitVec.zero_or] at he
  exact he

/-- An event of a tick is past in the next one. -/
theorem eventNow_next_tick {a : Nat} {e : HwEvent} (h : eventNow s a = some e) :
    eventNow { s with tick := s.tick + 1 } a = none := by
  unfold eventNow at h ⊢
  split at h
  · next x hx =>
    split at h
    · next ht => simp [hx, ht]
    · cases h
  · cases h

end

/-! The reference buffer (R245, R246, R250). -/

section
variable (s : State)

@[simp] theorem refOn_wr_refCtrl (w : Word) : refOn (wr aRefCtrl w s) = bit w 0 := by simp [refOn]

theorem doRefEnWrite_of_one {v : Word} (hv : bit v 0 = true) : doRefEnWrite v s = wr aRefCtrl 1 s := if_pos hv

theorem doRefEnWrite_of_zero {v : Word} (hv : bit v 0 = false) (hd : s.dev = .configWait) :
    doRefEnWrite v s = wr aRefCtrl 0 (modConv (fun c => { c with refSettled := false }) s) := by
  simp [doRefEnWrite, hv, hd]

theorem doRefEnWrite_refused {v : Word} (hv : bit v 0 = false) (hd : s.dev ≠ .configWait) :
    doRefEnWrite v s = convStick 0 s := by
  simp [doRefEnWrite, hv, hd]

theorem doRefSettled_of_on (ho : refOn s = true) (hs : s.conv.refSettled = false) :
    doRefSettled s = modConv (fun c => { c with
      refSettled := true, calBusy := if c.calWait then c.calMask else c.calBusy, calWait := false }) s := by
  simp [doRefSettled, ho, hs]

/-- A refused write of 0 sets REF_OFF_REFUSED, and REF_CTRL keeps its word. -/
theorem refOn_convStick (b : Nat) : refOn (convStick b s) = refOn s := by
  rw [refOn, rd_convStick _ _ _ (not_intReg_of_between (by decide) (by decide)), if_neg (by decide), refOn]

end

/-- Settles O41: each write of REF_EN is one of three cases of its first bit and the device state. -/
theorem referenceBuffer : Obligations.ReferenceBuffer := by
  refine ⟨fun v s hv => ⟨_, rfl, ?_⟩, fun v s hv hd => ⟨_, rfl, ?_⟩, fun v s hv hd => ⟨_, rfl, ?_⟩,
    fun s ho hs => ⟨_, rfl, ?_, exec_unchangedBut .refSettled s _ rfl⟩⟩
  · rw [doRefEnWrite_of_one _ hv]
    refine ⟨refOn_wr_refCtrl _ _, hostAccess_conv s, fun a ha _ => ?_⟩
    rw [rd_wr_ne _ _ ha, rd_hostAccess]
  · rw [doRefEnWrite_of_zero _ hv (by simpa using hd)]
    refine ⟨refOn_wr_refCtrl _ _, by simp, fun a ha _ => ?_⟩
    rw [rd_wr_ne _ _ ha, rd_modConv, rd_hostAccess]
  · rw [doRefEnWrite_refused _ hv (by simpa using hd)]
    refine ⟨?_, ?_, by simp, fun a ha hi => ?_⟩
    · rw [rd_convStick _ _ _ (not_intReg_of_between (by decide) (by decide)), if_pos rfl]
      simp [bit, wd]
    · rw [refOn_convStick, refOn, rd_hostAccess, refOn]
    · rw [rd_convStick _ _ _ hi, if_neg ha, rd_hostAccess]
  · simp [doRefSettled_of_on s ho hs]

/-! ADCn_DATA in the register map (R243, R264). -/

theorem hit_outside {o base stride n : Nat} (h : o < base ∨ base + stride * n ≤ o) : hit o base stride n = false := by
  rcases h with h | h
  · simp [hit, Nat.not_le.mpr h]
  · simp [hit, Nat.not_lt.mpr h]

theorem blockOf_adcData (n : ConvNo) : blockOf (aAdcData n) = (11, 0x1C0000) := by revert n; decide
theorem acc_adcData (n : ConvNo) : (regInfo (aAdcData n)).acc = .w1c := by revert n; decide
theorem rcBits_adcData (n : ConvNo) : rcBits (aAdcData n) = wd 0x10000 := by revert n; decide
theorem ovrBit_adcData (n : ConvNo) : ovrBit (aAdcData n) = wd 0x20000 := by revert n; decide
theorem is64Low_adcData (n : ConvNo) : is64Low (aAdcData n) = false := by revert n; decide
theorem isCaptured_adcData (n : ConvNo) : isCaptured (aAdcData n) = false := by revert n; decide

section
variable (s : State) (n : ConvNo)

theorem readWord_adcData : readWord s (aAdcData n) = rd s (aAdcData n) := by
  have hn := n.isLt
  have ho : aAdcData n - 0x1C0000 = 0x100 + 4 * n := by
    unfold aAdcData
    omega
  have hv : regView s (aAdcData n) = none := by
    simp only [regView, blockOf_adcData, ho, viewConv]
    rw [if_neg (by omega), if_neg (by omega), if_neg (by omega), if_neg (by omega), if_neg (by omega)]
  simp [readWord, hv, acc_adcData]

/-- A host read of ADCn_DATA returns the word from before the events of this tick and writes back what they leave. -/
theorem hostRead_adcData : hostRead (aAdcData n) 4 s
    = setResult (.data (readLive (aAdcData n) s)) (wr (aAdcData n) (afterRead (aAdcData n) s) s) := by
  have hn := n.isLt
  have hm : ∀ t, readMarks .host (aAdcData n) t = t := by
    intro t
    rw [readMarks, hit_outside (by unfold aAdcData; omega), hit_outside (by unfold aAdcData; omega)]
    simp
  have hd : captured .host (aAdcData n) s = none := by simp [captured, isCaptured_adcData]
  have hr : readReg .host (aAdcData n) s = wr (aAdcData n) (afterRead (aAdcData n) s) s := by
    have hc : captures .host (aAdcData n) s = s := by
      rw [captures, if_neg (by unfold aAdcData aTimeNs; omega), is64Low_adcData]
      rfl
    simp [readReg, hc, hd, hm, rcBits_adcData, wd]
  have h4 : aAdcData n % 4 = 0 := by unfold aAdcData; omega
  have hl : ∀ w : Word, lanes w 0 4 = w := by
    intro w
    have hw := w.isLt
    simp [lanes, natFld, wd, Nat.mod_eq_of_lt hw]
  rw [hostRead, if_neg (by unfold aAdcData; omega), if_neg (by unfold aAdcData; omega), if_neg (by omega)]
  simp only [h4, Nat.sub_zero, hl, readData, hd, hr, Option.getD_none]

@[simp] theorem setResult_result (r : BusResult) : (setResult r s).host.result = r := rfl
@[simp] theorem rd_setResult (r : BusResult) (a : Nat) : rd (setResult r s) a = rd s a := rfl

end

/-! What a capture writes (R243). -/

/-- The word of ADCn_DATA after a capture of a value with the flags of a sample, where it held old before. -/
def adcWord (old : Word) (data flags : Nat) : Word :=
  wd (data % 65536 + 65536 + 131072 * b2n (bit old 16 || bit old 17)
    + 2 ^ 18 * (flags % 4 + 4 * (flags / 8 % 2) + 8 * (flags / 4 % 2)))

/-- A field of a word below its top. -/
theorem fld_wd {x lo len : Nat} (hx : x < 2 ^ 32) : fld (wd x) lo len = x / 2 ^ lo % 2 ^ len := by
  rw [fld, natFld, wd, BitVec.toNat_ofNat, Nat.mod_eq_of_lt hx, Nat.shiftRight_eq_div_pow]

section
variable (old : Word) (data flags : Nat)

theorem b2n_lt_two (b : Bool) : b2n b < 2 := by cases b <;> decide

theorem fld_adcWord_data : fld (adcWord old data flags) 0 16 = data % 65536 := by
  have hb := b2n_lt_two (bit old 16 || bit old 17)
  rw [adcWord, fld_wd (by omega)]
  omega

theorem bit_adcWord_new : bit (adcWord old data flags) 16 = true := by
  rw [adcWord, bit_wd _ (by decide), Nat.testBit_eq_decide_div_mod_eq, decide_eq_true_iff]
  omega

theorem bit_adcWord_ovr : bit (adcWord old data flags) 17 = (bit old 16 || bit old 17) := by
  rw [adcWord, bit_wd _ (by decide), Nat.testBit_eq_decide_div_mod_eq]
  cases bit old 16 || bit old 17
  · rw [decide_eq_false_iff_not, show b2n false = 0 from rfl]
    omega
  · rw [decide_eq_true_iff, show b2n true = 1 from rfl]
    omega

theorem fld_adcWord_flags : fld (adcWord old data flags) 18 2 = flags % 4 := by
  have hb := b2n_lt_two (bit old 16 || bit old 17)
  rw [adcWord, fld_wd (by omega)]
  omega

theorem bit_adcWord_clip : bit (adcWord old data flags) 20 = flags.testBit 3 := by
  have hb := b2n_lt_two (bit old 16 || bit old 17)
  rw [adcWord, bit_wd _ (by decide), Nat.testBit_eq_decide_div_mod_eq, Nat.testBit_eq_decide_div_mod_eq]
  exact decide_eq_decide.mpr (by omega)

theorem bit_adcWord_gap : bit (adcWord old data flags) 21 = flags.testBit 2 := by
  have hb := b2n_lt_two (bit old 16 || bit old 17)
  rw [adcWord, bit_wd _ (by decide), Nat.testBit_eq_decide_div_mod_eq, Nat.testBit_eq_decide_div_mod_eq]
  exact decide_eq_decide.mpr (by omega)

end

section
variable (s : State)

theorem adcLand_eq (n data flags : Nat) : adcLand n data flags s
    = landWord (aAdcData n) (wd (2 ^ 16) ||| bitIf 17 (bit (rd s (aAdcData n)) 16))
        (adcWord (rd s (aAdcData n)) data flags) s := rfl

theorem rd_adcLand (n data flags a : Nat) :
    rd (adcLand n data flags s) a = if a = aAdcData n then adcWord (rd s (aAdcData n)) data flags else rd s a :=
  rd_landWord s _ a _ _

@[simp] theorem landWord_conv (a : Nat) (m v : Word) : (landWord a m v s).conv = s.conv := rfl
@[simp] theorem landWord_tick (a : Nat) (m v : Word) : (landWord a m v s).tick = s.tick := rfl
@[simp] theorem landWord_host (a : Nat) (m v : Word) : (landWord a m v s).host = s.host := rfl

theorem doSpotPeriodicCapture_of_periodic {n : Nat} (h : spotMode s n = 2) :
    doSpotPeriodicCapture n s = adcLand n (spotValue s n) (tget dFresh s.conv.flags n) s := if_pos h

theorem doSpotPeriodicCapture_of_other {n : Nat} (h : spotMode s n ≠ 2) : doSpotPeriodicCapture n s = s := if_neg h

/-! What a read of ADCn_DATA returns and leaves (R244). -/

variable (n : ConvNo)

theorem readLive_adcData_quiet (h : eventNow s (aAdcData n) = none) : readLive (aAdcData n) s = rd s (aAdcData n) := by
  simp [readLive, h, readWord_adcData]

theorem readLive_adcData_event {e : HwEvent} (h : eventNow s (aAdcData n) = some e) : readLive (aAdcData n) s = e.before := by
  simp [readLive, h, rcBits_adcData, wd]

theorem putFld_new_clear (w : Word) : putFld w 16 1 0 = w &&& ~~~wd 0x10000 := by
  simp [putFld, wd]

theorem afterRead_adcData_quiet (h : eventNow s (aAdcData n) = none) :
    afterRead (aAdcData n) s = putFld (rd s (aAdcData n)) 16 1 0 := by
  simp only [afterRead, h, rcBits_adcData, putFld_new_clear]

/-- Where one event of this tick wrote the register, the read leaves its NEW and value, and OVR as it was before. -/
theorem afterRead_adcData_event {e : HwEvent} (h : eventNow s (aAdcData n) = some e) (hc : e.count = 1) :
    afterRead (aAdcData n) s = (rd s (aAdcData n) &&& ~~~wd 0x10000 &&& ~~~wd 0x20000) ||| (e.set &&& wd 0x10000)
      ||| (e.before &&& wd 0x20000) := by
  simp only [afterRead, h, rcBits_adcData, ovrBit_adcData, hc, if_pos (Nat.le_refl 1)]

theorem doAdcDataRead_none : doAdcDataRead n none s
    = setResult (.data (readLive (aAdcData n) s)) (wr (aAdcData n) (afterRead (aAdcData n) s) s) :=
  hostRead_adcData s n

/-- The word that a capture leaves which lands in the cycle of a read: its own value and flags, NEW, and OVR as before. -/
def adcLateWord (old : Word) (d : BitVec 22) : Word :=
  (putFld old 16 1 0 &&& wd 0x20000) ||| wd (d.toNat &&& 0x3CFFFF) ||| wd 0x10000

theorem doAdcDataRead_some (d : BitVec 22) (h : eventNow s (aAdcData n) = none) : doAdcDataRead n (some d) s
    = landWord (aAdcData n) (wd 0x10000) (adcLateWord (rd s (aAdcData n)) d) (doAdcDataRead n none s) := by
  have hw : rd (hostRead (aAdcData n) 4 s) (aAdcData n) = putFld (rd s (aAdcData n)) 16 1 0 := by
    rw [hostRead_adcData, rd_setResult, rd_wr_self, afterRead_adcData_quiet s n h]
  simp only [doAdcDataRead, hw, adcLateWord]

end

section
variable (old : Word) (d : BitVec 22)

theorem bit_adcLateWord_new : bit (adcLateWord old d) 16 = true := by
  rw [adcLateWord, bit_or, show bit (wd 0x10000) 16 = true from by decide, Bool.or_true]

theorem bit_adcLateWord_ovr : bit (adcLateWord old d) 17 = bit old 17 := by
  rw [adcLateWord, putFld_new_clear]
  simp only [bit_or, bit_and, bit_not _ (show 17 < 32 by decide), bit_wd _ (show 17 < 32 by decide), Nat.testBit_and]
  rw [show Nat.testBit 0x3CFFFF 17 = false from by decide, show Nat.testBit 0x10000 17 = false from by decide,
    show Nat.testBit 0x20000 17 = true from by decide]
  simp

/-- Below NEW and above OVR the word is the value that lands. -/
theorem bit_adcLateWord_data {k : Nat} (h : k < 16 ∨ 18 ≤ k ∧ k < 22) : bit (adcLateWord old d) k = d.toNat.testBit k := by
  have masks : ∀ j < 22, (j < 16 ∨ 18 ≤ j ∧ j < 22) → Nat.testBit 0x3CFFFF j = true ∧ Nat.testBit 0x10000 j = false
      ∧ Nat.testBit 0x20000 j = false := by decide
  obtain ⟨hm, h16, h17⟩ := masks k (by omega) h
  simp [adcLateWord, bit_wd _ (show k < 32 by omega), hm, h16, h17]

theorem fld_adcLateWord_data : fld (adcLateWord old d) 0 16 = d.toNat % 65536 := by
  refine fld_eq_of_bits (Nat.mod_lt _ (by decide)) fun k hk => ?_
  rw [Nat.zero_add, bit_adcLateWord_data _ _ (.inl hk), show 65536 = 2 ^ 16 from rfl, Nat.testBit_mod_two_pow]
  simp [hk]

theorem fld_adcLateWord_flags : fld (adcLateWord old d) 18 4 = d.toNat / 2 ^ 18 := by
  have hd := d.isLt
  refine fld_eq_of_bits (by omega) fun k hk => ?_
  rw [bit_adcLateWord_data _ _ (by omega), Nat.testBit_div_two_pow, Nat.add_comm]

end

/-! The spot-read commands. -/

section
variable (s : State) (n : ConvNo)

/-- SPOT_TRIG asks for a capture of the converters it names in HOST mode (R242). -/
theorem testBit_doSpotTrig (v : Word) (k : Nat) : (doSpotTrig v s).conv.spotWait.testBit k
    = (s.conv.spotWait.testBit k || (decide (k < 16) && bit v k && spotMode s k == 1)) := by
  simp [doSpotTrig, testBit_maskOf, Bool.and_assoc]

@[simp] theorem spotMode_hostAccess (k : Nat) : spotMode (hostAccess s) k = spotMode s k := by
  rw [spotMode, rd_hostAccess, spotMode]

theorem regsBut_adcLand (k data flags : Nat) : regsBut (fun a => a = aAdcData k) s (adcLand k data flags s) :=
  fun a ha _ => (rd_adcLand s k data flags a).trans (if_neg ha)

/-- A read of ADCn_DATA in a tick without an event on it returns the register and clears NEW. -/
theorem doAdcDataRead_quiet (h : eventNow s (aAdcData n) = none) :
    doAdcDataRead n none s
      = setResult (.data (rd s (aAdcData n))) (wr (aAdcData n) (putFld (rd s (aAdcData n)) 16 1 0) s) := by
  rw [doAdcDataRead_none, readLive_adcData_quiet s n h, afterRead_adcData_quiet s n h]

/-- A read of ADCn_DATA writes that register and the interface's result alone. -/
theorem unchangedBut_adcDataRead (h : eventNow s (aAdcData n) = none) :
    unchangedBut [.regs, .host] s (doAdcDataRead n none s) := by
  have k := (kept_unchangedBut [.regs, .host] s).toKeptDev.toKept
  rw [doAdcDataRead_quiet s n h]
  exact kept_setResult (k.mono (by decide)) _ _ (kept_wr (k.mono (by decide)) _ _ _ (unchangedBut_refl _ s))

theorem eventNow_doAdcDataRead (h : eventNow s (aAdcData n) = none) :
    eventNow (doAdcDataRead n none s) (aAdcData n) = none := by
  rw [doAdcDataRead_quiet s n h]
  exact h

theorem rd_doAdcDataRead_some (d : BitVec 22) (a : Nat) (h : eventNow s (aAdcData n) = none) :
    rd (doAdcDataRead n (some d) s) a = if a = aAdcData n then adcLateWord (rd s (aAdcData n)) d else rd s a := by
  rw [doAdcDataRead_some s n d h, rd_landWord, doAdcDataRead_quiet s n h, rd_setResult]
  split
  · rfl
  · next ha => rw [rd_wr_ne _ _ ha]

/-- A read in the next cycle finds no event of this one, so it returns the register. -/
theorem doAdcDataRead_next_tick (d : BitVec 22) (h : eventNow s (aAdcData n) = none) :
    let t := doAdcDataRead n (some d) s
    (doAdcDataRead n none { t with tick := t.tick + 1 }).host.result = .data (rd t (aAdcData n)) := by
  intro t
  have he : eventNow { t with tick := t.tick + 1 } (aAdcData n) = none := by
    have hl := eventNow_landWord _ _ (wd 0x10000) (adcLateWord (rd s (aAdcData n)) d) (eventNow_doAdcDataRead s n h)
    rw [← doAdcDataRead_some s n d h] at hl
    exact eventNow_next_tick t hl
  rw [doAdcDataRead_quiet _ n he]
  rfl

/-- A PERIODIC capture is the first event of its tick on the register. -/
theorem eventNow_adcLand (data flags : Nat) (h : eventNow s (aAdcData n) = none) :
    eventNow (adcLand n data flags s) (aAdcData n) = some { tick := s.tick, before := rd s (aAdcData n)
                                                            set := wd (2 ^ 16) ||| bitIf 17 (bit (rd s (aAdcData n)) 16)
                                                            count := 1 } :=
  eventNow_landWord s _ _ _ h

/-- What a read leaves that comes in the cycle of a capture: the bits other than OVR as the capture wrote them. -/
theorem bit_afterRead_adcLand (data flags k : Nat) (hk : k < 32) (h : eventNow s (aAdcData n) = none) :
    let t := adcLand n data flags s
    bit (afterRead (aAdcData n) t) k
      = if k = 16 then true else if k = 17 then bit (rd s (aAdcData n)) 17 else bit (rd t (aAdcData n)) k := by
  intro t
  rw [afterRead_adcData_event t n (eventNow_adcLand s n data flags h) rfl]
  have masks : ∀ j < 32, Nat.testBit 0x10000 j = decide (j = 16) ∧ Nat.testBit 0x20000 j = decide (j = 17)
      ∧ Nat.testBit (2 ^ 16) j = decide (j = 16) := by decide
  obtain ⟨h16, h17, hs⟩ := masks k hk
  simp only [bit_or, bit_and, bit_not _ hk, bit_wd _ hk, h16, h17, hs]
  by_cases e16 : k = 16
  · simp [e16]
  · by_cases e17 : k = 17 <;> simp [e16, e17]

theorem doAdcDataRead_after_capture (data flags : Nat) (h : eventNow s (aAdcData n) = none) :
    let t := adcLand n data flags s
    let u := doAdcDataRead n none t
    u.host.result = .data (rd s (aAdcData n)) ∧ bit (rd u (aAdcData n)) 16 = true
      ∧ bit (rd u (aAdcData n)) 17 = bit (rd s (aAdcData n)) 17
      ∧ fld (rd u (aAdcData n)) 0 16 = fld (rd t (aAdcData n)) 0 16 := by
  intro t u
  have hu : u = setResult (.data (rd s (aAdcData n))) (wr (aAdcData n) (afterRead (aAdcData n) t) t) := by
    rw [show u = _ from doAdcDataRead_none t n, readLive_adcData_event t n (eventNow_adcLand s n data flags h)]
  have hw : rd u (aAdcData n) = afterRead (aAdcData n) t := by rw [hu, rd_setResult, rd_wr_self]
  have hb := fun k hk => bit_afterRead_adcLand s n data flags k hk h
  rw [hw]
  refine ⟨by rw [hu, setResult_result], (hb 16 (by decide)).trans (if_pos rfl), hb 17 (by decide), ?_⟩
  refine fld_eq_of_bits (by unfold fld natFld; exact Nat.mod_lt _ (by decide)) fun k hk => ?_
  rw [hb _ (by omega), if_neg (by omega), if_neg (by omega), testBit_fld]
  simp [hk, t]

end

/-! A sample of all converters (R238 to R242). -/

/-- What a sample and the HOST capture that it lands read and write of one converter. -/
@[ext] structure ConvView where
  raw : Int
  eff : Int
  clip : Bool
  wait : Bool
  gap : Bool
  mode : Nat
  data : Word

def convView (s : State) (n : Nat) : ConvView where
  raw := tget dZeroI s.conv.raw n
  eff := tget dZeroI s.conv.eff n
  clip := s.conv.clip.testBit n
  wait := s.conv.spotWait.testBit n
  gap := convGap s n
  mode := spotMode s n
  data := rd s (aAdcData n)

/-- A converter before and after its sample of a code (R240, R242, R248). -/
structure Sampled (code : Int) (v w : ConvView) : Prop where
  gap : v.gap = true → w.raw = v.raw ∧ w.eff = v.eff ∧ w.clip = false
  code : v.gap = false → w.raw = clampI (-32768) 32767 code ∧ (w.clip = true ↔ code < -32768 ∨ 32767 < code)
  wait : w.wait = false
  capture : v.wait = true → v.mode = 1 → bit w.data 16 = true
  quiet : v.wait = false → w.data = v.data

/-- A loop over distinct numbers whose body at i leaves the view of every other one: what the body does to its own view is
what the loop does. -/
theorem forEach_rel {β : Type} (get : State → Nat → β) (R : Nat → β → β → Prop) (f : Nat → State → State) (l : List Nat)
    (hl : l.Nodup) (hs : ∀ i ∈ l, ∀ t, R i (get t i) (get (f i t) i))
    (hn : ∀ i ∈ l, ∀ j ∈ l, j ≠ i → ∀ t, get (f i t) j = get t j) (s : State) :
    ∀ j ∈ l, R j (get s j) (get (forEach l f s) j) := by
  intro j hj
  have inv := forEach_inv f (fun d t => if j ∈ d then R j (get s j) (get t j) else get t j = get s j) l hl s (by simp)
    (fun d i t hd hi ht => by
      by_cases e : j = i
      · subst e
        rw [if_neg hd] at ht
        simpa [ht] using hs j hj t
      · simpa [e, hn i hi j hj e t] using ht)
  rwa [if_pos hj] at inv

section
variable (s : State)

theorem convView_congr {t : State} (hc : t.conv = s.conv) (hr : t.regs = s.regs) (hp : t.power = s.power) :
    convView t = convView s := by
  funext n
  simp only [convView, convGap, spotMode, rd, hc, hr, hp]

/-- The converters without what a sample keeps for averages, factory values and flags. -/
def convCore (c : Conv) : Conv := { c with fac := [], flags := [], accSum := [], accCnt := [], accFlags := [] }

/-- The sample of converter i does not write the register at a, unless it is that converter's spot value. -/
def sampleKeeps (i a : Nat) : Prop := a ≠ aClipCnt i ∧ a ≠ aConvSticky ∧ a ≠ aMonSticky ∧ ¬ intReg a

/-- The end of a sample: where a HOST capture waits, it is taken (R242). -/
def hostCapture (n fl : Nat) (s : State) : State :=
  if s.conv.spotWait.testBit n then
    let u := modConv (fun c => { c with spotWait := c.spotWait ^^^ 2 ^ n }) s
    if spotMode s n = 1 then adcLand n (spotValue s n) fl u else u
  else s

theorem histFeed_conv (src i : Nat) (v : Int) : (histFeed src i v s).conv = s.conv :=
  kept_histFeed (kept_same .conv rfl s) src i v s rfl
theorem pmuFlag_conv (i fl : Nat) : (pmuFlag i fl s).conv = s.conv := kept_pmuFlag (kept_same .conv rfl s) i fl s rfl
theorem pmuFlag_regs (i fl : Nat) : (pmuFlag i fl s).regs = s.regs := kept_pmuFlag (kept_same .regs rfl s) i fl s rfl
theorem meterFlag_conv (i fl : Nat) : (meterFlag i fl s).conv = s.conv := kept_meterFlag (kept_same .conv rfl s) i fl s rfl
theorem meterFlag_regs (i fl : Nat) : (meterFlag i fl s).regs = s.regs := kept_meterFlag (kept_same .regs rfl s) i fl s rfl

theorem rd_monStick (b a : Nat) (ha : a ≠ aMonSticky) (hi : ¬ intReg a) : rd (monStick b s) a = rd s a :=
  (rd_stick s _ _ a _ (by rintro n ⟨⟩; decide) hi).trans (if_neg ha)

/-- A histogram that takes a value writes no register but the sticky flags of its block. -/
theorem rd_histAccept (e : Nat) (v : Int) (a : Nat) (ha : a ≠ aMonSticky) (hi : ¬ intReg a) :
    rd (histAccept e v s) a = rd s a := by
  unfold histAccept
  extract_lets c h0 h1 bound h2 s1 s2
  have hs2 : rd s2 a = rd s a := by
    unfold s2
    split
    · rw [rd_monStick _ _ _ ha hi, rd_modHist]
    · rfl
  split
  · rw [rd_monStick _ _ _ ha hi, hs2]
  · exact hs2

theorem rd_histFeed (src i : Nat) (v : Int) (a : Nat) (ha : a ≠ aMonSticky) (hi : ¬ intReg a) :
    rd (histFeed src i v s) a = rd s a := by
  refine holds_forEach (P := fun t => rd t a = rd s a) _ (fun e t ht => holds_if (fun _ => ?_) (fun _ => ht)) _ s rfl
  exact (rd_histAccept t e v a ha hi).trans ht

/-- What converter i's sample of a code changes before a waiting capture lands. -/
structure SampleTaken (i : Nat) (code : Int) (s t : State) : Prop where
  raw : t.conv.raw = tset dZeroI s.conv.raw i
    (if convGap s i then tget dZeroI s.conv.raw i else clampI (-32768) 32767 code)
  eff : ∃ e, (convGap s i = true → e = tget dZeroI s.conv.eff i) ∧ t.conv.eff = tset dZeroI s.conv.eff i e
  clip : t.conv.clip = (s.conv.clip &&& (0xFFFF ^^^ 2 ^ i))
    ||| 2 ^ i * b2n (!convGap s i && (decide (code < -32768) || decide (32767 < code)))
  wait : t.conv.spotWait = s.conv.spotWait
  calBusy : t.conv.calBusy = s.conv.calBusy
  rbConv : t.conv.rbConv = s.conv.rbConv
  regs : ∀ a, sampleKeeps i a → rd t a = rd s a

/-- A sample of converter i, said once: the sample is taken, then the waiting capture lands, then the histograms take it. -/
theorem sampleOne_eq (i : Nat) (code : Int) :
    ∃ t fl v, sampleOne i code s = histFeed 6 i v (hostCapture i fl t) ∧ SampleTaken i code s t := by
  unfold sampleOne
  extract_lets gap clip raw fac eff s1 s2 fl s2' s3 s4
  refine ⟨s3, fl, round16 eff 1, rfl, ?_⟩
  have core : convCore s3.conv = convCore s1.conv := by
    have h2 : s2.conv = s1.conv := by
      unfold s2
      split
      · rw [convStick_conv, cntSat_conv]
      · rfl
    have h3 : convCore s2'.conv = convCore s1.conv := by
      unfold s2'
      rw [pmuFlag_conv, meterFlag_conv, modConv_conv, h2]
      rfl
    change Holds (fun t => convCore t.conv = convCore s1.conv) s3
    refine holds_forEach _ ?_ _ _ h3
    exact fun _ _ ht => ht
  constructor
  case raw => exact congrArg Conv.raw core
  case eff => exact ⟨eff, fun hg => if_pos hg, congrArg Conv.eff core⟩
  case clip => exact congrArg Conv.clip core
  case wait => exact (congrArg Conv.spotWait core :)
  case calBusy => exact (congrArg Conv.calBusy core :)
  case rbConv => exact (congrArg Conv.rbConv core :)
  case regs =>
    rintro a ⟨hc, hs, -, hi⟩
    have h2 : rd s2 a = rd s a := by
      unfold s2
      split
      · rw [rd_convStick _ _ _ hi, if_neg hs, cntSat, rd_wr_ne _ _ hc]
        rfl
      · rfl
    have h3 : rd s2' a = rd s a := by
      unfold s2'
      rw [rd_of_regs (pmuFlag_regs _ _ _), rd_of_regs (meterFlag_regs _ _ _), rd_modConv, h2]
    change Holds (fun t => rd t a = rd s a) s3
    refine holds_forEach _ ?_ _ _ h3
    exact fun _ _ ht => ht

theorem sampleOne_power (i : Nat) (code : Int) : (sampleOne i code s).power = s.power :=
  kept_sampleOne (kept_same .power rfl s) i code s rfl

theorem hostCapture_conv (n fl : Nat) : (hostCapture n fl s).conv = { s.conv with
    spotWait := if s.conv.spotWait.testBit n then s.conv.spotWait ^^^ 2 ^ n else s.conv.spotWait } := by
  unfold hostCapture
  split
  · dsimp only
    split
    · rfl
    · rfl
  · rfl

/-- A capture writes at most the spot value of its converter, and nothing where none waits. -/
theorem rd_hostCapture (n fl a : Nat) (h : a ≠ aAdcData n ∨ s.conv.spotWait.testBit n = false) :
    rd (hostCapture n fl s) a = rd s a := by
  unfold hostCapture
  split
  · next hw =>
    have ha : a ≠ aAdcData n := h.resolve_right (by simp [hw])
    dsimp only
    split
    · rw [rd_adcLand, if_neg ha, rd_modConv]
    · rfl
  · rfl

theorem bit_hostCapture_new (n fl : Nat) (hw : s.conv.spotWait.testBit n = true) (hm : spotMode s n = 1) :
    bit (rd (hostCapture n fl s) (aAdcData n)) 16 = true := by
  rw [hostCapture, if_pos hw, if_pos hm, rd_adcLand, if_pos rfl, bit_adcWord_new]

theorem sampleKeeps_adcData {i n : Nat} (hi : i < 16) (hn : n < 16) : sampleKeeps i (aAdcData n) := by
  unfold sampleKeeps intReg aAdcData aClipCnt aConvSticky aMonSticky
  omega

theorem sampleKeeps_adcCfg {i n : Nat} (hi : i < 16) (hn : n < 16) : sampleKeeps i (aAdcCfg n) := by
  unfold sampleKeeps intReg aAdcCfg aClipCnt aConvSticky aMonSticky
  omega

/-- The bit of converter n in CLIP after the sample of converter i. -/
theorem testBit_clip {i n : Nat} (hn : n < 16) (m : Nat) (b : Bool) :
    ((m &&& (0xFFFF ^^^ 2 ^ i)) ||| 2 ^ i * b2n b).testBit n = if n = i then b else m.testBit n := by
  have hb : (2 ^ i * b2n b).testBit n = (decide (n = i) && b) := by
    cases b
    · simp [b2n]
    · simp [b2n, Nat.testBit_two_pow, eq_comm]
  have hf : Nat.testBit 0xFFFF n = true := by
    rw [show 0xFFFF = 2 ^ 16 - 1 from rfl, Nat.testBit_two_pow_sub_one]
    simpa using hn
  rw [Nat.testBit_or, Nat.testBit_and, Nat.testBit_xor, hb, hf, Nat.testBit_two_pow]
  by_cases h : n = i
  · simp [h]
  · simp [h, Ne.symm h]

/-- The view of converter n after the sample of converter i. -/
theorem convView_sampleOne {i n : Nat} (hi : i < 16) (hn : n < 16) (code : Int) :
    let v := convView s n
    let w := convView (sampleOne i code s) n
    w.gap = v.gap ∧ w.mode = v.mode
      ∧ w.raw = (if n = i ∧ v.gap = false then clampI (-32768) 32767 code else v.raw)
      ∧ (n ≠ i ∨ v.gap = true → w.eff = v.eff)
      ∧ w.clip = (if n = i then !v.gap && (decide (code < -32768) || decide (32767 < code)) else v.clip)
      ∧ w.wait = (v.wait && decide (n ≠ i))
      ∧ (n ≠ i ∨ v.wait = false → w.data = v.data)
      ∧ (n = i → v.wait = true → v.mode = 1 → bit w.data 16 = true) := by
  intro v w
  obtain ⟨t, fl, x, e, ht⟩ := sampleOne_eq s i code
  have hconv : (sampleOne i code s).conv = { t.conv with
      spotWait := if s.conv.spotWait.testBit i then s.conv.spotWait ^^^ 2 ^ i else s.conv.spotWait } := by
    rw [e, histFeed_conv, hostCapture_conv, ht.wait]
  have hregs : ∀ a, sampleKeeps i a → rd (sampleOne i code s) a = rd (hostCapture i fl t) a := by
    rintro a ⟨-, -, hm, hi⟩
    rw [e, rd_histFeed _ _ _ _ _ hm hi]
  have hmode : spotMode t n = spotMode s n := by
    rw [spotMode, ht.regs _ (sampleKeeps_adcCfg hi hn), spotMode]
  refine ⟨?_, ?_, ?_, ?_, ?_, ?_, ?_, ?_⟩
  all_goals simp only [v, w, convView]
  · rw [convGap, hconv, sampleOne_power, convGap, ht.calBusy, ht.rbConv]
  · have hc : aAdcCfg n ≠ aAdcData i := by unfold aAdcCfg aAdcData; omega
    rw [spotMode, hregs _ (sampleKeeps_adcCfg hi hn), rd_hostCapture _ _ _ _ (.inl hc), ← spotMode, hmode]
  · rw [hconv, ht.raw, tget_tset]
    by_cases h : n = i
    · subst h
      cases convGap s n <;> simp
    · simp [h]
  · intro h
    obtain ⟨x, hx, he⟩ := ht.eff
    rw [hconv, he, tget_tset]
    split
    · next hni =>
      subst hni
      exact hx (h.resolve_left (by simp))
    · rfl
  · rw [hconv, ht.clip, testBit_clip hn]
    split
    · next hni => rw [hni]
    · rfl
  · rw [hconv, apply_ite (fun m => Nat.testBit m n), Nat.testBit_xor, Nat.testBit_two_pow]
    by_cases h : n = i
    · subst h
      cases s.conv.spotWait.testBit n <;> simp
    · simp [h, Ne.symm h]
  · intro h
    rw [hregs _ (sampleKeeps_adcData hi hn), rd_hostCapture, ht.regs _ (sampleKeeps_adcData hi hn)]
    by_cases hni : n = i
    · subst hni
      exact .inr (by rw [ht.wait]; exact h.resolve_left (by simp))
    · exact .inl (by unfold aAdcData; omega)
  · rintro rfl hw hm
    rw [hregs _ (sampleKeeps_adcData hi hn)]
    exact bit_hostCapture_new t n fl (by rw [ht.wait]; exact hw) (hmode.trans hm)

theorem convView_sampleOne_ne {i n : Nat} (hi : i < 16) (hn : n < 16) (h : n ≠ i) (code : Int) :
    convView (sampleOne i code s) n = convView s n := by
  obtain ⟨hgap, hmode, hraw, heff, hclip, hwait, hdata, -⟩ := convView_sampleOne s hi hn code
  rw [if_neg (by simp [h])] at hraw
  rw [if_neg h] at hclip
  rw [decide_eq_true h, Bool.and_true] at hwait
  exact ConvView.ext hraw (heff (.inl h)) hclip hwait hgap hmode (hdata (.inl h))

theorem sampled_sampleOne {i : Nat} (hi : i < 16) (code : Int) :
    Sampled code (convView s i) (convView (sampleOne i code s) i) := by
  obtain ⟨-, -, hraw, heff, hclip, hwait, hdata, hnew⟩ := convView_sampleOne s hi hi code
  constructor
  case gap => exact fun hg => ⟨by simpa [hg] using hraw, heff (.inr hg), by simpa [hg] using hclip⟩
  case code => exact fun hg => ⟨by simpa [hg] using hraw, by simp [hclip, hg]⟩
  case wait => simpa using hwait
  case capture => exact hnew rfl
  case quiet => exact fun hw => hdata (.inr hw)

/-- The recorder and the travelling-wave stream take the samples and leave converters and registers alone. -/
theorem convView_doConverterSample (codes : List Int) : convView (doConverterSample codes s)
    = convView (forEach (List.range 16) (fun n s => sampleOne n (codes.getD n 0) s) s) := by
  unfold doConverterSample
  extract_lets s1 fl
  have kept : ∀ p : Part, partMask [.dram, .meas] &&& partBit p = 0 →
      samePart p s1 (twPush (recSample (fun n => tget dZeroI s1.conv.eff n) fl s1)) := fun p hp =>
    have k := kept_same (l := [.dram, .meas]) p hp s1
    kept_twPush (k.mono (by decide)) _ (kept_recSample k _ _ _ (by cases p <;> rfl))
  exact convView_congr s1 (kept .conv rfl) (kept .regs rfl) (kept .power rfl)

/-- Every converter takes its sample. -/
theorem sampled_doConverterSample (codes : List Int) {n : Nat} (hn : n < 16) :
    Sampled (codes.getD n 0) (convView s n) (convView (doConverterSample codes s) n) := by
  rw [convView_doConverterSample]
  refine forEach_rel convView (fun i => Sampled (codes.getD i 0)) _ _ List.nodup_range ?_ ?_ s n (by simpa using hn)
  · exact fun i hi t => sampled_sampleOne t (by simpa using hi) _
  · exact fun i hi j hj h t => convView_sampleOne_ne t (by simpa using hi) (by simpa using hj) h _

end

/-- Settles O40: a sample by converter, the two ways a capture lands, and a read with or without an event of its tick. -/
theorem spotReads : Obligations.SpotReads := by
  refine ⟨fun codes s => ⟨_, rfl, fun n hn => ?_⟩, fun v s => ⟨_, rfl, fun n => ?_, exec_unchangedBut (.spotTrig v) s _ rfl⟩,
    fun n s hm => ⟨_, rfl, ?_⟩, fun n s hm => ?_, fun n s he => ⟨_, rfl, ?_⟩, fun n d s he => ⟨_, rfl, ?_⟩,
    fun n s hm he => ⟨_, rfl, _, rfl, ?_⟩⟩
  · obtain ⟨hgap, hcode, hwait, hnew, hquiet⟩ := sampled_doConverterSample s codes hn
    exact ⟨hgap, hcode, hwait, hnew, hquiet⟩
  · rw [testBit_doSpotTrig, hostAccess_conv, spotMode_hostAccess]
  · rw [doSpotPeriodicCapture_of_periodic s hm, rd_adcLand, if_pos rfl]
    exact ⟨fld_adcWord_data .., bit_adcWord_new .., bit_adcWord_ovr ..,
      ⟨fld_adcWord_flags .., bit_adcWord_clip .., bit_adcWord_gap ..⟩, regsBut_adcLand s _ _ _,
      exec_unchangedBut (.spotPeriodicCapture n) s _ (by rw [← doSpotPeriodicCapture_of_periodic s hm]; rfl)⟩
  · exact congrArg Host.Outcome.next (doSpotPeriodicCapture_of_other s hm)
  · refine ⟨?_, ?_, ?_, unchangedBut_adcDataRead s n he⟩
    all_goals rw [doAdcDataRead_quiet s n he]
    · rfl
    · rw [rd_setResult, rd_wr_self]
    · exact fun a ha _ => rd_wr_ne _ _ ha
  · have hr := fun a => rd_doAdcDataRead_some s n d a he
    have hw := (hr (aAdcData n)).trans (if_pos rfl)
    refine ⟨?_, ?_, ?_, ?_, ?_, fun a ha _ => (hr a).trans (if_neg ha), _, rfl, doAdcDataRead_next_tick s n d he⟩
    · rw [doAdcDataRead_some s n d he, landWord_host, doAdcDataRead_quiet s n he]
      rfl
    · rw [hw, bit_adcLateWord_new]
    · rw [hw, fld_adcLateWord_data]
    · rw [hw, fld_adcLateWord_flags]
    · rw [hw, bit_adcLateWord_ovr]
  · rw [doSpotPeriodicCapture_of_periodic s hm]
    exact doAdcDataRead_after_capture s n _ _ he

end Sys2Proof.Conversion

/-! Chapter 11: the clearing of Bracken's totals (R329, R331). -/

namespace Sys2Proof.Metering

open Sys2Proof Sys2Proof.Machine Sys2Proof.Laws Sys2Proof.Conversion

/-- The words that a totals slot takes under the sequence number q (R329). -/
def totalsWords (q : Nat) (b : Bracken) : List Nat :=
  [q, b.sec, tget dZero b.ah 0 / 2 ^ 32, tget dZero b.ah 1 / 2 ^ 32, tget dZero b.ah 2 / 2 ^ 32, b.est / 2 ^ 32, b.clearCnt]

/-- What BR_CLEAR makes of Bracken before the totals go to MRAM (R331). -/
def clearedTotals (b : Bracken) : Bracken := { b with ah := [], est := 0, clearCnt := (b.clearCnt + 1) % 2 ^ 32 }

section
variable (s : State)

@[simp] theorem hostAccess_bracken : (hostAccess s).bracken = s.bracken := kept_hostAccess (kept_same .bracken rfl s) s rfl

theorem unchangedBut_hostAccess : unchangedBut [.gorse, .host] s (hostAccess s) :=
  kept_hostAccess (kept_unchangedBut [.gorse, .host] s).toKeptDev.toKept s (unchangedBut_refl _ s)

/-! A write of the totals changes the slots and their sequence number alone. -/

@[simp] theorem brTotals_ah : (brTotals s).bracken.ah = s.bracken.ah := rfl
@[simp] theorem brTotals_est : (brTotals s).bracken.est = s.bracken.est := rfl
@[simp] theorem brTotals_clearCnt : (brTotals s).bracken.clearCnt = s.bracken.clearCnt := rfl
@[simp] theorem brTotals_ring : (brTotals s).bracken.ring = s.bracken.ring := rfl
@[simp] theorem brTotals_head : (brTotals s).bracken.head = s.bracken.head := rfl
@[simp] theorem brTotals_slotSeq : (brTotals s).bracken.slotSeq = s.bracken.slotSeq + 1 := rfl
theorem totalsWords_brTotals (q : Nat) : totalsWords q (brTotals s).bracken = totalsWords q s.bracken := rfl

/-- The totals go to the slot of their sequence number's parity; the other slot stays. -/
theorem slot_brTotals {k : Nat} (hk : k < 2) : (brTotals s).bracken.slots.getD k []
    = if k = (s.bracken.slotSeq + 1) % 2 then totalsWords (s.bracken.slotSeq + 1) s.bracken
      else s.bracken.slots.getD k [] := by
  simp [brTotals, totalsWords, hk]

/-- Two writes in a row leave the same totals in both slots, each under a new sequence number. -/
theorem slot_brTotals_brTotals {k : Nat} (hk : k < 2) : ∃ q, s.bracken.slotSeq < q
    ∧ (brTotals (brTotals s)).bracken.slots.getD k [] = totalsWords q s.bracken := by
  rw [slot_brTotals _ hk, totalsWords_brTotals, brTotals_slotSeq]
  split
  · exact ⟨_, by omega, rfl⟩
  · exact ⟨s.bracken.slotSeq + 1, by omega, by rw [slot_brTotals s hk, if_pos (by omega)]⟩

theorem doBrClear_of_key (h : s.dev ≠ .run) :
    doBrClear (wd 0x4243) s = brTotals (brTotals (modBr clearedTotals s)) := if_pos ⟨rfl, h⟩

theorem doBrClear_ignored {v : Word} (h : v ≠ wd 0x4243 ∨ s.dev = .run) : doBrClear v s = s :=
  if_neg fun ⟨hv, hd⟩ => h.elim (· hv) hd

end

theorem totalsWords_clearedTotals (q : Nat) (b : Bracken) :
    totalsWords q (clearedTotals b) = [q, b.sec, 0, 0, 0, 0, (b.clearCnt + 1) % 2 ^ 32] := by
  simp [totalsWords, clearedTotals, dZero]

/-- Settles O56: the key outside RUN clears and writes the totals twice, so into both slots; any other write is the host's
access alone. -/
theorem bypassClear : Obligations.BypassClear := by
  refine ⟨fun s hd => ⟨_, rfl, ?_⟩, fun v s h => ⟨_, rfl, ?_⟩⟩
  · have frame := exec_unchangedBut (.brClear (wd 0x4243)) s _ rfl
    rw [doBrClear_of_key _ (by simpa using hd)] at frame ⊢
    refine ⟨fun n => ?charges, ?estimate, ?count, fun k hk => ?slots, ?ring, ?head, frame⟩
    case charges => simp [clearedTotals, dZero]
    case slots =>
      obtain ⟨q, hq, hslot⟩ := slot_brTotals_brTotals (modBr clearedTotals (hostAccess s)) hk
      simp only [modBr_bracken, hostAccess_bracken, totalsWords_clearedTotals] at hq hslot
      rw [hslot]
      exact ⟨hq, rfl, rfl, rfl, rfl, rfl, by simp [clearedTotals]⟩
    all_goals simp [clearedTotals]
  · rw [doBrClear_ignored _ (by simpa using h)]
    exact ⟨hostAccess_bracken s, unchangedBut_hostAccess s⟩

end Sys2Proof.Metering

section
-- One proof after another: the check compiles the whole text in one process, and memory is short.
set_option Elab.async false
/-! The machine as a whole: the queue, reset, the canonical memories, and what every command leaves as it is. -/

namespace Sys2Proof.Whole

open Sys2Proof Sys2Proof.Machine Sys2Proof.Laws Sys2Proof.Conversion

/-- Settles O1: it is the step's own definition. -/
theorem stepRunsFront : Obligations.StepRunsFront := fun _ _ _ => rfl

theorem clockTick_unchangedBut (s : State) : unchangedBut [.tick, .time] s (clockTick s) := by
  intro p hp
  cases p
  case tick => exact absurd (by decide) hp
  case time => exact absurd (by decide) hp
  all_goals rfl

/-- Settles O2: an idle step is one tick of the time counter. -/
theorem idleTick : Obligations.IdleTick := by
  intro s hs
  exact ⟨clockTick s, by simp [step, hs], rfl, clockTick_unchangedBut s⟩

/-! The canonical memories (R17, R336). -/

theorem memoryOk_reset : memoryOk State.reset := ⟨⟨rfl, fun _ hp => absurd hp (by simp [State.reset])⟩, rfl, rfl⟩

/-- Outside RUN and outside a safe-stop sequence every pair is held low. -/
theorem gatesLow_of_outputsLive {s : State} (h : outputsLive s = false) : gatesLow s := by
  intro p _
  simp [ghLevel, glLevel, pairSafe, h]

/-- Settles O3: the fields of State.reset are those of the declarations, and its tables are empty. -/
theorem resetState : Obligations.ResetState :=
  ⟨rfl, memoryOk_reset, gatesLow_of_outputsLive rfl, rfl, fun _ => ⟨rfl, rfl⟩, fun _ => rfl⟩

/-- Settles O8. -/
theorem outputsSafe : Obligations.OutputsSafe := by
  intro s h
  apply gatesLow_of_outputsLive
  rcases h with h | h | ⟨h, hr⟩
  · simp [outputsLive, h]
  · simp [outputsLive, h]
  · simp [outputsLive, h, hr]

/-- Every update of State keeps the memories canonical: those of other fields do not touch them. -/
theorem keptAll_memoryOk (l : List Part) : KeptAll l memoryOk where
  regs _ s a v h := ⟨h.1, regsOk_wr s a v h.2⟩
  regsClr _ _ lo hi h := ⟨h.1, twf_tclr _ _ lo hi h.2.1, h.2.2⟩
  dram _ o w s h := ⟨dramOk_put s o w h.1, h.2⟩
  force _ s a v h := ⟨h.1, regsOk_setFo s a v h.2⟩
  forceClr _ _ lo hi h := ⟨h.1, h.2.1, twf_tclr _ _ lo hi h.2.2⟩
  events _ _ _ h := h
  dirty _ _ _ h := h
  groups _ _ _ h := h
  present _ _ _ h := h
  damask _ _ _ h := h
  clock _ _ _ h := h
  links _ _ _ h := h
  mod _ _ _ _ h := h
  units _ _ _ h := h
  gorse _ _ _ h := h
  conv _ _ _ h := h
  time _ _ _ h := h
  eth _ _ _ h := h
  meas _ _ _ h := h
  meter _ _ _ h := h
  bracken _ _ _ h := h
  host _ _ _ h := h
  therm _ _ _ h := h
  power _ _ _ h := h
  stop _ _ _ h := h
  trip _ _ _ h := h
  run _ _ h := h
  halt _ _ h := h
  enable _ _ _ h := h
  reset _ _ _ := memoryOk_reset

/-- Settles O4: an idle tick touches no memory, and a command's updates each keep them canonical. -/
theorem memoryInvariant : Obligations.MemoryInvariant := by
  intro s t h e
  unfold step at e
  split at e
  · cases e
    exact h
  · next c rest _ =>
    exact kept_execAll c (keptAll_memoryOk _) { s with pending := rest } t e h

/-- Settles O5. -/
theorem commandFrame : Obligations.CommandFrame := fun c s t e => exec_unchangedBut c s t e

/-! The enables in force (R163). -/

/-- A relation of device state and enables that a removal of enables keeps, every update keeps that leaves the device state. -/
theorem kept_rel (l : List Part) (R : DevState → Nat → Prop) (hen : ∀ d m n, n &&& m = n → R d m → R d n) :
    Kept l (fun t => R t.dev t.mod.en) where
  mod _ _ _ hx h := hen _ _ _ hx h
  regs _ _ _ _ h := h
  regsClr _ _ _ _ h := h
  dram _ _ _ _ h := h
  force _ _ _ _ h := h
  forceClr _ _ _ _ h := h
  events _ _ _ h := h
  dirty _ _ _ h := h
  groups _ _ _ h := h
  present _ _ _ h := h
  damask _ _ _ h := h
  clock _ _ _ h := h
  links _ _ _ h := h
  units _ _ _ h := h
  gorse _ _ _ h := h
  conv _ _ _ h := h
  time _ _ _ h := h
  eth _ _ _ h := h
  meas _ _ _ h := h
  meter _ _ _ h := h
  bracken _ _ _ h := h
  host _ _ _ h := h
  therm _ _ _ h := h
  power _ _ _ h := h

/-- The same with a safe stop and a trip. -/
theorem keptDev_rel (l : List Part) (R : DevState → Nat → Prop) (hen : ∀ d m n, n &&& m = n → R d m → R d n)
    (hstop : ∀ m, R .run m → R .safeStop m) (htrip : ∀ d m, d = .run ∨ d = .safeStop → R d m → R .tripped m) :
    KeptDev l (fun t => R t.dev t.mod.en) where
  toKept := kept_rel l R hen
  stop _ _ hd h := hstop _ (hd ▸ h)
  trip _ _ hd h := htrip _ _ hd h

theorem keptDev_en (l : List Part) (s : State) : KeptDev l (fun t => t.mod.en &&& s.mod.en = t.mod.en) :=
  keptDev_rel l (fun _ m => m &&& s.mod.en = m) (fun _ _ _ hn h => and_sub hn h) (fun _ h => h) (fun _ _ _ h => h)

/-- The commands that kept_exec leaves out. -/
theorem beyond_cases {c : Instr} (h : beyond c = true) : (∃ g, c = .periodBoundary g) ∨ c = .imageActivation ∨ (∃ x, c = .enRise x)
    ∨ (∃ d, c = .dieShutdown d) ∨ c = .powerOnReset ∨ c = .resetN := by
  unfold beyond at h
  split at h <;> simp at h ⊢

/-- Settles O7: of the commands that kept_exec leaves out, an activation and an EN edge keep the enables, and a reset clears
them. -/
theorem enablesAtBoundary : Obligations.EnablesAtBoundary := by
  intro c s t hc e
  have init : Holds (fun t => t.mod.en &&& s.mod.en = t.mod.en) s := Nat.and_self _
  have wiped : ∀ u : State, (resetDevice u).mod.en &&& s.mod.en = (resetDevice u).mod.en := fun _ => Nat.zero_and _
  cases hb : beyond c with
  | false => exact kept_exec c (keptDev_en _ s) hb s t e init
  | true =>
    rcases beyond_cases hb with ⟨g, rfl⟩ | rfl | ⟨x, rfl⟩ | ⟨d, rfl⟩ | rfl | rfl
    · exact absurd rfl (hc g)
    · exact next_kept (kept_doImageActivation (keptDev_en _ s).toKept s (fun _ h => h) (fun _ h => h) init) e
    · exact next_kept (kept_doEnRise (keptDev_en _ s) x s (fun _ h => h) init) e
    · exact next_kept (kept_doDieShutdown (keptDev_en _ s) d s (fun u _ => wiped u) init) e
    · exact next_kept (kept_doPowerOnReset (keptDev_en _ s).toKept s (fun u _ => wiped u) init) e
    · exact next_kept (kept_doResetN (keptDev_en _ s).toKept s (fun u _ => wiped u) init) e

/-! The transitions between device states (R34). -/

/-- The moves of a safe stop and of a trip: from RUN to SAFE-STOP, from both to TRIPPED. -/
noncomputable def DevMoves (d e : DevState) : Prop :=
  e = d ∨ (d = .run ∧ e = .safeStop) ∨ ((d = .run ∨ d = .safeStop) ∧ e = .tripped)

theorem DevMoves.stop {d : DevState} (h : DevMoves d .run) : DevMoves d .safeStop := by
  cases d <;> simp_all [DevMoves]

theorem DevMoves.trip {d e : DevState} (he : e = .run ∨ e = .safeStop) (h : DevMoves d e) : DevMoves d .tripped := by
  cases d <;> rcases he with rfl | rfl <;> simp_all [DevMoves]

theorem keptDev_moves (l : List Part) (s : State) : KeptDev l (fun t => DevMoves s.dev t.dev) :=
  keptDev_rel l (fun e _ => DevMoves s.dev e) (fun _ _ _ _ h => h) (fun _ h => h.stop) (fun _ _ he h => h.trip he)

theorem setDev_dev (d : DevState) (s : State) : (setDev d s).dev = d := by
  unfold setDev
  split
  · assumption
  · rw [irq_dev, logEv_dev]

theorem enterRun_dev (s : State) : (enterRun s).dev = .run := setDev_dev _ _

/-- An edge of EN that qualifies leaves the device state, or enters RUN from TRIPPED or SAFE-STOP. -/
theorem enQualify_dev (x : EnLive) (s : State) : (enQualify x s).dev = s.dev
    ∨ ((s.dev = .tripped ∨ s.dev = .safeStop) ∧ (enQualify x s).dev = .run) := by
  unfold enQualify
  extract_lets s1 m s2 s3 s4
  have h4 : s4.dev = s.dev := by
    have h1 : Holds (samePart .dev s) s1 := kept_revote (kept_same .dev rfl s) x s rfl
    have h2 : Holds (samePart .dev s) s2 :=
      kept_asyncRelease (kept_same .dev rfl s) _ (kept_clearCauses (kept_same .dev rfl s) _ _ h1)
    have h3 : Holds (samePart .dev s) s3 := holds_forEach _
      (fun _ _ h => holds_if (fun _ => kept_modPair (kept_same .dev rfl s) _ _ _ h) (fun _ => h)) _ _ h2
    exact kept_modGorse (kept_same .dev rfl s) _ _ h3
  split
  · next h => exact .inr ⟨h4 ▸ h.2, enterRun_dev s4⟩
  · exact .inl h4

theorem doEnRise_dev (x : EnLive) (s : State) : (doEnRise x s).dev = s.dev
    ∨ ((s.dev = .tripped ∨ s.dev = .safeStop) ∧ (doEnRise x s).dev = .run) := by
  unfold doEnRise
  extract_lets s1
  have h1 : s1.dev = s.dev := kept_liveEnds (kept_same .dev rfl s) x _ (kept_setLive (kept_same .dev rfl s) _ _ _ rfl)
  split
  · exact .inl rfl
  · split
    · exact .inl ((kept_gorseStick (kept_same .dev rfl s1) 4 s1 rfl).trans h1)
    · simpa only [h1] using enQualify_dev x s1

/-- An activation leaves the device state, or leads from CONFIG-WAIT to RUN or TRIPPED. -/
theorem doImageActivation_dev (s : State) : (doImageActivation s).dev = s.dev
    ∨ (s.dev = .configWait ∧ ((doImageActivation s).dev = .run ∨ (doImageActivation s).dev = .tripped)) := by
  by_cases hd : s.dev = .configWait
  · have k : ∀ l, Kept l (fun t => t.dev ≠ .safeStop) := fun l => kept_rel l (fun d _ => d ≠ .safeStop) (fun _ _ _ _ h => h)
    have h : (doImageActivation s).dev ≠ .safeStop :=
      kept_doImageActivation (k _) s (fun _ _ => by simp) (fun _ _ => by simp) (by simp [Holds, hd])
    cases he : (doImageActivation s).dev <;> simp_all
  · have h : doImageActivation s = s := by
      unfold doImageActivation
      split <;> simp [hd]
    exact .inl (congrArg State.dev h)

/-- A reset leads to CONFIG-WAIT; while one is in force it adds nothing. -/
theorem doResetN_dev (s : State) : (doResetN s).dev = s.dev ∨ (doResetN s).dev = .configWait := by
  unfold doResetN
  split
  · exact .inl rfl
  · exact .inr rfl

theorem doDieShutdown_dev (d : Nat) (s : State) : (doDieShutdown d s).dev = s.dev ∨ (doDieShutdown d s).dev = .configWait := by
  unfold doDieShutdown
  split
  · exact .inl rfl
  · exact .inr rfl

/-- Settles O6: a command that kept_exec covers makes the moves of a safe stop and of a trip alone; a boundary makes none. -/
theorem deviceStateMoves : Obligations.DeviceStateMoves := by
  intro c s t e
  cases hb : beyond c with
  | false =>
    have h : DevMoves s.dev t.dev := kept_exec c (keptDev_moves _ s) hb s t e (.inl rfl)
    rcases h with h | ⟨h, ht⟩ | ⟨h, ht⟩
    · cases ht : t.dev <;> simp [← h, ht]
    · simp [ht, h]
    · simp only [ht]
      tauto
  | true =>
    rcases beyond_cases hb with ⟨g, rfl⟩ | rfl | ⟨x, rfl⟩ | ⟨d, rfl⟩ | rfl | rfl
    · have h : t.dev = s.dev := next_kept (kept_doPeriodBoundary (kept_same .dev rfl s) g s (fun _ _ h => h) rfl) e
      cases ht : t.dev <;> simp [← h, ht]
    · cases e
      rcases doImageActivation_dev s with h | ⟨hs, h | h⟩
      · rw [h]; cases hs : s.dev <;> simp
      · simp [h, hs]
      · simp [h, hs]
    · cases e
      rcases doEnRise_dev x s with h | ⟨hs, h⟩
      · rw [h]; cases hs : s.dev <;> simp
      · simp [h, hs]
    · cases e
      rcases doDieShutdown_dev d s with h | h
      · rw [h]; cases hs : s.dev <;> simp
      · simp [h]
    · cases e
      exact .inr (.inl rfl)
    · cases e
      rcases doResetN_dev s with h | h
      · rw [h]; cases hs : s.dev <;> simp
      · simp [h]

end Sys2Proof.Whole
end

section
-- One proof after another: the check compiles the whole text in one process, and memory is short.
set_option Elab.async false
/-! Rules of the shared updates that the commands of several chapters use: registers, flags and counters, host and service
accesses. -/

namespace Sys2Proof.Rules

open Sys2Proof Sys2Proof.Machine Sys2Proof.Laws Sys2Proof.Conversion

section
variable (s : State)

@[simp] theorem hostAccess_pending : (hostAccess s).pending = s.pending := kept_hostAccess (kept_same .pending rfl s) s rfl
@[simp] theorem hostAccess_tick : (hostAccess s).tick = s.tick := kept_hostAccess (kept_same .tick rfl s) s rfl
@[simp] theorem hostAccess_events : (hostAccess s).events = s.events := kept_hostAccess (kept_same .events rfl s) s rfl
@[simp] theorem hostAccess_force : (hostAccess s).force = s.force := kept_hostAccess (kept_same .force rfl s) s rfl
@[simp] theorem hostAccess_dirty : (hostAccess s).dirty = s.dirty := kept_hostAccess (kept_same .dirty rfl s) s rfl
@[simp] theorem hostAccess_dram : (hostAccess s).dram = s.dram := kept_hostAccess (kept_same .dram rfl s) s rfl
@[simp] theorem hostAccess_groups : (hostAccess s).groups = s.groups := kept_hostAccess (kept_same .groups rfl s) s rfl
@[simp] theorem hostAccess_present : (hostAccess s).present = s.present := kept_hostAccess (kept_same .present rfl s) s rfl
@[simp] theorem hostAccess_damask : (hostAccess s).damask = s.damask := kept_hostAccess (kept_same .damask rfl s) s rfl
@[simp] theorem hostAccess_clock : (hostAccess s).clock = s.clock := kept_hostAccess (kept_same .clock rfl s) s rfl
@[simp] theorem hostAccess_links : (hostAccess s).links = s.links := kept_hostAccess (kept_same .links rfl s) s rfl
@[simp] theorem hostAccess_mod : (hostAccess s).mod = s.mod := kept_hostAccess (kept_same .mod rfl s) s rfl
@[simp] theorem hostAccess_units : (hostAccess s).units = s.units := kept_hostAccess (kept_same .units rfl s) s rfl
@[simp] theorem hostAccess_time : (hostAccess s).time = s.time := kept_hostAccess (kept_same .time rfl s) s rfl
@[simp] theorem hostAccess_eth : (hostAccess s).eth = s.eth := kept_hostAccess (kept_same .eth rfl s) s rfl
@[simp] theorem hostAccess_meas : (hostAccess s).meas = s.meas := kept_hostAccess (kept_same .meas rfl s) s rfl
@[simp] theorem hostAccess_meter : (hostAccess s).meter = s.meter := kept_hostAccess (kept_same .meter rfl s) s rfl
@[simp] theorem hostAccess_therm : (hostAccess s).therm = s.therm := kept_hostAccess (kept_same .therm rfl s) s rfl
@[simp] theorem hostAccess_power : (hostAccess s).power = s.power := kept_hostAccess (kept_same .power rfl s) s rfl

@[simp] theorem svcAccess_pending : (svcAccess s).pending = s.pending := kept_svcAccess (kept_same .pending rfl s) s rfl
@[simp] theorem svcAccess_tick : (svcAccess s).tick = s.tick := kept_svcAccess (kept_same .tick rfl s) s rfl
@[simp] theorem svcAccess_regs : (svcAccess s).regs = s.regs := kept_svcAccess (kept_same .regs rfl s) s rfl
@[simp] theorem svcAccess_events : (svcAccess s).events = s.events := kept_svcAccess (kept_same .events rfl s) s rfl
@[simp] theorem svcAccess_force : (svcAccess s).force = s.force := kept_svcAccess (kept_same .force rfl s) s rfl
@[simp] theorem svcAccess_dirty : (svcAccess s).dirty = s.dirty := kept_svcAccess (kept_same .dirty rfl s) s rfl
@[simp] theorem svcAccess_dram : (svcAccess s).dram = s.dram := kept_svcAccess (kept_same .dram rfl s) s rfl
@[simp] theorem svcAccess_dev : (svcAccess s).dev = s.dev := kept_svcAccess (kept_same .dev rfl s) s rfl
@[simp] theorem svcAccess_groups : (svcAccess s).groups = s.groups := kept_svcAccess (kept_same .groups rfl s) s rfl
@[simp] theorem svcAccess_present : (svcAccess s).present = s.present := kept_svcAccess (kept_same .present rfl s) s rfl
@[simp] theorem svcAccess_damask : (svcAccess s).damask = s.damask := kept_svcAccess (kept_same .damask rfl s) s rfl
@[simp] theorem svcAccess_clock : (svcAccess s).clock = s.clock := kept_svcAccess (kept_same .clock rfl s) s rfl
@[simp] theorem svcAccess_links : (svcAccess s).links = s.links := kept_svcAccess (kept_same .links rfl s) s rfl
@[simp] theorem svcAccess_mod : (svcAccess s).mod = s.mod := kept_svcAccess (kept_same .mod rfl s) s rfl
@[simp] theorem svcAccess_units : (svcAccess s).units = s.units := kept_svcAccess (kept_same .units rfl s) s rfl
@[simp] theorem svcAccess_conv : (svcAccess s).conv = s.conv := kept_svcAccess (kept_same .conv rfl s) s rfl
@[simp] theorem svcAccess_time : (svcAccess s).time = s.time := kept_svcAccess (kept_same .time rfl s) s rfl
@[simp] theorem svcAccess_eth : (svcAccess s).eth = s.eth := kept_svcAccess (kept_same .eth rfl s) s rfl
@[simp] theorem svcAccess_meas : (svcAccess s).meas = s.meas := kept_svcAccess (kept_same .meas rfl s) s rfl
@[simp] theorem svcAccess_meter : (svcAccess s).meter = s.meter := kept_svcAccess (kept_same .meter rfl s) s rfl
@[simp] theorem svcAccess_bracken : (svcAccess s).bracken = s.bracken := kept_svcAccess (kept_same .bracken rfl s) s rfl
@[simp] theorem svcAccess_therm : (svcAccess s).therm = s.therm := kept_svcAccess (kept_same .therm rfl s) s rfl
@[simp] theorem svcAccess_power : (svcAccess s).power = s.power := kept_svcAccess (kept_same .power rfl s) s rfl

@[simp] theorem group_hostAccess (g : Nat) : group (hostAccess s) g = group s g := by rw [group, hostAccess_groups, group]
@[simp] theorem link_hostAccess (l : Nat) : link (hostAccess s) l = link s l := by rw [link, hostAccess_links, link]
@[simp] theorem rd_svcAccess (a : Nat) : rd (svcAccess s) a = rd s a := rd_of_regs (svcAccess_regs s) a

/-! Registers. -/

theorem regsBut_refl (A : Nat → Prop) : regsBut A s s := fun _ _ _ => rfl

theorem regsBut_of_regs {t : State} (A : Nat → Prop) (h : t.regs = s.regs) : regsBut A s t := fun a _ _ => rd_of_regs h a

/-- A flag without an interrupt source changes its own word alone. -/
theorem stick_none (a m : Nat) : stick a m none s = orWord a (wd m) s := rfl

theorem bit_stick_none (a b : Nat) (hb : b < 32) : bit (rd (stick a (2 ^ b) none s) a) b = true := by
  rw [stick_none, rd_orWord, if_pos rfl, bit_or, bit_wd _ hb, Nat.testBit_two_pow_self, Bool.or_true]

theorem rd_stick_none_ne {a b : Nat} (m : Nat) (h : b ≠ a) : rd (stick a m none s) b = rd s b := rd_orWord_ne _ _ h

theorem rd_cntUp_ne {a b : Nat} (n : Nat) (h : b ≠ a) : rd (cntUp a n s) b = rd s b := rd_wr_ne _ _ h

theorem rd_cntUp_self {a n : Nat} (h : (rd s a).toNat + n < 2 ^ 32) : rd (cntUp a n s) a = wd ((rd s a).toNat + n) := by
  simp only [cntUp, rd_wr_self, if_pos h]

theorem rd_cntSat (a b n : Nat) : rd (cntSat a n s) b = if b = a then satInc (rd s a) n else rd s b := rd_wr _ _ _ _

end

theorem regsBut_trans {A : Nat → Prop} {s t u : State} (h : regsBut A s t) (h' : regsBut A t u) : regsBut A s u :=
  fun a ha hi => (h' a ha hi).trans (h a ha hi)

theorem regsBut_mono {A B : Nat → Prop} {s t : State} (h : regsBut A s t) (hab : ∀ a, A a → B a) : regsBut B s t :=
  fun a ha hi => h a (fun h' => ha (hab a h')) hi

theorem regsBut_wr (a : Nat) (v : Word) (s : State) : regsBut (fun b => b = a) s (wr a v s) := fun _ ha _ => rd_wr_ne _ _ ha

/-- A property of both branches, each under its condition. -/
theorem ite_elim {α : Type} {c : Prop} [Decidable c] {P : α → Prop} {x y : α} (hx : c → P x) (hy : ¬c → P y) :
    P (if c then x else y) := by
  split
  · exact hx ‹_›
  · exact hy ‹_›

/-- The blocks with RWS registers lie between MOD and SEC-MEAS. -/
theorem blockOf_rws {a : Nat} : (blockOf a).1 ∈ [9, 11, 12, 13, 14, 16] → 0x100000 ≤ a ∧ a < 0x400000 := by
  unfold blockOf
  repeat' refine ite_elim (P := fun b : Nat × Nat => b.1 ∈ _ → 0x100000 ≤ a ∧ a < 0x400000) (fun _ => ?_) (fun _ => ?_)
  all_goals
    intro h
    simp at h
  all_goals lia

/-- The fields of flags and interrupts: registers with their events, stamps, and the host interface. -/
abbrev flagParts : List Part := [.regs, .events, .time, .host]

/-- A state that differs in flags and interrupts alone. -/
theorem eq_of_flags {s t : State} (h : unchangedBut flagParts s t) :
    t = { s with regs := t.regs, events := t.events, time := t.time, host := t.host } := by
  have f (p : Part) (hp : flagParts.contains p = false) : samePart p s t := h p fun hm => by simp [hm] at hp
  exact (State.mk.injEq ..).mpr ⟨f .pending rfl, f .tick rfl, rfl, rfl, f .force rfl, f .dirty rfl, f .dram rfl, f .dev rfl,
    f .groups rfl, f .present rfl, f .damask rfl, f .clock rfl, f .links rfl, f .mod rfl, f .units rfl, f .gorse rfl,
    f .conv rfl, rfl, f .eth rfl, f .meas rfl, f .meter rfl, f .bracken rfl, rfl, f .therm rfl, f .power rfl⟩

theorem flags_irq (n : Nat) (s : State) : unchangedBut flagParts s (irq n s) :=
  kept_irq (kept_unchangedBut flagParts s).toKeptDev.toKept n s (unchangedBut_refl _ s)

theorem flags_stick (a m : Nat) (src : Option Nat) (s : State) : unchangedBut flagParts s (stick a m src s) :=
  kept_stick (kept_unchangedBut flagParts s).toKeptDev.toKept a m src s (unchangedBut_refl _ s)

theorem toNat_wd {n : Nat} (h : n < 2 ^ 32) : (wd n).toNat = n := by
  rw [wd, BitVec.toNat_ofNat, Nat.mod_eq_of_lt h]

theorem hostAccess_eq (s : State) : ∃ g h, hostAccess s = { s with gorse := g, host := h } := by
  unfold hostAccess
  split
  · exact ⟨s.gorse, s.host, rfl⟩
  · exact ⟨_, _, rfl⟩

/-- A field of a word takes its value; the bits outside it stay. -/
theorem bit_putFld (w : Word) {lo len v k : Nat} (hk : k < 32) :
    bit (putFld w lo len v) k = if lo ≤ k ∧ k < lo + len then v.testBit (k - lo) else bit w k := by
  rw [putFld, bit_or, bit_and, bit_not _ hk, bit_wd _ hk, bit_wd _ hk, Nat.testBit_shiftLeft, Nat.testBit_shiftLeft,
    Nat.testBit_two_pow_sub_one, Nat.testBit_mod_two_pow]
  by_cases h1 : lo ≤ k
  · by_cases h2 : k < lo + len
    · simp [h1, h2, show k - lo < len by lia]
    · simp [h1, h2, show ¬ k - lo < len by lia]
  · simp [h1]

theorem fld_putFld (w : Word) {lo len v : Nat} (h : lo + len ≤ 32) : fld (putFld w lo len v) lo len = v % 2 ^ len := by
  refine fld_eq_of_bits (Nat.mod_lt _ (by positivity)) (fun k hk => ?_)
  rw [bit_putFld w (by lia), if_pos ⟨by lia, by lia⟩, Nat.testBit_mod_two_pow, decide_eq_true hk, Bool.true_and,
    Nat.add_sub_cancel_left]

end Sys2Proof.Rules
end

section
-- One proof after another: the check compiles the whole text in one process, and memory is short.
set_option Elab.async false
/-! Chapter 1: commits and clock groups. -/

namespace Sys2Proof.Commits

open Sys2Proof Sys2Proof.Machine Sys2Proof.Laws Sys2Proof.Conversion Sys2Proof.Rules

/-! COMMIT_REQ (R27, R29, R31, R46). -/

/-- A request for group g misses the cutoff of the coming boundary or of the coming mid-period instant. -/
noncomputable def lateFor (s : State) (g : Nat) : Bool := (group s g).cut || (group s g).midWait

/-- The work of COMMIT_REQ on one group that the write names. -/
noncomputable def commitOne (g : Nat) (s : State) : State :=
  if s.present.testBit g then requestCommit g s else stick aCommitFlags 1 none s

theorem doCommitReq_of_run {s : State} (v : Word) (h : s.dev ≠ .configWait) :
    doCommitReq v s = forEach (bitsOf 8 v.toNat) commitOne s := if_neg h

theorem doCommitReq_of_configWait {s : State} (v : Word) (h : s.dev = .configWait) :
    doCommitReq v s = stick aCommitFlags 1 none s := if_pos h

section
variable (s : State) (g : Nat)

theorem requestCommit_eq : requestCommit g s
    = modGroup g (fun x => { x with req := true }) (if lateFor s g then cntUp aCommitLate 1 s else s) := rfl

@[simp] theorem commitOne_present : (commitOne g s).present = s.present := by
  unfold commitOne
  rw [requestCommit_eq]
  split
  · split <;> simp
  · simp

theorem group_commitOne (h : Nat) : group (commitOne g s) h
    = if h = g ∧ s.present.testBit g = true then { group s h with req := true } else group s h := by
  unfold commitOne
  rw [requestCommit_eq]
  by_cases hp : s.present.testBit g = true
  · by_cases hg : h = g
    · subst hg
      simp only [hp, if_true, group_modGroup_self, and_self]
      split <;> simp
    · simp only [hp, if_true, group_modGroup_ne _ _ hg, hg, false_and, if_false]
      split <;> simp
  · simp [hp]

theorem bit_commitOne_refused (hp : s.present.testBit g = false) : bit (rd (commitOne g s) aCommitFlags) 0 = true := by
  simpa [commitOne, hp] using bit_stick_none s aCommitFlags 0 (by decide)

theorem rd_commitOne_of_present (hp : s.present.testBit g = true) (a : Nat) (ha : a ≠ aCommitLate) :
    rd (commitOne g s) a = rd s a := by
  simp only [commitOne, hp, if_true, requestCommit_eq, rd_modGroup]
  split
  · exact rd_cntUp_ne s 1 ha
  · rfl

theorem rd_commitOne_of_absent (hp : s.present.testBit g = false) (a : Nat) (ha : a ≠ aCommitFlags) :
    rd (commitOne g s) a = rd s a := by
  simp only [commitOne, hp, Bool.false_eq_true, if_false]
  exact rd_stick_none_ne s 1 ha

/-- A refusal that is shown stays shown. -/
theorem bit_commitOne_kept (h : bit (rd s aCommitFlags) 0 = true) : bit (rd (commitOne g s) aCommitFlags) 0 = true := by
  cases hp : s.present.testBit g with
  | true => rwa [rd_commitOne_of_present s g hp _ (by decide)]
  | false => exact bit_commitOne_refused s g hp

/-- The late count rises by one for a late request of a group that the image defines. -/
theorem rd_commitOne_late (h : (rd s aCommitLate).toNat + b2n (s.present.testBit g && lateFor s g) < 2 ^ 32) :
    rd (commitOne g s) aCommitLate = wd ((rd s aCommitLate).toNat + b2n (s.present.testBit g && lateFor s g)) := by
  cases hp : s.present.testBit g with
  | false =>
    rw [rd_commitOne_of_absent s g hp _ (by decide)]
    simp [b2n, wd]
  | true =>
    simp only [commitOne, hp, if_true, requestCommit_eq, rd_modGroup, Bool.true_and] at h ⊢
    cases hl : lateFor s g with
    | false => simp [b2n, wd]
    | true =>
      rw [hl] at h
      exact rd_cntUp_self s h

end

/-- What COMMIT_REQ has done to s once the groups of d are done. -/
structure Committed (s : State) (d : List Nat) (t : State) : Prop where
  present : t.present = s.present
  groups : ∀ g, group t g = if g ∈ d ∧ s.present.testBit g = true then { group s g with req := true } else group s g
  refused : (∃ g ∈ d, s.present.testBit g = false) → bit (rd t aCommitFlags) 0 = true
  late : (rd s aCommitLate).toNat + (d.filter (fun g => s.present.testBit g && lateFor s g)).length < 2 ^ 32 →
    rd t aCommitLate = wd ((rd s aCommitLate).toNat + (d.filter (fun g => s.present.testBit g && lateFor s g)).length)
  frame : regsBut (fun a => a = aCommitFlags ∨ a = aCommitLate) s t

theorem committed_nil (s : State) : Committed s [] s where
  present := rfl
  groups := by simp
  refused := by simp
  late := by simp [wd]
  frame := regsBut_refl s _

theorem committed_step {s t : State} {d : List Nat} {g : Nat} (hg : g ∉ d) (h : Committed s d t) :
    Committed s (d ++ [g]) (commitOne g t) where
  present := by rw [commitOne_present, h.present]
  groups k := by
    rw [group_commitOne, h.groups, h.present]
    by_cases hk : k = g
    · subst hk
      simp [hg]
    · simp [hk]
  refused := by
    rintro ⟨k, hk, hp⟩
    rcases List.mem_append.mp hk with hk | hk
    · exact bit_commitOne_kept t g (h.refused ⟨k, hk, hp⟩)
    · obtain rfl := List.mem_singleton.mp hk
      exact bit_commitOne_refused t k (by rw [h.present, hp])
  late hb := by
    have hl : lateFor t g = lateFor s g := by
      simp only [lateFor, h.groups g, hg, false_and, if_false]
    have hn : ((d ++ [g]).filter (fun g => s.present.testBit g && lateFor s g)).length
        = (d.filter (fun g => s.present.testBit g && lateFor s g)).length + b2n (t.present.testBit g && lateFor t g) := by
      rw [List.filter_append, List.length_append, h.present, hl]
      cases he : s.present.testBit g && lateFor s g <;> simp only [List.filter_cons, he] <;> rfl
    rw [hn] at hb ⊢
    have hd := h.late (by lia)
    have ht : (rd t aCommitLate).toNat = (rd s aCommitLate).toNat
        + (d.filter (fun g => s.present.testBit g && lateFor s g)).length := by rw [hd, toNat_wd (by lia)]
    rw [rd_commitOne_late t g (by lia), ht, Nat.add_assoc]
  frame a ha hi := by
    rw [← h.frame a ha hi]
    cases hp : t.present.testBit g with
    | true => exact rd_commitOne_of_present t g hp a (fun e => ha (.inr e))
    | false => exact rd_commitOne_of_absent t g hp a (fun e => ha (.inl e))

theorem committed_forEach (s : State) (l : List Nat) (hl : l.Nodup) : Committed s l (forEach l commitOne s) :=
  forEach_inv commitOne (Committed s) l hl s (committed_nil s) (fun _ _ _ hg _ h => committed_step hg h)

/-- Settles O9, by the invariant Committed over the groups that the write names. -/
theorem commitRequest : Obligations.CommitRequest := by
  refine ⟨fun v s hd => ⟨_, rfl, ?_⟩, fun v s hd => ⟨_, rfl, ?_⟩⟩
  · rw [doCommitReq_of_run v (by simpa using hd)]
    obtain ⟨_, hgroups, hrefused, hlate, hframe⟩ := committed_forEach (hostAccess s) _ (nodup_bitsOf 8 v.toNat)
    simp only [group_hostAccess, hostAccess_present, rd_hostAccess, mem_bitsOf, BitVec.testBit_toNat] at hgroups hrefused hlate
    refine ⟨?_, ?_, ?_, fun a ha hi => (hframe a ha hi).trans (rd_hostAccess s a)⟩
    · simpa only [and_assoc] using hgroups
    · rintro ⟨g, hg, hv, hp⟩
      exact hrefused ⟨g, ⟨hg, hv⟩, hp⟩
    · have he : (bitsOf 8 v.toNat).filter (fun g => s.present.testBit g && lateFor (hostAccess s) g)
          = (List.range 8).filter (fun g => v.getLsbD g && s.present.testBit g
              && ((group s g).cut || (group s g).midWait)) := by
        rw [bitsOf, List.filter_filter]
        refine List.filter_congr fun g _ => ?_
        rw [lateFor, group_hostAccess, BitVec.testBit_toNat]
        ac_rfl
      rw [he] at hlate
      exact hlate
  · rw [doCommitReq_of_configWait v (by simpa using hd)]
    refine ⟨bit_stick_none _ _ 0 (by decide), by simp, fun a ha _ => ?_⟩
    rw [rd_stick_none_ne _ 1 ha, rd_hostAccess]


/-! The cutoff (R25, R27, R172). -/

theorem rwsGroup_range {s : State} {a g : Nat} (h : rwsGroup s a = some g) : 0x100000 ≤ a ∧ a < 0x400000 := by
  apply blockOf_rws
  by_contra hb
  unfold rwsGroup at h
  extract_lets b o at h
  change b.1 ∉ _ at hb
  split at h
  case h_7 => cases h
  all_goals simp_all

theorem rwsGroup_modSticky (s : State) : rwsGroup s aModSticky = none := by
  simp [rwsGroup, aModSticky, blockOf]

/-- The staged writes of a group are read from staging and the image's content alone. -/
theorem stagedOf_of_flags {s t : State} (g : Nat) (h : unchangedBut flagParts s t)
    (hr : regsBut (fun a => a = aModSticky) s t) : stagedOf t g = stagedOf s g := by
  have hs := eq_of_flags h
  have hd : t.dirty = s.dirty := h .dirty (by decide)
  have hg : ∀ a, rwsGroup t a = rwsGroup s a := fun a => by rw [hs]; rfl
  unfold stagedOf
  simp only [hd, hg]
  refine List.map_congr_left fun a ha => ?_
  have hg : rwsGroup s a = some g := by simpa using (List.mem_filter.mp ha).2
  obtain ⟨hlo, hhi⟩ := rwsGroup_range hg
  rw [hr a (fun e => by rw [e, rwsGroup_modSticky] at hg; cases hg) (not_intReg_of_between (by lia) hhi)]

theorem plBlocks_of_flags {s t : State} (g : Nat) (h : unchangedBut flagParts s t) (hr : rd t aPairlock = rd s aPairlock) :
    plBlocks t g = plBlocks s g := by
  have hs := eq_of_flags h
  have hc : plComplete t g = plComplete s g := by rw [hs]; rfl
  have hd : t.dirty = s.dirty := h .dirty (by decide)
  have hm : t.damask = s.damask := h .damask (by decide)
  unfold plBlocks
  rw [hr, hc, hd, hm]


/-- The state on which a commit is judged at the cutoff: the period may be flagged, and the tiles of a swap enter SWAPPING. -/
noncomputable def atCutoff (g : Nat) (s : State) : State :=
  swapCutoff g (if longerHeld s g (periodOf s g) 160000 then s else modStick 7 s)

section
variable (g : Nat) (s : State)

theorem group_of_groups {s t : State} (h : t.groups = s.groups) (k : Nat) : group t k = group s k := by rw [group, h, group]

@[simp] theorem atCutoff_groups : (atCutoff g s).groups = s.groups :=
  kept_swapCutoff (kept_same .groups rfl s) g _
    (holds_if (fun _ => rfl) (fun _ => kept_modStick (kept_same .groups rfl s) 7 s rfl))

@[simp] theorem atCutoff_dirty : (atCutoff g s).dirty = s.dirty :=
  kept_swapCutoff (kept_same .dirty rfl s) g _
    (holds_if (fun _ => rfl) (fun _ => kept_modStick (kept_same .dirty rfl s) 7 s rfl))

/-- With no swap under way a flag at most is set. -/
theorem atCutoff_flags (h : s.damask.swap = none) :
    unchangedBut flagParts s (atCutoff g s) ∧ regsBut (fun a => a = aModSticky) s (atCutoff g s) := by
  have hs : ∀ u : State, u.damask.swap = none → swapCutoff g u = u := fun u hu => by simp [swapCutoff, hu]
  unfold atCutoff
  split
  · rw [hs s h]
    exact ⟨unchangedBut_refl _ s, regsBut_refl s _⟩
  · rw [hs _ (by rw [modStick, stick_damask, h])]
    refine ⟨flags_stick _ _ _ s, fun a ha hi => ?_⟩
    rw [modStick, rd_stick _ _ _ _ _ (by rintro n ⟨⟩; decide) hi, if_neg ha]

theorem plBlocks_atCutoff (h : s.damask.swap = none) : plBlocks (atCutoff g s) g = plBlocks s g := by
  obtain ⟨hflags, hregs⟩ := atCutoff_flags g s h
  exact plBlocks_of_flags g hflags (hregs _ (by decide) (not_intReg_of_between (by decide) (by decide)))

theorem group_takeEnables : (∃ e u, group (takeEnables g s) g = { group s g with takenEn := e, takenUpd := u })
    ∧ ∀ h, h ≠ g → group (takeEnables g s) h = group s h := by
  unfold takeEnables
  extract_lets m d fresh bad staged du s1 s2
  have hg : group (if bad = 0 then s2 else modStick 2 s2) = group s2 := by
    funext h
    split
    · rfl
    · exact group_stick _ _ _ _ _
  rw [hg]
  exact ⟨⟨_, _, group_modGroup_self s1 g _⟩, fun h hh => group_modGroup_ne s1 _ hh⟩

@[simp] theorem takeEnables_dirty : (takeEnables g s).dirty = s.dirty :=
  kept_takeEnables (kept_same .dirty rfl s) g s rfl

theorem group_edgeCompute (off : Nat) : group (edgeCompute g off s) g = { group s g with midNext := comingMid s g }
    ∧ ∀ h, h ≠ g → group (edgeCompute g off s) h = group s h := by
  unfold edgeCompute
  extract_lets en mid s1
  have h1 : Holds (samePart .groups s) s1 :=
    holds_forEach _ (fun p t h => kept_pairCompute (kept_same .groups rfl s) g p en t h) _ _ rfl
  have h2 : Holds (samePart .groups s) (forEach (groupCells s1 g) (fun c s => cellCompute g c mid en s) s1) :=
    holds_forEach _ (fun c t h => kept_cellCompute (kept_same .groups rfl s) g c mid en t h) _ _ h1
  refine ⟨?_, fun h hh => ?_⟩
  · rw [group_modGroup_self, group_of_groups h2]
  · rw [group_modGroup_ne _ _ hh, group_of_groups h2]

@[simp] theorem edgeCompute_dirty (off : Nat) : (edgeCompute g off s).dirty = s.dirty :=
  kept_edgeCompute (kept_same .dirty rfl s) g off s rfl

@[simp] theorem unitsCutoff_groups : (unitsCutoff g s).groups = s.groups := kept_unitsCutoff (kept_same .groups rfl s) g s rfl
@[simp] theorem unitsCutoff_dirty : (unitsCutoff g s).dirty = s.dirty := kept_unitsCutoff (kept_same .dirty rfl s) g s rfl

/-- A step of the safe-stop sequence that is armed or not leaves groups and staging. -/
theorem modGorse_if (c : Prop) [Decidable c] (f : Gorse → Gorse) (t : State) :
    (if c then modGorse f t else t).groups = t.groups ∧ (if c then modGorse f t else t).dirty = t.dirty := by
  split <;> exact ⟨rfl, rfl⟩

/-- After the commit is judged a cutoff places the mid-period instant and passes; other groups and staging stay. -/
theorem doCutoff_after_judge (hp : s.present.testBit g = true) (hs : (group s g).started = true) (hc : (group s g).cut = false) :
    (∃ m, group (doCutoff g s) g = { group (judgeCommit g (atCutoff g s)) g with midNext := m, cut := true })
    ∧ (∀ h, h ≠ g → group (doCutoff g s) h = group (judgeCommit g (atCutoff g s)) h)
    ∧ (doCutoff g s).dirty = (judgeCommit g (atCutoff g s)).dirty := by
  unfold doCutoff
  rw [if_pos (by simp [hp, hs, hc])]
  extract_lets s1 s2 s3 s4
  have h2 : ∀ k, group s2 k = group (judgeCommit g (atCutoff g s)) k := group_of_groups (unitsCutoff_groups g _)
  have h34 : s4.groups = s3.groups ∧ s4.dirty = s3.dirty := modGorse_if _ _ s3
  have h4 : ∀ k, group s4 k = group s3 k := group_of_groups h34.1
  obtain ⟨hself, hne⟩ := group_edgeCompute g s2 (ssHeadOff s2 g)
  refine ⟨⟨comingMid s2 g, ?_⟩, fun h hh => ?_, ?_⟩
  · rw [group_modGroup_self, h4, hself, h2]
  · rw [group_modGroup_ne _ _ hh, h4, hne h hh, h2]
  · rw [modGroup_dirty, h34.2, edgeCompute_dirty, unitsCutoff_dirty]
    rfl

/-! How a commit is judged. -/

theorem swapDue_of_none (h : s.damask.swap = none) : swapDue s g = false := by simp only [swapDue, h]

theorem judgeCommit_of_none (h : (group s g).req = false) : judgeCommit g s = s := by simp [judgeCommit, h]

theorem judgeCommit_of_held (h : (group s g).req = true) (hs : s.damask.swap = none) (hp : plBlocks s g = true) :
    judgeCommit g s = cntUp aPlHoldCnt 1 (modGroup g (fun x => { x with plHold := true }) s) := by
  simp only [judgeCommit, h, swapDue_of_none g s hs, hp]
  rfl

theorem judgeCommit_of_free (h : (group s g).req = true) (hs : s.damask.swap = none) (hp : plBlocks s g = false) :
    judgeCommit g s = takeIn g s := by
  simp only [judgeCommit, h, swapDue_of_none g s hs, hp]
  rfl

/-- The staged writes of group g that its cutoff takes in: a follower's period waits for GRID. -/
noncomputable def inRegs : List (Nat × Word) := (stagedOf s g).filter (fun p => !(s.damask.wzRole == 2 && p.1 == aCgPeriod g))

theorem group_takeIn : ∃ e u, group (takeIn g s) g = { group s g with
    req := false, taken := true, plHold := false, written := [], takenRegs := inRegs g s, takenEn := e, takenUpd := u } := by
  obtain ⟨⟨e, u, h⟩, -⟩ := group_takeEnables g (modGroup g (fun x => { x with
      req := false, taken := true, plHold := false, written := [], takenRegs := inRegs g s })
    { s with dirty := s.dirty.filter (fun a => !((inRegs g s).any (fun p => p.1 == a))) })
  rw [group_modGroup_self] at h
  exact ⟨e, u, h⟩

theorem takeIn_dirty : (takeIn g s).dirty = s.dirty.filter (fun a => !((inRegs g s).any (fun p => p.1 == a))) :=
  takeEnables_dirty g _

theorem group_judgeCommit_ne (h : Nat) (hh : h ≠ g) : group (judgeCommit g s) h = group s h := by
  unfold judgeCommit
  split
  · rfl
  split
  · exact group_cntUp ..
  split
  · rw [group_cntUp, group_modGroup_ne _ _ hh]
  · rw [takeIn, (group_takeEnables g _).2 h hh, group_modGroup_ne _ _ hh]
    rfl

end

/-- Settles O10: the cutoff judges the commit on a state that differs from s in flags alone where no swap is under way. -/
theorem cutoffTakesIn : Obligations.CutoffTakesIn := by
  intro g s hp hs hc
  obtain ⟨⟨m, hself⟩, hne, hdirty⟩ := doCutoff_after_judge g.val s hp hs hc
  have hgr : ∀ k, group (atCutoff g.val s) k = group s k := group_of_groups (atCutoff_groups _ s)
  have hforce : (doCutoff g.val s).force = s.force := kept_doCutoff (kept_same .force rfl s) g s rfl
  refine ⟨_, rfl, by rw [hself], hforce, fun h hh => ?_, fun hr hsw hpl => ?_, fun hr hsw hpl => ?_, fun hr => ?_⟩
  · rw [hne h hh, group_judgeCommit_ne _ _ _ hh, hgr]
  · obtain ⟨hflags, hregs⟩ := atCutoff_flags g.val s hsw
    have hdam : (atCutoff g.val s).damask = s.damask := hflags .damask (by decide)
    have hpl' : plBlocks (atCutoff g.val s) g.val = false := by rw [plBlocks_atCutoff g.val s hsw, hpl]
    have hin : inRegs g.val (atCutoff g.val s) = inRegs g.val s := by
      rw [inRegs, hdam, stagedOf_of_flags _ hflags hregs, inRegs]
    obtain ⟨e, u, htake⟩ := group_takeIn g.val (atCutoff g.val s)
    rw [judgeCommit_of_free _ _ (by rw [hgr, hr]) (by rw [hdam, hsw]) hpl'] at hself hdirty
    rw [htake, hin, hgr] at hself
    rw [takeIn_dirty, hin, atCutoff_dirty] at hdirty
    rw [hself]
    exact ⟨rfl, rfl, rfl, rfl, rfl, hdirty⟩
  · have hdam : (atCutoff g.val s).damask = s.damask := (atCutoff_flags g.val s hsw).1 .damask (by decide)
    have hpl' : plBlocks (atCutoff g.val s) g.val = true := by rw [plBlocks_atCutoff g.val s hsw, hpl]
    rw [judgeCommit_of_held _ _ (by rw [hgr, hr]) (by rw [hdam, hsw]) hpl', group_cntUp, group_modGroup_self, hgr] at hself
    rw [judgeCommit_of_held _ _ (by rw [hgr, hr]) (by rw [hdam, hsw]) hpl', cntUp_dirty, modGroup_dirty, atCutoff_dirty] at hdirty
    rw [hself]
    exact ⟨hr, rfl, rfl, hdirty⟩
  · rw [judgeCommit_of_none _ _ (by rw [hgr, hr])] at hself hdirty
    rw [hself, hdirty, hgr, atCutoff_dirty]
    exact ⟨rfl, rfl⟩

end Sys2Proof.Commits
end

section
-- One proof after another: the check compiles the whole text in one process, and memory is short.
set_option Elab.async false
/-! Chapter 1: the boundary and the other instants of a clock group (R24, R26, R37, R38, R46, R174). -/

namespace Sys2Proof.Commits

open Sys2Proof Sys2Proof.Machine Sys2Proof.Laws Sys2Proof.Conversion Sys2Proof.Rules

/-! A boundary that ends a safe-stop sequence (R163, R402, R403). -/

/-- Group 0 stands before a boundary at which the last step of a safe-stop sequence ends, a ramp whose slots have all latched zero,
while a cutoff of group 1 has taken in an enable. -/
noncomputable def rampEnding : State :=
  { present := 3
    groups := [(0, { started := true, cut := true }), (1, { takenEn := (1, 1) })]
    gorse := { ssWaiting := true, ssSteps := [.ramp 0 [] 0] } }

theorem rampEnding_takenEn : (group (doPeriodBoundary 0 rampEnding) 1).takenEn = (0, 0) := by decide +kernel

/-- Refutes O11: the ramp that ends the sequence clears every enable, and with them the enables that the cutoffs of other groups
have taken in, so a boundary of one group changes another one. -/
theorem not_periodBoundary : ¬ Obligations.PeriodBoundary := by
  intro h
  obtain ⟨t, ht, -, -, -, -, -, -, -, -, -, -, hother, -⟩ := h 0 rampEnding rfl rfl rfl
  have h1 : (group t 1).takenEn = (1, 1) := congrArg Group.takenEn (hother 1 (by decide))
  rw [← Host.Outcome.next.inj ht] at h1
  exact absurd (rampEnding_takenEn.symm.trans h1) (by decide)

/-! The mirror copy (R38). -/

theorem doMirrorCopyEnd_of_odd {g : Nat} {s : State} (h : (group s g).mirrorSeq % 2 = 1) :
    doMirrorCopyEnd g s = modGroup g (fun x => { x with mirrorSeq := x.mirrorSeq + 1 }) s := if_pos h

/-! The mid cutoff (R26, R174, R176). -/

section
variable (g : Nat) (s : State)

/-- The mid cutoff of g is to come, and the period that runs has a mid-period instant. -/
noncomputable def midDue : Prop := s.present.testBit g = true ∧ (group s g).started = true ∧ (group s g).midCut = false
  ∧ (group s g).cut = false ∧ s.mod.upd &&& chgMask s g ≠ 0 ∧ (group s g).midAt ≠ 0

variable {g s}

theorem doMidCutoff_of_none (h : midDue g s) (hr : (group s g).req = false ∨ (group s g).plHold = true ∨ plBlocks s g = true) :
    doMidCutoff g s = modGroup g (fun y => { y with midCut := true, midWait := true }) s := by
  obtain ⟨hp, hs, hm, hc, hu, ha⟩ := h
  have hn : ((group s g).req && !(group s g).plHold && !plBlocks s g) = false := by
    rcases hr with hr | hr | hr <;> simp [hr]
  unfold doMidCutoff
  extract_lets x s0
  rw [if_pos (by simp [x, hp, hs, hm, hc, hu, ha]), if_neg (by rw [hn]; decide)]

/-- What a mid cutoff takes in: the group's compares wait for the instant, and leave staging. -/
theorem doMidCutoff_of_free (h : midDue g s) (hr : (group s g).req = true) (hh : (group s g).plHold = false)
    (hb : plBlocks s g = false) :
    group (doMidCutoff g s) g = { group s g with midCut := true, midWait := true, midRegs := midStaged s g }
    ∧ (∀ k, k ≠ g → group (doMidCutoff g s) k = group s k)
    ∧ (doMidCutoff g s).dirty = s.dirty.filter (fun a => !((midStaged s g).any (fun w => w.1 == a))) := by
  obtain ⟨hp, hs, hm, hc, hu, ha⟩ := h
  unfold doMidCutoff
  extract_lets x s0 ws chg val s1 s2
  rw [if_pos (by simp [x, hp, hs, hm, hc, hu, ha]), if_pos (by simp [x, hr, hh, hb])]
  have keep : ∀ {P}, Kept [.regs, .events, .links, .mod, .time, .host] P → Holds P s1 → Holds P (forEach (groupCells s2 g)
      (fun c s => if chg.any (fun w => decide (aVc c 0 ≤ w.1) && decide (w.1 < aVc c 0x30)) then
        cellMid g c x.midAt val (fun i => chg.any (fun w => w.1 == aVc c (4 * i))) s else s) s2) := by
    intro P k h1
    have h2 : Holds P s2 := holds_forEach _
      (fun _ _ h => holds_if (fun _ => kept_pairMid (k.mono (by decide)) _ _ _ _ _ h) (fun _ => h)) _ _ h1
    exact holds_forEach _ (fun _ _ h => holds_if (fun _ => kept_cellMid k _ _ _ _ _ _ h) (fun _ => h)) _ _ h2
  have hgr := group_of_groups (keep (kept_same .groups rfl s1) rfl)
  have h0 : ∀ k, group s1 k = group (modGroup g (fun x => { x with midRegs := ws }) s0) k := fun _ => rfl
  refine ⟨?_, fun k hk => ?_, (keep (kept_same .dirty rfl s1) rfl).trans rfl⟩
  · rw [hgr, h0, group_modGroup_self, group_modGroup_self]
  · rw [hgr, h0, group_modGroup_ne _ _ hk]
    exact group_modGroup_ne s _ hk

end

/-! The mid-period instant (R174). -/

/-- A run of words brought into force leaves every other register in force. -/
theorem fo_foldl_setFo_ne (ws : List (Nat × Word)) (s : State) (a : Nat) (ha : a ∉ ws.map Prod.fst) :
    fo (ws.foldl (fun s p => setFo p.1 p.2 s) s) a = fo s a := by
  induction ws generalizing s with
  | nil => rfl
  | cons w ws ih =>
    simp only [List.map_cons, List.mem_cons, not_or] at ha
    rw [List.foldl_cons, ih _ ha.2, fo_setFo, if_neg ha.1]

theorem fo_foldl_setFo_mem (ws : List (Nat × Word)) (s : State) (hn : (ws.map Prod.fst).Nodup) (p : Nat × Word) (hp : p ∈ ws) :
    fo (ws.foldl (fun s p => setFo p.1 p.2 s) s) p.1 = p.2 := by
  induction ws generalizing s with
  | nil => cases hp
  | cons w ws ih =>
    obtain ⟨hw, hn⟩ := List.nodup_cons.mp hn
    rcases List.mem_cons.mp hp with rfl | hp
    · rw [List.foldl_cons, fo_foldl_setFo_ne _ _ _ hw, fo_setFo_self]
    · exact ih _ hn hp

theorem foldl_setFo_groups (ws : List (Nat × Word)) (s : State) :
    (ws.foldl (fun s p => setFo p.1 p.2 s) s).groups = s.groups :=
  holds_foldl (P := fun t => t.groups = s.groups) (fun s (p : Nat × Word) => setFo p.1 p.2 s) (fun _ _ h => h) ws s rfl

/-- The compares of group g that the mid cutoff has taken in are in force. -/
noncomputable def midActed (g : Nat) (s : State) : State :=
  modGroup g (fun x => { x with midRegs := [], midWait := false }) ((group s g).midRegs.foldl (fun s p => setFo p.1 p.2 s) s)

theorem group_midActed (g : Nat) (s : State) : group (midActed g s) g = { group s g with midRegs := [], midWait := false } := by
  rw [midActed, group_modGroup_self, group_of_groups (foldl_setFo_groups _ s)]

/-- The cells' HALF messages touch neither groups nor words in force. -/
theorem doMidPeriodTransfer_kept {P : State → Prop} (k : Kept [.links] P) (g : Nat) (s : State) (h : Holds P (midActed g s)) :
    Holds P (doMidPeriodTransfer g s) :=
  holds_forEach _ (fun _ _ h => kept_modCell k _ _ _ h) _ _ h

/-! The first alignment instant (R46). -/

theorem group_mirrorBegin (g : Nat) (s : State) : (∃ u r, group (mirrorBegin g s) g = { group s g with
    lgU := u, mirRpt := r, mirrorSeq := (group s g).mirrorSeq + 1 + (group s g).mirrorSeq % 2 })
    ∧ ∀ h, h ≠ g → group (mirrorBegin g s) h = group s h :=
  ⟨⟨_, _, group_modGroup_self s g _⟩, fun _ hh => group_modGroup_ne s _ hh⟩

/-- A group that starts has taken boundary 0, and its mirror is being filled. -/
noncomputable def Started (s : State) (x : Group) : Prop :=
  x.started = true ∧ x.boundary = 0 ∧ x.bAt = s.tick ∧ x.mirrorSeq % 2 = 1

theorem group_groupCreate (g : Nat) (s : State) : (∃ (u : Int) (m : Nat), group (midFirst g (groupCreate g 0 (100 * s.tick) s)) g =
      { group s g with started := true, boundary := 0, bAt := s.tick, bTap := 100 * s.tick, lgU := u, midAt := m })
    ∧ ∀ h, h ≠ g → group (midFirst g (groupCreate g 0 (100 * s.tick) s)) h = group s h := by
  refine ⟨⟨leadU s g, midInstant (groupCreate g 0 (100 * s.tick) s) g s.mod.upd (periodOf (groupCreate g 0 (100 * s.tick) s) g), ?_⟩,
    fun h hh => ?_⟩
  · rw [midFirst, groupCreate, group_modGroup_self, group_modGroup_self]
    rfl
  · rw [midFirst, groupCreate, group_modGroup_ne _ _ hh, group_modGroup_ne _ _ hh]

theorem groupStart_spec (g : Nat) (s : State) : Started s (group (groupStart g s) g)
    ∧ (∀ h, h ≠ g → group (groupStart g s) h = group s h) ∧ (groupStart g s).tick = s.tick := by
  obtain ⟨⟨u, m, hself⟩, hne⟩ := group_groupCreate g s
  unfold groupStart
  generalize hs1 : midFirst g (groupCreate g 0 (100 * s.tick) s) = s1 at hself hne
  have ht1 : s1.tick = s.tick := by rw [← hs1]; rfl
  have h2 : ∀ {p} (h : partMask [.regs, .events, .damask, .units, .time, .host] &&& partBit p = 0),
      samePart p s1 (unitsBoundary g 0 id s1) := fun h => kept_unitsBoundary (kept_same _ h s1) g 0 id s1 (fun _ h => h)
        (by cases ‹Part› <;> rfl)
  generalize unitsBoundary g 0 id s1 = s2 at h2
  obtain ⟨⟨u', r, hm⟩, hmne⟩ := group_mirrorBegin g s2
  have hskip : (midSkip g (mirrorBegin g s2)).groups = (mirrorBegin g s2).groups :=
    kept_midSkip (kept_same .groups rfl _) g _ rfl
  have htick : (midSkip g (mirrorBegin g s2)).tick = s2.tick :=
    kept_midSkip (kept_same .tick rfl s2) g _ (kept_mirrorBegin (kept_same .tick rfl s2) g s2 rfl)
  have hg2 : ∀ k, group s2 k = group s1 k := group_of_groups (h2 (p := .groups) rfl)
  refine ⟨?_, fun h hh => ?_, htick.trans ((h2 (p := .tick) rfl).trans ht1)⟩
  · rw [group_of_groups hskip, hm, hg2, hself]
    refine ⟨rfl, rfl, rfl, ?_⟩
    dsimp only
    lia
  · rw [group_of_groups hskip, hmne h hh, hg2, hne h hh]

/-- The work of the first alignment instant on one group. -/
noncomputable def startOne (g : Nat) (s : State) : State := if (group s g).started then s else groupStart g s

/-- What the first alignment instant has made of s once the groups of d are done. -/
structure StartedAll (s : State) (d : List Nat) (t : State) : Prop where
  tick : t.tick = s.tick
  started : ∀ g ∈ d, (group s g).started = false → Started s (group t g)
  others : ∀ g, g ∉ d ∨ (group s g).started = true → group t g = group s g

theorem startedAll_step {s t : State} {d : List Nat} {g : Nat} (hg : g ∉ d) (h : StartedAll s d t) :
    StartedAll s (d ++ [g]) (startOne g t) := by
  have hgt : group t g = group s g := h.others g (.inl hg)
  unfold startOne
  rw [hgt]
  cases hs : (group s g).started with
  | true =>
    refine ⟨h.tick, fun k hk hks => ?_, fun k hk => h.others k ?_⟩
    · have hkg : k ≠ g := by
        rintro rfl
        simp [hs] at hks
      exact h.started k (by simpa [hkg] using hk) hks
    · by_cases hkg : k = g
      · exact .inr (hkg ▸ hs)
      · simpa [hkg] using hk
  | false =>
    obtain ⟨hself, hne, htick⟩ := groupStart_spec g t
    simp only [Bool.false_eq_true, if_false]
    refine ⟨htick.trans h.tick, fun k hk hks => ?_, fun k hk => ?_⟩
    · by_cases hkg : k = g
      · subst hkg
        simpa only [Started, h.tick] using hself
      · rw [hne k hkg]
        exact h.started k (by simpa [hkg] using hk) hks
    · have hkg : k ≠ g := by
        rintro rfl
        simp [hs] at hk
      rw [hne k hkg]
      exact h.others k (by simpa [hkg] using hk)

theorem startAll (s : State) : StartedAll s (bitsOf 8 s.present) (forEach (bitsOf 8 s.present) startOne s) :=
  forEach_inv startOne (StartedAll s) _ (nodup_bitsOf _ _) s ⟨rfl, by simp, fun _ _ => rfl⟩
    (fun _ _ _ hg _ h => startedAll_step hg h)

/-- Settles O12, instant by instant. -/
theorem groupInstants : Obligations.GroupInstants := by
  refine ⟨fun g s ho => ⟨_, rfl, ?_⟩, fun g s hp hs hm hc hu ha => ⟨_, rfl, ?_⟩, fun g s hn => ⟨_, rfl, ?_⟩,
    fun s hv hr => ⟨_, rfl, ?_⟩⟩
  · have frame := exec_unchangedBut (.mirrorCopyEnd g) s _ rfl
    rw [doMirrorCopyEnd_of_odd ho] at frame ⊢
    exact ⟨group_modGroup_self s g _, fun h hh => group_modGroup_ne s _ hh, frame⟩
  · have due : midDue g s := ⟨hp, hs, hm, hc, hu, ha⟩
    have hforce : (doMidCutoff g s).force = s.force := kept_doMidCutoff (kept_same .force rfl s) g s rfl
    by_cases hfree : (group s g).req = true ∧ (group s g).plHold = false ∧ plBlocks s g = false
    · obtain ⟨hq, hh, hb⟩ := hfree
      obtain ⟨hself, hne, hdirty⟩ := doMidCutoff_of_free due hq hh hb
      refine ⟨by rw [hself], by rw [hself], hforce, fun _ _ _ => ⟨by rw [hself], hdirty⟩, fun hn => ?_, hne⟩
      simp [hq, hh, hb] at hn
    · have hnone : (group s g).req = false ∨ (group s g).plHold = true ∨ plBlocks s g = true := by
        by_contra hcon
        simp only [not_or, Bool.not_eq_true, Bool.not_eq_false] at hcon
        exact hfree hcon
      rw [doMidCutoff_of_none due hnone] at hforce ⊢
      refine ⟨by rw [group_modGroup_self], by rw [group_modGroup_self], hforce, fun hq hh hb => absurd ⟨hq, hh, hb⟩ hfree,
        fun _ => ⟨by rw [group_modGroup_self], rfl⟩, fun h hh => group_modGroup_ne s _ hh⟩
  · have hg : group (doMidPeriodTransfer g s) g = group (midActed g s) g :=
      group_of_groups (doMidPeriodTransfer_kept (kept_same .groups rfl _) g s rfl) g
    have hf : ∀ a, fo (doMidPeriodTransfer g s) a = fo (midActed g s) a :=
      fo_of_force (doMidPeriodTransfer_kept (kept_same .force rfl _) g s rfl)
    rw [hg, group_midActed]
    refine ⟨rfl, rfl, fun p hp => ?_, fun a ha => ?_⟩
    · rw [hf]
      exact fo_foldl_setFo_mem _ s hn p hp
    · rw [hf]
      exact fo_foldl_setFo_ne _ s a ha
  · have h := startAll s
    rw [doClockGroupStart, if_pos (by simp [hv, hr])]
    exact ⟨fun g hg hp hs => h.started g ((mem_bitsOf 8 s.present g).mpr ⟨hg, hp⟩) hs,
      fun g hg => h.others g (hg.imp (fun hp hm => by simp [((mem_bitsOf 8 s.present g).mp hm).2] at hp) id)⟩

end Sys2Proof.Commits
end

section
-- One proof after another: the check compiles the whole text in one process, and memory is short.
set_option Elab.async false
/-! Chapters 6 and 7: the matrix units, the arithmetic of their law, the waveform of a channel and its gate edges. -/

namespace Sys2Proof.Control

open Sys2Proof Sys2Proof.Machine Sys2Proof.Laws Sys2Proof.Conversion Sys2Proof.Rules

/-! Flags that set. -/

section
variable (s : State)

theorem bit_stick {a : Nat} (b : Nat) (src : Option Nat) (hs : ∀ n, src = some n → n < 128) (ha : ¬ intReg a) (hb : b < 32) :
    bit (rd (stick a (2 ^ b) src s) a) b = true := by
  rw [rd_stick s _ _ _ _ hs ha, if_pos rfl, bit_or, bit_wd _ hb, Nat.testBit_two_pow_self, Bool.or_true]

theorem rd_stick_ne {a b : Nat} (m : Nat) (src : Option Nat) (hs : ∀ n, src = some n → n < 128) (hb : ¬ intReg b) (h : b ≠ a) :
    rd (stick a m src s) b = rd s b := by rw [rd_stick s _ _ _ _ hs hb, if_neg h]

theorem regsBut_stick (a m : Nat) (src : Option Nat) (hs : ∀ n, src = some n → n < 128) :
    regsBut (fun b => b = a) s (stick a m src s) := fun _ ha hi => rd_stick_ne s m src hs hi ha

/-- A flag that sets leaves the bits that read 1. -/
theorem bit_stick_kept {a k : Nat} (m : Nat) (src : Option Nat) (hs : ∀ n, src = some n → n < 128) (b : Nat) (hb : ¬ intReg b)
    (h : bit (rd s b) k = true) : bit (rd (stick a m src s) b) k = true := by
  rw [rd_stick s _ _ _ _ hs hb]
  split
  · next e => rw [← e, bit_or, h, Bool.true_or]
  · exact h

end

/-! Matrix units. -/

theorem aMu_range (u : UnitNo) {o : Nat} (h : o < 0x10000) : 0x200000 ≤ aMu u o ∧ aMu u o < 0x300000 := by
  have := u.isLt
  unfold aMu
  lia

theorem not_intReg_aMu (u : UnitNo) {o : Nat} (h : o < 0x10000) : ¬ intReg (aMu u o) := by
  have := aMu_range u h
  exact not_intReg_of_between (by lia) (by lia)

section
variable (s : State)

theorem munit_of_units {s t : State} (h : t.units = s.units) (v : Nat) : munit t v = munit s v := by rw [munit, h, munit]

theorem muStick_src (u : UnitNo) : ∀ n, some (86 + u.val) = some n → n < 128 := by
  intro n h
  have := u.isLt
  cases h
  lia

/-- A unit's flag that sets where it has a reason to. -/
noncomputable def muNote (u b k : Nat) (s : State) : State := if k = 0 then s else muStick u b s

theorem muNote_units (u b k : Nat) : (muNote u b k s).units = s.units :=
  holds_if (P := fun t => t.units = s.units) (fun _ => rfl) (fun _ => kept_muStick (kept_same .units rfl s) u b s rfl)

theorem regsBut_muNote (u : UnitNo) (b k : Nat) : regsBut (fun a => a = aMu u 0x0C) s (muNote u b k s) :=
  holds_if (P := regsBut _ s) (fun _ => regsBut_refl s _) (fun _ => regsBut_stick s _ _ _ (muStick_src u))

theorem bit_muNote (u : UnitNo) {b k : Nat} (hb : b < 32) (hk : k ≠ 0) : bit (rd (muNote u b k s) (aMu u 0x0C)) b = true := by
  rw [muNote, if_neg hk]
  exact bit_stick s b _ (muStick_src u) (not_intReg_aMu u (by decide)) hb

theorem bit_muNote_kept (u : UnitNo) (b k : Nat) {i : Nat} (h : bit (rd s (aMu u 0x0C)) i = true) :
    bit (rd (muNote u b k s) (aMu u 0x0C)) i = true :=
  holds_if (P := fun t => bit (rd t (aMu u 0x0C)) i = true) (fun _ => h)
    (fun _ => bit_stick_kept s _ _ (muStick_src u) _ (not_intReg_aMu u (by decide)) h)

theorem muNote_zero (u b : Nat) : muNote u b 0 s = s := if_pos rfl

/-- Unit u with the result r of its law evaluation. -/
noncomputable def muResult (u : Nat) (r : Tbl Int × Tbl Int × Nat × Nat) (s : State) : State :=
  modUnit u (fun x => { x with busy := false, ready := some r, satTotal := x.satTotal + r.2.2.1,
                               limitTotal := x.limitTotal + r.2.2.2 }) s

/-- Unit u completes with the result r: its state, its flags, and what the histogram engines take. -/
noncomputable def muEnd (u : Nat) (r : Tbl Int × Tbl Int × Nat × Nat) (s : State) : State :=
  histFeed 3 u (munit s u).slack (histFeed 2 u (computeCyc (unitCfg s u))
    (muNote u 4 r.2.2.2 (muNote u 0 r.2.2.1 (muResult u r s))))

theorem doMuDone_of_busy {u : Nat} (h : (munit s u).busy = true) :
    doMuDone u s = muEnd u (lawStep (lawOf s u) (munit s u).x (munit s u).u (munit s u).ins) s := if_pos h

/-- The histogram engines that take a value leave every register but MON_STICKY. -/
theorem rd_histFeed_aMu (src i : Nat) (v : Int) (u : UnitNo) : rd (histFeed src i v s) (aMu u 0x0C) = rd s (aMu u 0x0C) :=
  rd_histFeed s src i v _ (by have := aMu_range u (o := 0x0C) (by decide); unfold aMonSticky; lia)
    (not_intReg_aMu u (by decide))

theorem histFeed_units (src i : Nat) (v : Int) : (histFeed src i v s).units = s.units :=
  kept_histFeed (kept_same .units rfl s) src i v s rfl

theorem regsBut_histFeed (src i : Nat) (v : Int) : regsBut (fun a => a = aMonSticky) s (histFeed src i v s) :=
  fun a ha hi => rd_histFeed s src i v a ha hi

section
variable (u : UnitNo) (r : Tbl Int × Tbl Int × Nat × Nat)

theorem muEnd_units : (muEnd u r s).units = (muResult u r s).units := by
  rw [muEnd, histFeed_units, histFeed_units, muNote_units, muNote_units]

theorem rd_muEnd_flags : rd (muEnd u r s) (aMu u 0x0C) =
    rd (muNote u 4 r.2.2.2 (muNote u 0 r.2.2.1 (muResult u r s))) (aMu u 0x0C) := by
  rw [muEnd, rd_histFeed_aMu, rd_histFeed_aMu]

theorem regsBut_muEnd : regsBut (fun a => a = aMu u 0x0C ∨ a = aMonSticky) s (muEnd u r s) := by
  have hnote : regsBut (fun a => a = aMu u 0x0C) s (muNote u 4 r.2.2.2 (muNote u 0 r.2.2.1 (muResult u r s))) :=
    regsBut_trans (regsBut_of_regs s (t := muResult u r s) _ rfl) (regsBut_trans (regsBut_muNote _ u 0 _) (regsBut_muNote _ u 4 _))
  have hfeed : ∀ t src i v, regsBut (fun a => a = aMu u 0x0C ∨ a = aMonSticky) t (histFeed src i v t) :=
    fun t src i v => regsBut_mono (regsBut_histFeed t src i v) (fun _ h => .inr h)
  exact regsBut_trans (regsBut_mono hnote (fun _ h => .inl h)) (regsBut_trans (hfeed _ _ _ _) (hfeed _ _ _ _))

end

end

/-! The copy of a coefficient bank. -/

/-- One word of the copy: staging takes the word in force, unless the host has written it since or a cutoff has taken it in. -/
noncomputable def copyWord (taken : List Nat) (a : Nat) (s : State) : State :=
  if rd s a = fo s a ∨ s.dirty.contains a = true ∨ taken.contains a = true then s else wr a (fo s a) s

theorem copyWord_force (taken : List Nat) (a : Nat) (s : State) : (copyWord taken a s).force = s.force :=
  holds_if (P := fun t => t.force = s.force) (fun _ => rfl) (fun _ => rfl)

theorem copyWord_dirty (taken : List Nat) (a : Nat) (s : State) : (copyWord taken a s).dirty = s.dirty :=
  holds_if (P := fun t => t.dirty = s.dirty) (fun _ => rfl) (fun _ => rfl)

theorem rd_copyWord_ne (taken : List Nat) {a b : Nat} (h : b ≠ a) (s : State) : rd (copyWord taken a s) b = rd s b :=
  holds_if (P := fun t => rd t b = rd s b) (fun _ => rfl) (fun _ => rd_wr_ne _ _ h)

theorem rd_copyWord_self (taken : List Nat) (a : Nat) (s : State) :
    rd (copyWord taken a s) a = if s.dirty.contains a ∨ taken.contains a then rd s a else fo s a := by
  unfold copyWord
  by_cases hk : s.dirty.contains a = true ∨ taken.contains a = true
  · rw [if_pos (.inr hk), if_pos hk]
  · rw [if_neg hk]
    split
    · next h => exact h.resolve_right hk
    · exact rd_wr_self ..

theorem rd_copyAll (taken l : List Nat) (b : Nat) (s : State) : rd (forEach l (copyWord taken) s) b =
    if b ∈ l then (if s.dirty.contains b ∨ taken.contains b then rd s b else fo s b) else rd s b := by
  induction l generalizing s with
  | nil => rfl
  | cons a l ih =>
    refine (ih (copyWord taken a s)).trans ?_
    rw [copyWord_dirty, fo_of_force (copyWord_force ..)]
    by_cases hb : b = a
    · subst hb
      rw [rd_copyWord_self, if_pos (List.mem_cons_self ..)]
      split_ifs <;> rfl
    · simp only [rd_copyWord_ne taken hb, List.mem_cons, hb, false_or]

theorem copyAll_units (taken l : List Nat) (s : State) : (forEach l (copyWord taken) s).units = s.units :=
  holds_forEach (P := fun t => t.units = s.units) (copyWord taken)
    (fun _ _ h => holds_if (P := fun t => t.units = s.units) (fun _ => h) (fun _ => h)) l s rfl

/-- The words of unit u's bank that a cutoff has taken in for the coming boundary. -/
noncomputable def takenWords (s : State) (u : Nat) : List Nat :=
  match unitGroup s u with
  | some g => (group s g).takenRegs.map (fun (p : Nat × Word) => p.1)
  | none => []

theorem doCoefCopyDone_of_copying {u : Nat} {s : State} (h : (munit s u).copying = true) : doCoefCopyDone u s =
    modUnit u (fun x => { x with copying := false }) (forEach (coefAddrs u) (copyWord (takenWords s u)) s) := if_pos h

theorem mem_takenWords {s : State} {u g : Nat} (h : unitGroup s u = some g) (a : Nat) :
    a ∈ takenWords s u ↔ a ∈ (group s g).takenRegs.map Prod.fst := by
  rw [takenWords, h]

theorem takenWords_of_none {s : State} {u : Nat} (h : unitGroup s u = none) : takenWords s u = [] := by rw [takenWords, h]

theorem doMuStart_of_due {u g : Nat} {s : State} (hg : unitGroup s u = some g) (hc : unitComputes s u = true)
    (hcut : (group s g).cut = false) (hr : (munit s u).ready = none) :
    doMuStart u s = modUnit u (fun x => { x with busy := true }) s := by
  simp [doMuStart, hg, hc, hcut, hr]

/-- Settles O13, command by command: start, completion, end of a copy. -/
theorem matrixUnit : Obligations.MatrixUnit := by
  refine ⟨fun u g s hg hc hcut hr => ⟨_, rfl, ?_⟩, fun u s hb => ⟨_, rfl, ?_⟩, fun u s hc => ⟨_, rfl, ?_⟩⟩
  · have frame := exec_unchangedBut (.muComputeStart u) s _ rfl
    rw [doMuStart_of_due hg hc hcut hr] at frame ⊢
    exact ⟨munit_modUnit_self .., fun v hv => munit_modUnit_ne s _ hv, frame⟩
  · have frame := exec_unchangedBut (.muComputeDone u) s _ rfl
    rw [doMuDone_of_busy s hb] at frame ⊢
    refine ⟨⟨?_, fun h0 => ?_, fun h4 => ?_, fun h0 h4 => ?_⟩, fun v hv => ?_, regsBut_muEnd s u _, frame⟩
    · rw [munit_of_units (muEnd_units ..)]
      exact munit_modUnit_self ..
    · rw [rd_muEnd_flags]
      exact bit_muNote_kept _ u 4 _ (bit_muNote _ u (by decide) h0)
    · rw [rd_muEnd_flags]
      exact bit_muNote _ u (by decide) h4
    · rw [rd_muEnd_flags, h0, h4, muNote_zero, muNote_zero]
      rfl
    · rw [munit_of_units (muEnd_units ..)]
      exact munit_modUnit_ne s _ hv
  · have frame := exec_unchangedBut (.coefCopyDone u) s _ rfl
    rw [doCoefCopyDone_of_copying hc] at frame ⊢
    have hrd : ∀ a, rd (modUnit u (fun x => { x with copying := false }) (forEach (coefAddrs u) (copyWord (takenWords s u)) s)) a
        = if a ∈ coefAddrs u then (if s.dirty.contains a ∨ (takenWords s u).contains a then rd s a else fo s a) else rd s a :=
      fun a => (rd_modUnit _ _ _ a).trans (rd_copyAll (takenWords s u) (coefAddrs u) a s)
    refine ⟨?_, fun v hv => ?_, fun a ha hn => ?_, fun a g hg ha => ?_, fun a ha => (hrd a).trans (if_neg ha), frame⟩
    · rw [munit_modUnit_self, munit_of_units (copyAll_units ..)]
    · rw [munit_modUnit_ne _ _ hv, munit_of_units (copyAll_units ..)]
    · have hnt : a ∉ takenWords s u := by
        cases hg : unitGroup s u with
        | none => simp [takenWords_of_none hg]
        | some g => exact fun hm => hn g hg ((mem_takenWords hg a).mp hm)
      rw [hrd, if_pos ha]
      simp [hnt]
    · have ht : a ∈ takenWords s u := (mem_takenWords hg a).mpr ha
      rw [hrd]
      simp [ht]

/-! The arithmetic of the law (R193). -/

/-- Rounding to nearest, halves upwards: the quotient of v + m by 2·m. -/
theorem round_bounds (v m : Int) (hm : 0 < m) :
    (v + m) / (2 * m) * (2 * m) * 2 ≤ 2 * v + 2 * m ∧ 2 * v + 2 * m < ((v + m) / (2 * m) + 1) * (2 * m) * 2 := by
  have h1 := Int.mul_ediv_add_emod (v + m) (2 * m)
  have h2 := Int.emod_nonneg (v + m) (show 2 * m ≠ 0 by lia)
  have h3 := Int.emod_lt_of_pos (v + m) (show 0 < 2 * m by lia)
  constructor <;> nlinarith

/-- Settles O14: the shift by sh rounds with half of 2 ^ sh. -/
theorem lawArithmetic : Obligations.LawArithmetic := by
  refine ⟨fun c v sh => ?_, fun v => ?_⟩
  · cases sh with
    | zero => exact .inr ⟨rfl, by simp [term]⟩
    | succ n =>
      have h := round_bounds (c * v) (2 ^ n) (by positivity)
      rw [term, if_neg (Nat.succ_ne_zero n), Nat.add_sub_cancel, pow_succ']
      exact .inl h
  · unfold sat32 clampI
    lia

/-! The waveform of a channel (R161, R164, R168). -/

theorem chanOn_whole (saw : Bool) (p c phase : Nat) (hc : c ≠ 0) (hp : p ≤ c) : chanOn saw p c phase = [(0, 16 * p)] := by
  simp [chanOn, hc, hp]

/-- A channel that is neither off nor on throughout: one interval of c steps, or the two parts of one that runs over the end. -/
theorem chanOn_part (saw : Bool) (p c phase : Nat) (hc : c ≠ 0) (hp : c < p) :
    ∃ a, a < 16 * p ∧ chanOn saw p c phase =
      if a + 16 * c ≤ 16 * p then [(a, a + 16 * c)] else [(0, a + 16 * c - 16 * p), (a, 16 * p)] := by
  refine ⟨(phiOf phase p + (if saw then 0 else 8 * (p - c))) % (16 * p), Nat.mod_lt _ (by lia), ?_⟩
  rw [chanOn, if_neg hc, if_neg (by lia)]

theorem chanOn_spec (saw : Bool) (p c phase : Nat) (h0 : 0 < p) :
    ((chanOn saw p c phase).map (fun i => i.2 - i.1)).sum = 16 * min c p
      ∧ (∀ i ∈ chanOn saw p c phase, i.1 < i.2 ∧ i.2 ≤ 16 * p)
      ∧ (chanOn saw p c phase).Pairwise (fun i j => i.2 ≤ j.1) := by
  rcases Nat.eq_zero_or_pos c with rfl | hc
  · simp [chanOn]
  rcases Nat.lt_or_ge c p with hp | hp
  · obtain ⟨a, ha, e⟩ := chanOn_part saw p c phase (by lia) hp
    rw [e]
    split
    · refine ⟨?_, ?_, ?_⟩ <;> simp <;> lia
    · refine ⟨?_, ?_, ?_⟩ <;> simp <;> lia
  · rw [chanOn_whole saw p c phase (by lia) hp]
    refine ⟨?_, ?_, ?_⟩ <;> simp <;> lia

/-! Gate edges (R90, R99, R165, R167). -/

/-- A pair but for what blanking holds. -/
noncomputable def pairCore (x : Pair) : Pair := { x with blanking := false, pendingX := none }

theorem of_pairCore {x y : Pair} (h : pairCore x = pairCore y) : x.cmdH = y.cmdH ∧ x.cmdL = y.cmdL ∧ x.sched = y.sched
    ∧ x.outH = y.outH ∧ x.outL = y.outL := by
  simpa [pairCore] using congrArg (fun z : Pair => (z.cmdH, z.cmdL, z.sched, z.outH, z.outL)) h

theorem pair_of_mod {s t : State} (h : t.mod = s.mod) (q : Nat) : pair t q = pair s q := by rw [pair, h, pair]

theorem blankDrop_core (p : Nat) (s : State) (q : Nat) : pairCore (pair (blankDrop p s) q) = pairCore (pair s q) := by
  have h1 : pair (onlyIf (pair s p).pendingX.isSome (cntSat aBlankPendCnt 1) s) q = pair s q :=
    pair_of_mod (kept_onlyIf (kept_same .mod rfl s) _ (cntSat aBlankPendCnt 1) s (fun _ h => h) rfl) q
  by_cases hq : q = p
  · subst hq
    rw [blankDrop, pair_modPair_self, h1]
    rfl
  · rw [blankDrop, pair_modPair_ne _ _ hq, h1]

theorem regsBut_blankDrop (p : Nat) (s : State) : regsBut (fun a => a = aBlankPendCnt) s (blankDrop p s) :=
  holds_if (P := regsBut _ s) (fun _ _ ha _ => (rd_cntSat s _ _ _).trans (if_neg ha)) (fun _ => regsBut_refl s _)

/-- Two states whose pairs differ in blanking alone, and whose registers differ in BLANK_PEND_CNT. -/
noncomputable def BlankOnly (s t : State) : Prop :=
  (∀ q, pairCore (pair t q) = pairCore (pair s q)) ∧ regsBut (fun a => a = aBlankPendCnt) s t

/-- Blanking that ends changes nothing else of any pair, and counts in BLANK_PEND_CNT. -/
theorem settleBlank_spec (s : State) : BlankOnly s (settleBlank s) :=
  holds_forEach (P := BlankOnly s) _
    (fun p t h => holds_if (P := BlankOnly s)
      (fun _ => ⟨fun q => (blankDrop_core p t q).trans (h.1 q), regsBut_trans h.2 (regsBut_blankDrop p t)⟩) (fun _ => h))
    _ s ⟨fun _ => rfl, regsBut_refl s _⟩

/-- The commands of a pair after one side takes a level. -/
noncomputable def levelled (high level : Bool) (t : Int) (x : Pair) : Pair :=
  let h := if high then level else x.cmdH
  let l := if high then x.cmdL else level
  { x with cmdH := h, cmdL := l, off := if h || l then none else if level then x.off else some (high, t) }

theorem pairLevel_spec (p : Nat) (high level : Bool) (t : Int) (s : State) :
    BlankOnly (modPair p (levelled high level t) s) (pairLevel p high level t s) := by
  have hb : ∀ c : Bool, BlankOnly (modPair p (levelled high level t) s)
      (if c then modPair p (fun x => { x with blanking := true }) (modPair p (levelled high level t) s)
       else modPair p (levelled high level t) s) := fun c => by
    refine holds_if (P := BlankOnly _) (fun _ => ⟨fun q => ?_, regsBut_of_regs _ _ rfl⟩) (fun _ => ⟨fun _ => rfl, regsBut_refl _ _⟩)
    by_cases hq : q = p
    · subst hq
      rw [pair_modPair_self]
      rfl
    · rw [pair_modPair_ne _ _ hq]
  have hs := settleBlank_spec
  obtain ⟨h1, h2⟩ := hb (!(if high then ghLevel s p else glLevel s p) &&
    (if high then ghLevel (modPair p (levelled high level t) s) p else glLevel (modPair p (levelled high level t) s) p))
  obtain ⟨h3, h4⟩ := hs _
  exact ⟨fun q => (h3 q).trans (h1 q), regsBut_trans h2 h4⟩

theorem doGateEdge_of_some {p : Nat} {high : Bool} {e : Edge} {r : List Edge} {s : State}
    (h : takeEdge high (pair s p).sched = some (e, r)) : doGateEdge p high s = pairLevel p high e.level e.time
      (modPair p (fun x => { x with sched := r, outH := if high then genOut s p e else x.outH,
                                    outL := if high then x.outL else genOut s p e }) s) := by
  simp only [doGateEdge, h]

/-- The second clause of O15. -/
theorem gateEdge_spec (p : PairNo) (high : Bool) (e : Edge) (r : List Edge) (s : State)
    (h : takeEdge high (pair s p).sched = some (e, r)) : ∃ t, exec (.gateEdge p high) s = .next t ∧ (pair t p).sched = r
      ∧ (pair t p).cmdH = (if high then e.level else (pair s p).cmdH)
      ∧ (pair t p).cmdL = (if high then (pair s p).cmdL else e.level)
      ∧ (pair t p).outH = (if high then genOut s p e else (pair s p).outH)
      ∧ (pair t p).outL = (if high then (pair s p).outL else genOut s p e)
      ∧ (∀ q, q ≠ p.val → (pair t q).cmdH = (pair s q).cmdH ∧ (pair t q).cmdL = (pair s q).cmdL
          ∧ (pair t q).sched = (pair s q).sched)
      ∧ regsBut (fun a => a = aBlankPendCnt) s t ∧ unchangedBut [.regs, .events, .mod] s t := by
  refine ⟨_, rfl, ?_⟩
  have frame := exec_unchangedBut (.gateEdge p high) s _ rfl
  rw [doGateEdge_of_some h] at frame ⊢
  obtain ⟨hcore, hregs⟩ := pairLevel_spec p high e.level e.time
    (modPair p (fun x => { x with sched := r, outH := if high then genOut s p e else x.outH,
                                  outL := if high then x.outL else genOut s p e }) s)
  obtain ⟨hH, hL, hsched, houtH, houtL⟩ := of_pairCore (hcore p)
  rw [pair_modPair_self, pair_modPair_self] at hH hL hsched houtH houtL
  refine ⟨hsched, hH, hL, houtH, houtL, fun q hq => ?_, regsBut_trans (regsBut_of_regs s _ rfl) hregs, frame⟩
  obtain ⟨hqH, hqL, hqs, -, -⟩ := of_pairCore (hcore q)
  rw [pair_modPair_ne _ _ hq, pair_modPair_ne _ _ hq] at hqH hqL hqs
  exact ⟨hqH, hqL, hqs⟩

/-- Settles O15, from the intervals of a channel and the effect of one gate edge. -/
theorem channelWaveform : Obligations.ChannelWaveform :=
  ⟨fun saw p c phase h => chanOn_spec saw p c phase h, gateEdge_spec⟩

end Sys2Proof.Control
end

section
-- One proof after another: the check compiles the whole text in one process, and memory is short.
set_option Elab.async false
/-! Chapter 4: phase sweeps, marker lock, bring-up and the errors of the receive path of a link. -/

namespace Sys2Proof.Links

open Sys2Proof Sys2Proof.Machine Sys2Proof.Laws Sys2Proof.Conversion Sys2Proof.Rules Sys2Proof.Control

/-- A property of one field set, kept by the updates of these fields. -/
theorem keptBut (l : List Part) (s : State) : Kept l (unchangedBut l s) := (kept_unchangedBut l s).toKeptDev.toKept

/-! The eye of a sweep (R106). -/

section
variable (eye : BitVec 64)

theorem spanAt_le (i n : Nat) : spanAt eye i n ≤ n := by
  induction n generalizing i with
  | zero => exact Nat.le_refl 0
  | succ n ih =>
    unfold spanAt
    split
    · have := ih (i + 1)
      lia
    · lia

/-- The steps of a span are open. -/
theorem open_spanAt (i n k : Nat) (h : k < spanAt eye i n) : eye.getLsbD ((i + k) % 64) = true := by
  induction n generalizing i k with
  | zero => simp [spanAt] at h
  | succ n ih =>
    unfold spanAt at h
    split at h
    · next ho =>
      cases k with
      | zero => exact ho
      | succ k =>
        have := ih (i + 1) k (by lia)
        rwa [show i + (k + 1) = i + 1 + k by lia]
    · lia

/-- A run of open steps is no longer than the span that begins with it. -/
theorem le_spanAt (i n w : Nat) (hw : w ≤ n) (h : ∀ k, k < w → eye.getLsbD ((i + k) % 64) = true) : w ≤ spanAt eye i n := by
  induction n generalizing i w with
  | zero => lia
  | succ n ih =>
    cases w with
    | zero => lia
    | succ w =>
      unfold spanAt
      rw [if_pos (by simpa using h 0 (by lia))]
      have := ih (i + 1) w (by lia) (fun k hk => by
        have := h (k + 1) (by lia)
        rwa [show i + (k + 1) = i + 1 + k by lia] at this)
      lia

/-- One step of the search for the widest span. -/
noncomputable def wider (a : Nat × Nat) (i : Nat) : Nat × Nat := if a.2 < spanAt eye i 64 then (i, spanAt eye i 64) else a

/-- The search keeps a span of the eye, and it is as wide as every span that it has seen. -/
theorem foldl_wider (l : List Nat) (a : Nat × Nat) (ha : a.2 = 0 ∨ a.2 = spanAt eye a.1 64) :
    ((l.foldl (wider eye) a).2 = 0 ∨ (l.foldl (wider eye) a).2 = spanAt eye (l.foldl (wider eye) a).1 64)
    ∧ a.2 ≤ (l.foldl (wider eye) a).2 ∧ ∀ i ∈ l, spanAt eye i 64 ≤ (l.foldl (wider eye) a).2 := by
  induction l generalizing a with
  | nil => exact ⟨ha, Nat.le_refl _, by simp⟩
  | cons b l ih =>
    have hb : (wider eye a b).2 = 0 ∨ (wider eye a b).2 = spanAt eye (wider eye a b).1 64 := by
      unfold wider
      split
      · exact .inr rfl
      · exact ha
    have hmax : a.2 ≤ (wider eye a b).2 ∧ spanAt eye b 64 ≤ (wider eye a b).2 := by
      unfold wider
      split <;> constructor <;> lia
    obtain ⟨h1, h2, h3⟩ := ih (wider eye a b) hb
    refine ⟨h1, hmax.1.trans h2, fun i hi => ?_⟩
    rcases List.mem_cons.mp hi with rfl | hi
    · exact hmax.2.trans h2
    · exact h3 i hi

theorem eyeOf_spec : (∃ b, (∀ i, i < (eyeOf eye).1 → eye.getLsbD ((b + i) % 64) = true)
      ∧ (eyeOf eye).2 = (b + (eyeOf eye).1 / 2) % 64)
    ∧ ∀ b w, b < 64 → w ≤ 64 → (∀ i, i < w → eye.getLsbD ((b + i) % 64) = true) → w ≤ (eyeOf eye).1 := by
  obtain ⟨hspan, -, hmax⟩ := foldl_wider eye (List.range 64) (0, 0) (.inl rfl)
  refine ⟨⟨(widestSpan eye).1, fun i hi => ?_, rfl⟩, fun b w hb hw ho => ?_⟩
  · rcases hspan with h | h
    · exact absurd hi (by rw [show (eyeOf eye).1 = 0 from h]; lia)
    · exact open_spanAt eye _ 64 i (h ▸ hi)
  · exact (le_spanAt eye b 64 w hw ho).trans (hmax b (List.mem_range.mpr hb))

end

/-! The steps of bring-up (R120 to R122): each changes its link alone. -/

/-- Every link but l is as it was. -/
noncomputable def Others (l : Nat) (s t : State) : Prop := ∀ k, k ≠ l → link t k = link s k

theorem others_refl (l : Nat) (s : State) : Others l s s := fun _ _ => rfl

theorem others_trans {l : Nat} {s t u : State} (h : Others l s t) (h' : Others l t u) : Others l s u :=
  fun k hk => (h' k hk).trans (h k hk)

theorem others_modLink (l : Nat) (f : Link → Link) (s : State) : Others l s (modLink l f s) := fun _ hk => link_modLink_ne s f hk

theorem link_of_links {s t : State} (h : t.links = s.links) (k : Nat) : link t k = link s k := by rw [link, h, link]

theorem others_of_links {l : Nat} {s t : State} (h : t.links = s.links) : Others l s t := fun k _ => link_of_links h k

section
variable (l : Nat) (s : State)

/-- A link at the beginning of a CHECK window; fresh: it has not been in CHECK. -/
noncomputable def checked (fresh : Bool) (x : Link) : Link := { x with
  st := .check, stage := .idle, checkErr := 0, checkBits := 0, checkOn := false, checkTail := none, fbClean := 0
  frames := if fresh then 0 else x.frames, ownCheck := !fresh && x.ownCheck, countdown := none }

theorem startCheck_eq : startCheck l s =
    if (link s l).st != .check then setPrbsBits l 0 (modLink l (checked ((link s l).st != .check)) s)
    else modLink l (checked ((link s l).st != .check)) s := rfl

theorem setPrbsBits_links (n : Nat) : (setPrbsBits l n s).links = s.links := rfl

theorem others_linkFail (c : FailCode) : Others l s (linkFail c l s) := others_modLink l _ s

theorem others_startSwitch (r : Nat) : Others l s (startSwitch l r s) := others_modLink l _ s

theorem others_enterLinked (b : Bool) : Others l s (enterLinked b l s) := others_modLink l _ s

theorem startCheck_links : (startCheck l s).links = (modLink l (checked ((link s l).st != .check)) s).links := by
  rw [startCheck_eq]
  split <;> rfl

theorem others_startCheck : Others l s (startCheck l s) :=
  others_trans (others_modLink l _ s) (others_of_links (startCheck_links l s))

theorem others_fallBack (b : Bool) : Others l s (fallBack b l s) := by
  unfold fallBack
  dsimp only
  refine others_trans (others_modLink l (fun x => { x with fallback := true, tries := 0 }) s) ?_
  refine ite_elim (fun _ => others_trans (others_startCheck l _) (others_modLink l _ _)) (fun _ => ?_)
  exact ite_elim (fun _ => others_startSwitch l _ _) (fun _ => others_trans (others_startSwitch l _ _) (others_modLink l _ _))

theorem others_switchFail (c : FailCode) : Others l s (switchFail c l s) := by
  unfold switchFail
  refine ite_elim (fun _ => others_linkFail l s _) (fun _ => ite_elim (fun _ => ?_) (fun _ => ?_))
  · exact others_trans (others_modLink l _ s) (others_startSwitch l _ _)
  · exact ite_elim (fun _ => others_linkFail l s _) (fun _ => others_fallBack l s _)

theorem link_linkFail (c : FailCode) : link (linkFail c l s) l = { link s l with
    st := .failed, fail := c, stage := .idle, upLock := false, dck := false, frame := []
    txBlock := false, stopDue := false, checkOn := false, fallback := false } := link_modLink_self ..

theorem link_startSwitch (r : Nat) : link (startSwitch l r s) l = { link s l with
    st := .rateSwitch, stage := .request, target := r, checkOn := false, frames := 0, countdown := none } := link_modLink_self ..

theorem link_startCheck : link (startCheck l s) l = checked ((link s l).st != .check) (link s l) :=
  (link_of_links (startCheck_links l s) l).trans (link_modLink_self ..)

/-! What these steps keep. -/

variable {P : State → Prop}

theorem kept_linkFail' (k : Kept [.links] P) (c : FailCode) (h : Holds P s) : Holds P (linkFail c l s) := kept_modLink k l _ s h

theorem kept_startCheck' (k : Kept [.regs, .links] P) (h : Holds P s) : Holds P (startCheck l s) := by
  have kl : Kept [.links] P := k.mono (by decide)
  have kr : Kept [.regs] P := k.mono (by decide)
  rw [startCheck_eq]
  have h1 := kept_modLink kl l (checked ((link s l).st != .check)) s h
  exact holds_if (fun _ => kept_wr kr _ _ _ (kept_wr kr _ _ _ h1)) (fun _ => h1)

theorem kept_startSwitch' (k : Kept [.links] P) (r : Nat) (h : Holds P s) : Holds P (startSwitch l r s) := kept_modLink k l _ s h

theorem kept_fallBack' (k : Kept [.regs, .links] P) (b : Bool) (h : Holds P s) : Holds P (fallBack b l s) := by
  have kl : Kept [.links] P := k.mono (by decide)
  have h1 := kept_modLink kl l (fun x => { x with fallback := true, tries := 0 }) s h
  exact holds_if (fun _ => kept_modLink kl _ _ _ (kept_startCheck' l _ k h1)) (fun _ => holds_if
    (fun _ => kept_startSwitch' l _ kl _ h1) (fun _ => kept_modLink kl _ _ _ (kept_startSwitch' l _ kl _ h1)))

theorem kept_switchFail' (k : Kept [.regs, .links] P) (c : FailCode) (h : Holds P s) : Holds P (switchFail c l s) := by
  have kl : Kept [.links] P := k.mono (by decide)
  exact holds_if (fun _ => kept_linkFail' l s kl _ h) (fun _ => holds_if
    (fun _ => kept_startSwitch' l _ kl _ (kept_modLink kl _ _ _ h))
    (fun _ => holds_if (fun _ => kept_linkFail' l s kl _ h) (fun _ => kept_fallBack' l s k _ h)))

/-! A failed switch (R122). -/

variable {l s}

theorem switchFail_of_fallback {c : FailCode} (h : (link s l).fallback = true) : switchFail c l s = linkFail .ber l s := if_pos h

theorem switchFail_of_retry {c : FailCode} (h : (link s l).fallback = false) (ht : (link s l).tries < retries s l) :
    link (switchFail c l s) l = { link s l with
      st := .rateSwitch, stage := .request, target := (link s l).target, checkOn := false, frames := 0, countdown := none
      tries := (link s l).tries + 1, rate := (link s l).goodRate.getD 0 } := by
  simp only [switchFail, h, Bool.false_eq_true, if_false, if_pos ht, link_startSwitch, link_modLink_self]

theorem switchFail_of_zero {c : FailCode} (h : (link s l).fallback = false) (ht : retries s l ≤ (link s l).tries)
    (hg : (link s l).goodRate.getD 0 = 0) : switchFail c l s = linkFail c l s := by
  simp only [switchFail, h, Bool.false_eq_true, if_false, if_neg (Nat.not_lt.mpr ht), if_pos hg]

theorem switchFail_of_good {c : FailCode} (h : (link s l).fallback = false) (ht : retries s l ≤ (link s l).tries)
    (hg : (link s l).goodRate.getD 0 ≠ 0) (hr : (link s l).rate = (link s l).goodRate.getD 0) :
    (link (switchFail c l s) l).fallback = true ∧ (link (switchFail c l s) l).st = .check := by
  simp only [switchFail, h, Bool.false_eq_true, if_false, if_neg (Nat.not_lt.mpr ht), if_neg hg, fallBack, if_pos hr,
    link_modLink_self, link_startCheck, checked, and_self]

end

end Sys2Proof.Links
end

section
-- One proof after another: the check compiles the whole text in one process, and memory is short.
set_option Elab.async false
/-! Chapter 4: the commands of alignment, of the receive path and of bring-up. -/

namespace Sys2Proof.Links

open Sys2Proof Sys2Proof.Machine Sys2Proof.Laws Sys2Proof.Conversion Sys2Proof.Rules Sys2Proof.Control Sys2Proof.Commits

/-- A loop over numbers that keeps a property. -/
theorem holds_forEach_mem {P : State → Prop} (f : Nat → State → State) (l : List Nat) (hl : l.Nodup)
    (hf : ∀ i s, i ∈ l → Holds P s → Holds P (f i s)) (s : State) (h : Holds P s) : Holds P (forEach l f s) :=
  forEach_inv f (fun _ => Holds P) l hl s h (fun _ i t _ hi => hf i t hi)

/-! Addresses of a link. -/

theorem aLink_range {l o : Nat} (hl : l < 38) (ho : o < 0x1000) : 0x80000 ≤ aLink l o ∧ aLink l o < 0xAA000 := by
  unfold aLink
  split <;> lia

theorem not_intReg_aLink {l o : Nat} (hl : l < 38) (ho : o < 0x1000) : ¬ intReg (aLink l o) := by
  have := aLink_range hl ho
  exact not_intReg_of_between (by lia) (by lia)

theorem aLink_inj {l k o p : Nat} (hl : l < 38) (hk : k < 38) (ho : o < 0x1000) (hp : p < 0x1000)
    (h : aLink l o = aLink k p) : l = k ∧ o = p := by
  unfold aLink at h
  split at h <;> split at h <;> lia

theorem aLink_ne {l k o p : Nat} (hl : l < 38) (hk : k < 38) (ho : o < 0x1000) (hp : p < 0x1000) (h : o ≠ p) :
    aLink l o ≠ aLink k p := fun e => h (aLink_inj hl hk ho hp e).2

theorem linkSrc_lt {l : Nat} (hl : l < 38) : ∀ n, some (linkSrc l) = some n → n < 128 := by
  intro n h
  cases h
  unfold linkSrc
  lia

section
variable (s : State)

theorem rd_ltStick_ne {l a : Nat} (b : Nat) (hl : l < 38) (hi : ¬ intReg a) (ha : a ≠ aLink l 0x10) :
    rd (ltStick l b s) a = rd s a := rd_stick_ne s _ _ (linkSrc_lt hl) hi ha

theorem bit_ltStick {l b : Nat} (hl : l < 38) (hb : b < 32) : bit (rd (ltStick l b s) (aLink l 0x10)) b = true :=
  bit_stick s b _ (linkSrc_lt hl) (not_intReg_aLink hl (by decide)) hb

theorem rd_protoStick_ne {l a : Nat} (b : Nat) (hl : l < 38) (hi : ¬ intReg a) (ha : a ≠ aLink l 0x10C) :
    rd (protoStick l b s) a = rd s a := rd_stick_ne s _ _ (linkSrc_lt hl) hi ha

theorem bit_protoStick {l b : Nat} (hl : l < 38) (hb : b < 32) : bit (rd (protoStick l b s) (aLink l 0x10C)) b = true :=
  bit_stick s b _ (linkSrc_lt hl) (not_intReg_aLink hl (by decide)) hb

theorem ltStick_links (l b : Nat) : (ltStick l b s).links = s.links := kept_ltStick (kept_same .links rfl s) l b s rfl
theorem protoStick_links (l b : Nat) : (protoStick l b s).links = s.links := kept_protoStick (kept_same .links rfl s) l b s rfl

/-! Ranges of latency (R149). -/

/-- A link but for RANGE_NOW. -/
noncomputable def rangeCore (x : Link) : Link := { x with rangeNow := false }

/-- The states that differ in RANGE_NOW and in PROTO_STICKY alone, where bits may have set. -/
structure RangeOnly (s t : State) : Prop where
  core : ∀ k, rangeCore (link t k) = rangeCore (link s k)
  regs : ∀ a, ¬ intReg a → (∀ l, l < 36 → a ≠ aLink l 0x10C) → rd t a = rd s a
  bits : ∀ a i, ¬ intReg a → bit (rd s a) i = true → bit (rd t a) i = true

theorem rangeOnly_refl : RangeOnly s s := ⟨fun _ => rfl, fun _ _ _ => rfl, fun _ _ _ h => h⟩

theorem rangeOnly_protoStick {l : Nat} (b : Nat) (hl : l < 36) : RangeOnly s (protoStick l b s) where
  core k := congrArg rangeCore (link_of_links (protoStick_links s l b) k)
  regs _ hi ha := rd_protoStick_ne s b (by lia) hi (ha l hl)
  bits _ _ hi h := bit_stick_kept s _ _ (linkSrc_lt (by lia)) _ hi h

theorem rangeOnly_setRange (l : Nat) (b : Bool) : RangeOnly s (modLink l (fun x => { x with rangeNow := b }) s) := by
  refine ⟨fun k => ?_, fun _ _ _ => rfl, fun _ _ _ h => h⟩
  by_cases hk : k = l
  · rw [hk, link_modLink_self]
    rfl
  · rw [link_modLink_ne _ _ hk]

variable {s} in
theorem rangeOnly_trans {t u : State} (h : RangeOnly s t) (h' : RangeOnly t u) : RangeOnly s u :=
  ⟨fun k => (h'.core k).trans (h.core k), fun a hi ha => (h'.regs a hi ha).trans (h.regs a hi ha),
    fun a i hi hb => h'.bits a i hi (h.bits a i hi hb)⟩

theorem rangeOnly_rangeUpdate : RangeOnly s (rangeUpdate s) := by
  refine holds_forEach_mem (P := RangeOnly s) _ _ List.nodup_range (fun l t hl h => ?_) s (rangeOnly_refl s)
  have hset : RangeOnly s (if (rangeOn s l == (link t l).rangeNow) = true then t
      else modLink l (fun x => { x with rangeNow := rangeOn s l }) t) :=
    holds_if (P := RangeOnly s) (fun _ => h) (fun _ => rangeOnly_trans h (rangeOnly_setRange t l _))
  exact holds_if (P := RangeOnly s) (fun _ => rangeOnly_trans hset (rangeOnly_protoStick _ 1 (List.mem_range.mp hl))) (fun _ => hset)

theorem rangeNow_of_core {x y : Link} (h : rangeCore x = rangeCore y) : ∃ b, x = { y with rangeNow := b } := by
  refine ⟨x.rangeNow, ?_⟩
  cases x
  cases y
  simpa [rangeCore] using h

/-- A link whose latency is no longer valid. -/
noncomputable def latInvalid (x : Link) : Link :=
  { x with latValid := false, unstableNow := false, unstableRun := 0, ests := [], echoMiss := 0 }

/-- A link after its LAT_VALID clears, if it read 1. -/
noncomputable def latOff (x : Link) : Link := if x.latValid then latInvalid x else x

theorem latOff_spec (x : Link) : (latOff x).latValid = false ∧ (latOff x).upLock = x.upLock ∧ (latOff x).markerRun = x.markerRun
    ∧ (latOff x).st = x.st ∧ (latOff x).dck = x.dck ∧ (latOff x).dU = x.dU := by
  unfold latOff
  cases h : x.latValid
  · exact ⟨h, rfl, rfl, rfl, rfl, rfl⟩
  · exact ⟨rfl, rfl, rfl, rfl, rfl, rfl⟩

/-- LAT_VALID of link l clears, with LAT_LOST where the loss was in LINKED, before the ranges are judged anew. -/
noncomputable def latDrop (lost : Bool) (l : Nat) (s : State) : State :=
  if lost && (link (modLink l latInvalid s) l).st == .linked then protoStick l 3 (modLink l latInvalid s) else modLink l latInvalid s

theorem latClear_eq (lost : Bool) (l : Nat) :
    latClear lost l s = if (link s l).latValid then rangeUpdate (latDrop lost l s) else s := rfl

theorem latDrop_links (lost : Bool) (l : Nat) : (latDrop lost l s).links = (modLink l latInvalid s).links :=
  holds_if (P := fun t => t.links = (modLink l latInvalid s).links) (fun _ => protoStick_links _ l 3) (fun _ => rfl)

/-- Link l after LAT_VALID clears, but for RANGE_NOW. -/
theorem link_latClear_self (lost : Bool) (l : Nat) : rangeCore (link (latClear lost l s) l) = rangeCore (latOff (link s l)) := by
  rw [latClear_eq, latOff]
  split
  · rw [(rangeOnly_rangeUpdate _).core, link_of_links (latDrop_links s lost l), link_modLink_self]
  · rfl

theorem link_latClear_ne (lost : Bool) {l k : Nat} (h : k ≠ l) : rangeCore (link (latClear lost l s) k) = rangeCore (link s k) := by
  rw [latClear_eq]
  split
  · rw [(rangeOnly_rangeUpdate _).core, link_of_links (latDrop_links s lost l), link_modLink_ne _ _ h]
  · rfl

theorem rd_latClear (lost : Bool) {l a : Nat} (hl : l < 38) (hi : ¬ intReg a) (ha : ∀ k, k < 38 → a ≠ aLink k 0x10C) :
    rd (latClear lost l s) a = rd s a := by
  rw [latClear_eq]
  split
  · rw [(rangeOnly_rangeUpdate _).regs a hi (fun k hk => ha k (by lia))]
    exact holds_if (P := fun t => rd t a = rd s a) (fun _ => rd_protoStick_ne _ 3 hl hi (ha l hl)) (fun _ => rfl)
  · rfl

/-- A loss in LINKED sets LAT_LOST. -/
theorem bit_latClear_lost {l : Nat} (hl : l < 38) (hv : (link s l).latValid = true) (hs : (link s l).st = .linked) :
    bit (rd (latClear true l s) (aLink l 0x10C)) 3 = true := by
  rw [latClear_eq, if_pos hv]
  refine (rangeOnly_rangeUpdate _).bits _ _ (not_intReg_aLink hl (by decide)) ?_
  rw [latDrop, if_pos (by rw [link_modLink_self]; simp [latInvalid, hs])]
  exact bit_protoStick _ hl (by decide)

end

/-! Marker lock (R108, R111). -/

/-- A receiver at marker lock, with the feed-forward ff. -/
noncomputable def locked (ff : Rat) (x : Link) : Link := { x with
  upLock := true, markerRun := 0, ebufFill := 16, lockFf := ff, everLocked := false, rxRd := none, prbsSeen := 0, fbClean := 0
  markerSeen := x.markerSeen || x.manual }

theorem lockIn_links (l : Nat) (s : State) :
    (lockIn l s).links = (modLink l (locked (feedForward s l (100 * s.tick))) s).links := by
  unfold lockIn
  dsimp only
  split <;> split <;> rfl

theorem link_lockIn (l : Nat) (s : State) : link (lockIn l s) l = locked (feedForward s l (100 * s.tick)) (link s l) :=
  (link_of_links (lockIn_links l s) l).trans (link_modLink_self ..)

theorem others_lockIn (l : Nat) (s : State) : Others l s (lockIn l s) :=
  others_trans (others_modLink l _ s) (others_of_links (lockIn_links l s))

theorem kept_lockIn' {P : State → Prop} (k : Kept [.regs, .events, .links, .gorse] P) (l : Nat) (s : State) (h : Holds P s) :
    Holds P (lockIn l s) := by
  have h1 : Holds P (if isWz l then setLive (154 + l) false s else s) :=
    holds_if (fun _ => kept_setLive (k.mono (by decide)) _ _ _ h) (fun _ => h)
  have h2 := kept_modLink (k.mono (by decide)) l (locked (feedForward s l (100 * s.tick))) _ h1
  exact holds_if (fun _ => kept_cntSat (k.mono (by decide)) _ _ _ h2) (fun _ => h2)

theorem doUpLock_of_align {l : Nat} {s : State} (hw : wzInbound s l = false) (hs : (link s l).st = .align)
    (hu : (link s l).upLock = false) (hd : (link s l).dck = true) : doUpLock l s =
      if (link s l).eyeWidth < 16 then linkFail .eyeNarrow l (lockIn l s)
      else if (link s l).fallback then modLink l (fun x => { x with fallback := true }) (startCheck l (lockIn l s))
      else modLink l (fun x => { x with st := .capExchange, stage := .idle, capRun := 0, capLast := 0, frames := 0 }) (lockIn l s) := by
  simp [doUpLock, hw, hs, hu, hd]

/-- An inbound Wozin port that answers a bring-up. -/
noncomputable def answering (x : Link) : Link := { x with dck := true, st := if x.st = .disabled ∨ x.st = .failed then .align else x.st }

theorem doUpLock_of_inbound {l : Nat} {s : State} (hw : wzInbound s l = true) (hs : (link s l).st ≠ .loopback)
    (hu : (link s l).upLock = false) : doUpLock l s = modLink l answering (lockIn l s) := by
  have hc : (wzInbound s l && (link s l).st != .loopback) = true := by simp [hw, hs]
  simp only [doUpLock, hc, hu, if_true, Bool.false_eq_true, if_false]
  rfl

theorem upLock_align (l : LinkNo) (s : State) (hw : wzInbound s l = false) (hs : (link s l).st = .align)
    (hu : (link s l).upLock = false) (hd : (link s l).dck = true) : ∃ t, exec (.upLock l) s = .next t
      ∧ ((link s l).eyeWidth < 16 → (link t l).st = .failed ∧ (link t l).fail = .eyeNarrow ∧ (link t l).dck = false)
      ∧ (16 ≤ (link s l).eyeWidth → (link t l).upLock = true ∧ (link t l).ebufFill = 16
          ∧ ((link s l).fallback = false → (link t l).st = .capExchange)
          ∧ ((link s l).fallback = true → (link t l).st = .check ∧ (link t l).fallback = true ∧ (link t l).fbClean = 0))
      ∧ (∀ k, k ≠ l.val → link t k = link s k) ∧ unchangedBut [.regs, .events, .links, .gorse] s t := by
  refine ⟨_, rfl, ?_⟩
  rw [doUpLock_of_align hw hs hu hd]
  have hk := keptBut [.regs, .events, .links, .gorse] s
  have hlock := kept_lockIn' hk l s (unchangedBut_refl _ s)
  have hne := others_lockIn l s
  split
  · next he =>
    refine ⟨fun _ => ?_, fun h => absurd he (by lia), others_trans hne (others_linkFail _ _ _),
      kept_linkFail' _ _ (hk.mono (by decide)) _ hlock⟩
    simp [link_linkFail]
  · next he =>
    refine ⟨fun h => absurd h he, fun _ => ?_, ?_, ?_⟩
    · split <;> simp [link_startCheck, link_lockIn, locked, checked, *]
    · split
      · exact others_trans hne (others_trans (others_startCheck _ _) (others_modLink _ _ _))
      · exact others_trans hne (others_modLink _ _ _)
    · exact holds_if (fun _ => kept_modLink (hk.mono (by decide)) _ _ _ (kept_startCheck' _ _ (hk.mono (by decide)) hlock))
        (fun _ => kept_modLink (hk.mono (by decide)) _ _ _ hlock)

theorem upLock_inbound (l : LinkNo) (s : State) (hw : wzInbound s l = true) (hs : (link s l).st ≠ .loopback)
    (hu : (link s l).upLock = false) :
      ∃ t, exec (.upLock l) s = .next t ∧ (link t l).upLock = true ∧ (link t l).dck = true ∧ (link t l).ebufFill = 16
      ∧ (link t l).st = (if (link s l).st = .disabled ∨ (link s l).st = .failed then .align else (link s l).st)
      ∧ (∀ k, k ≠ l.val → link t k = link s k) := by
  refine ⟨_, rfl, ?_⟩
  rw [doUpLock_of_inbound hw hs hu, link_modLink_self, link_lockIn]
  exact ⟨rfl, rfl, rfl, rfl, others_trans (others_lockIn l.val s) (others_modLink _ _ _)⟩

/-! No lock in time (R113, R122). -/

theorem alignTimeout_spec (l : LinkNo) (s : State) (hs : (link s l).st = .align) (hu : (link s l).upLock = false)
    (hm : (link s l).manual = false) : ∃ t, exec (.alignTimeout l) s = .next t
      ∧ ((link s l).stage ≠ .restarted → (link t l).st = .failed ∧ (link t l).fail = .noUpstream ∧ (link t l).dck = false)
      ∧ ((link s l).stage = .restarted → (link s l).fallback = true → (link t l).st = .failed ∧ (link t l).fail = .ber)
      ∧ ((link s l).stage = .restarted → (link s l).fallback = false → (link s l).tries < retries s l →
          (link t l).st = .rateSwitch ∧ (link t l).stage = .request ∧ (link t l).tries = (link s l).tries + 1
          ∧ (link t l).target = (link s l).target)
      ∧ ((link s l).stage = .restarted → (link s l).fallback = false → retries s l ≤ (link s l).tries →
          (link s l).goodRate.getD 0 = 0 → (link t l).st = .failed ∧ (link t l).fail = .noUpstream)
      ∧ (∀ k, k ≠ l.val → link t k = link s k) ∧ unchangedBut [.regs, .links] s t := by
  refine ⟨_, rfl, ?_⟩
  have hk := keptBut [.regs, .links] s
  rw [doAlignTimeout, if_pos ⟨hs, hu, hm⟩]
  by_cases hr : (link s l).stage = .restarted
  · rw [if_pos hr]
    refine ⟨fun h => absurd hr h, fun _ hf => ?_, fun _ hf ht => ?_, fun _ hf ht hg => ?_, others_switchFail _ _ _,
      kept_switchFail' _ _ hk _ (unchangedBut_refl _ s)⟩
    · rw [switchFail_of_fallback hf, link_linkFail]
      exact ⟨rfl, rfl⟩
    · rw [switchFail_of_retry hf ht]
      exact ⟨rfl, rfl, rfl, rfl⟩
    · rw [switchFail_of_zero hf ht hg, link_linkFail]
      exact ⟨rfl, rfl⟩
  · rw [if_neg hr]
    refine ⟨fun _ => ?_, fun h => absurd h hr, fun h => absurd h hr, fun h => absurd h hr, others_linkFail _ _ _,
      kept_linkFail' _ _ (hk.mono (by decide)) _ (unchangedBut_refl _ s)⟩
    rw [link_linkFail]
    exact ⟨rfl, rfl, rfl⟩

/-! Marker errors (R111, R113, R127, R149). -/

section
variable (n : Nat) (s : State)

theorem rd_bRise {a : Nat} (ht : ¬ tripReg a) (hi : ¬ intReg a) : rd (bRise n s) a = rd s a :=
  kb_bAssert (keptB_regs s) n none (setLive n true s) (fun _ _ _ => rfl) a ht hi

theorem linkCore_bRise (l : Nat) : linkCore (link (bRise n s) l) = linkCore (link s l) :=
  kb_bAssert (keptB_links s) n none (setLive n true s) (fun _ => rfl) l

theorem linkCore_wzLinkRise (l k : Nat) : linkCore (link (wzLinkRise l s) k) = linkCore (link s k) :=
  holds_if (P := fun t => linkCore (link t k) = linkCore (link s k)) (fun _ => linkCore_bRise _ s k) (fun _ => rfl)

theorem rd_wzLinkRise (l : Nat) {a : Nat} (ht : ¬ tripReg a) (hi : ¬ intReg a) : rd (wzLinkRise l s) a = rd s a :=
  holds_if (P := fun t => rd t a = rd s a) (fun _ => rd_bRise _ s ht hi) (fun _ => rfl)

end

theorem not_tripReg_aLink {l o : Nat} (hl : l < 38) (ho : o < 0x1000) : ¬ tripReg (aLink l o) := by
  have := aLink_range hl ho
  unfold tripReg aGorseSticky aModSticky aTripCnt aBlankPendCnt aXchkCnt
  lia

theorem of_linkCore {x y : Link} (h : linkCore x = linkCore y) : x.upLock = y.upLock ∧ x.markerRun = y.markerRun
    ∧ x.latValid = y.latValid ∧ x.st = y.st ∧ x.dck = y.dck := by
  simpa [linkCore] using congrArg (fun z : Link => (z.upLock, z.markerRun, z.latValid, z.st, z.dck)) h

theorem of_rangeCore {x y : Link} (h : rangeCore x = rangeCore y) : x.upLock = y.upLock ∧ x.markerRun = y.markerRun
    ∧ x.latValid = y.latValid ∧ x.st = y.st ∧ x.dck = y.dck := by
  simpa [rangeCore] using congrArg (fun z : Link => (z.upLock, z.markerRun, z.latValid, z.st, z.dck)) h

/-- MARKER_SEEN touches the link alone. -/
theorem link_markerMark (l : Nat) (b : Bool) (s : State) :
    ∃ m, link (markerMark l b s) l = { link s l with markerSeen := m } := by
  unfold markerMark
  split
  · exact ⟨b, link_modLink_self ..⟩
  · exact ⟨_, rfl⟩

theorem rd_markerMark (l : Nat) (b : Bool) (s : State) (a : Nat) : rd (markerMark l b s) a = rd s a :=
  holds_if (P := fun t => rd t a = rd s a) (fun _ => rfl) (fun _ => rfl)

/-- A marker error that counts. -/
noncomputable def markerCount (l : Nat) (s : State) : State :=
  modLink l (fun x => { x with markerRun := x.markerRun + 1 }) (cntSat (aLink l 0x2C) 1 s)

/-- The fourth marker error in a row drops the lock. -/
noncomputable def markerDrop (l : Nat) (s : State) : State :=
  modLink l (fun x => { x with upLock := false, everLocked := true, markerRun := 0 }) (markerCount l s)

theorem link_markerDrop (l : Nat) (s : State) :
    (link (markerDrop l s) l).upLock = false ∧ (link (markerDrop l s) l).markerRun = 0 := by
  rw [markerDrop, link_modLink_self]
  exact ⟨rfl, rfl⟩

theorem rd_markerDrop (l : Nat) (s : State) (a : Nat) : rd (markerDrop l s) a = rd (markerCount l s) a :=
  rd_modLink ..

theorem doMarkerErr_of_locked {l : Nat} {s : State} (hu : (link s l).upLock = true)
    (hd : (link s l).dck = true ∨ (link s l).st = .loopback) : ∃ b, doMarkerErr l s =
      if 4 ≤ (link s l).markerRun + 1 then
        wzLinkRise l (latClear true l (ltStick l 0 (markerDrop l (markerMark l b s))))
      else markerCount l (markerMark l b s) := by
  refine ⟨false, ?_⟩
  obtain ⟨m, hm⟩ := link_markerMark l false s
  have hc : ((link (markerMark l false s) l).upLock && ((link (markerMark l false s) l).dck
      || (link (markerMark l false s) l).st == .loopback)) = true := by
    rw [hm]
    simpa [hu] using hd
  have hrun : (link (markerMark l false s) l).markerRun = (link s l).markerRun := by rw [hm]
  rw [← hrun]
  exact if_pos hc

/-- What follows the loss of lock leaves UP_LOCK and the run of marker errors, and clears LAT_VALID. -/
theorem link_lockLost (l : Nat) (s : State) : let x := link (wzLinkRise l (latClear true l (ltStick l 0 s))) l
    x.upLock = (link s l).upLock ∧ x.markerRun = (link s l).markerRun ∧ x.latValid = false := by
  obtain ⟨hcu, hcr, hcv, -, -⟩ := of_linkCore (linkCore_wzLinkRise (latClear true l (ltStick l 0 s)) l l)
  have hs := link_latClear_self (ltStick l 0 s) true l
  rw [link_of_links (ltStick_links s l 0)] at hs
  obtain ⟨hru, hrr, hrv, -, -⟩ := of_rangeCore hs
  obtain ⟨hv, hu, hr, -, -, -⟩ := latOff_spec (link s l)
  exact ⟨hcu.trans (hru.trans hu), hcr.trans (hrr.trans hr), hcv.trans (hrv.trans hv)⟩

theorem markerErr_spec (l : LinkNo) (s : State) (hu : (link s l).upLock = true)
    (hd : (link s l).dck = true ∨ (link s l).st = .loopback) : ∃ t, exec (.markerErr l) s = .next t
      ∧ ((link s l).markerRun < 3 → (link t l).markerRun = (link s l).markerRun + 1 ∧ (link t l).upLock = true)
      ∧ (3 ≤ (link s l).markerRun → (link t l).upLock = false ∧ (link t l).markerRun = 0 ∧ (link t l).latValid = false
          ∧ bit (rd t (aLink l 0x10)) 0 = true)
      ∧ rd t (aLink l 0x2C) = satInc (rd s (aLink l 0x2C)) 1 := by
  refine ⟨_, rfl, ?_⟩
  obtain ⟨b, hb⟩ := doMarkerErr_of_locked hu hd
  obtain ⟨m, hm⟩ := link_markerMark l b s
  rw [hb]
  have hcount : rd (markerCount l (markerMark l b s)) (aLink l 0x2C) = satInc (rd s (aLink l 0x2C)) 1 := by
    rw [markerCount, rd_modLink, rd_cntSat, if_pos rfl, rd_markerMark]
  split
  · next h4 =>
    have hl := l.isLt
    refine ⟨fun h => by lia, fun _ => ?_, ?_⟩
    · obtain ⟨hup, hrun, hvalid⟩ := link_lockLost l (markerDrop l (markerMark l b s))
      obtain ⟨hdu, hdr⟩ := link_markerDrop l (markerMark l b s)
      refine ⟨hup.trans hdu, hrun.trans hdr, hvalid, ?_⟩
      rw [rd_wzLinkRise _ _ (not_tripReg_aLink hl (by decide)) (not_intReg_aLink hl (by decide)),
        rd_latClear _ _ hl (not_intReg_aLink hl (by decide)) (fun k hk => aLink_ne hl hk (by decide) (by decide) (by decide))]
      exact bit_ltStick _ hl (by decide)
    · rw [rd_wzLinkRise _ _ (not_tripReg_aLink hl (by decide)) (not_intReg_aLink hl (by decide)),
        rd_latClear _ _ hl (not_intReg_aLink hl (by decide)) (fun k hk => aLink_ne hl hk (by decide) (by decide) (by decide)),
        rd_ltStick_ne _ _ hl (not_intReg_aLink hl (by decide)) (aLink_ne hl hl (by decide) (by decide) (by decide)),
        rd_markerDrop]
      exact hcount
  · next h4 =>
    refine ⟨fun _ => ?_, fun h => by lia, hcount⟩
    rw [markerCount, link_modLink_self, link_cntSat, hm]
    exact ⟨rfl, hu⟩

/-- Settles O16, command by command. -/
theorem linkAlignment : Obligations.LinkAlignment := by
  refine ⟨eyeOf_spec, fun l eye s hp => ⟨_, rfl, ?_⟩, upLock_align, upLock_inbound, alignTimeout_spec, markerErr_spec⟩
  have frame := exec_unchangedBut (.phaseAcquired l eye) s _ rfl
  have he : doPhaseAcquired l eye s = modLink l (fun x => { x with
      eyeWidth := (eyeOf eye).1, pick := (eyeOf eye).2, pickFf := feedForward s l (100 * s.tick) }) s := if_pos hp
  rw [he] at frame ⊢
  exact ⟨link_modLink_self .., others_modLink _ _ _, frame⟩

end Sys2Proof.Links
end

section
-- One proof after another: the check compiles the whole text in one process, and memory is short.
set_option Elab.async false
/-! Chapter 4: errors of the receive path, bring-up past alignment, manual alignment and loopbacks. -/

namespace Sys2Proof.Links

open Sys2Proof Sys2Proof.Machine Sys2Proof.Laws Sys2Proof.Conversion Sys2Proof.Rules Sys2Proof.Control Sys2Proof.Commits

theorem regsBut_ltStick {l : Nat} (b : Nat) (hl : l < 38) (s : State) : regsBut (fun a => a = aLink l 0x10) s (ltStick l b s) :=
  regsBut_stick s _ _ _ (linkSrc_lt hl)

theorem link_ltStick (l b k : Nat) (s : State) : link (ltStick l b s) k = link s k := link_of_links (ltStick_links s l b) k

theorem others_ltStick (l b : Nat) (s : State) : Others l s (ltStick l b s) := others_of_links (ltStick_links s l b)

/-! Errors of the receive path (R107, R108, R125). -/

theorem phaseLimit_spec (l : LinkNo) (s : State) : ∃ t, exec (.phaseLimit l) s = .next t ∧ bit (rd t (aLink l 0x10)) 2 = true
      ∧ link t l = (if picks (link s l) then { link s l with eyeWidth := 0, pick := 0, pickFf := 0 } else link s l)
      ∧ regsBut (fun a => a = aLink l 0x10) s t ∧ (∀ k, k ≠ l.val → link t k = link s k) := by
  refine ⟨_, rfl, ?_⟩
  unfold doPhaseLimit
  refine ⟨bit_ltStick _ l.isLt (by decide), ?_, ?_, ?_⟩
  · rw [link_ltStick]
    split
    · exact link_modLink_self ..
    · rfl
  · refine regsBut_trans (regsBut_of_regs s _ ?_) (regsBut_ltStick 2 l.isLt _)
    exact holds_if (P := fun t => t.regs = s.regs) (fun _ => rfl) (fun _ => rfl)
  · refine others_trans ?_ (others_ltStick l.val 2 _)
    exact holds_if (P := Others l s) (fun _ => others_modLink _ _ _) (fun _ => others_refl _ _)

/-- A receiver whose elastic buffer centres itself, without lock; ff: the feed-forward. -/
noncomputable def centred (ff : Rat) (x : Link) : Link :=
  { x with ebufFill := 16, lockFf := ff, everLocked := x.everLocked || x.upLock, upLock := false, markerRun := 0 }

theorem doEbufErr_eq (l : Nat) (s : State) :
    doEbufErr l s = ltStick l 1 (modLink l (centred (feedForward s l (100 * s.tick))) s) := rfl

theorem ebufErr_spec (l : LinkNo) (s : State) : ∃ t, exec (.ebufErr l) s = .next t ∧ bit (rd t (aLink l 0x10)) 1 = true
      ∧ (link t l).upLock = false ∧ (link t l).ebufFill = 16 ∧ (∀ k, k ≠ l.val → link t k = link s k)
      ∧ regsBut (fun a => a = aLink l 0x10) s t := by
  refine ⟨_, rfl, ?_⟩
  rw [doEbufErr_eq]
  have hl : link (ltStick l 1 (modLink l (centred (feedForward s l (100 * s.tick))) s)) l =
      centred (feedForward s l (100 * s.tick)) (link s l) := (link_ltStick ..).trans (link_modLink_self ..)
  rw [hl]
  exact ⟨bit_ltStick _ l.isLt (by decide), rfl, rfl, others_trans (others_modLink _ _ _) (others_ltStick _ _ _),
    regsBut_trans (regsBut_of_regs s (t := modLink l (centred (feedForward s l (100 * s.tick))) s) _ rfl) (regsBut_ltStick 1 l.isLt _)⟩

theorem doLoopFail_of_due {l : Nat} {s : State} (hs : (link s l).st = .loopback) (hl : (link s l).loop = 3)
    (hy : (link s l).loopSync = false) (hf : 16 ≤ (link s l).frames) : doLoopFail l s = ltStick l 6 s := if_pos ⟨hs, hl, hy, hf⟩

/-- Link l with DCK stopped by the device. -/
noncomputable def stopped (x : Link) : Link := { x with
  dck := false, upLock := false, markerRun := 0, txBlock := false, stopDue := false, rxSeq := none, frame := []
  tSum := 0, tauSum := 0, tCnt := 0, echoMiss := 0 }

theorem dckOff_eq (l : Nat) (s : State) : dckOff l s = latClear false l (modLink l stopped s) := rfl

theorem of_rangeCore_tx {x y : Link} (h : rangeCore x = rangeCore y) : x.txBlock = y.txBlock ∧ x.stopDue = y.stopDue := by
  simpa [rangeCore] using congrArg (fun z : Link => (z.txBlock, z.stopDue)) h

theorem latOff_tx (x : Link) : (latOff x).txBlock = x.txBlock ∧ (latOff x).stopDue = x.stopDue := by
  unfold latOff
  split <;> exact ⟨rfl, rfl⟩

theorem link_dckOff (l : Nat) (s : State) : (link (dckOff l s) l).dck = false ∧ (link (dckOff l s) l).upLock = false
      ∧ (link (dckOff l s) l).latValid = false ∧ (link (dckOff l s) l).st = (link s l).st
      ∧ (link (dckOff l s) l).txBlock = false ∧ (link (dckOff l s) l).stopDue = false := by
  have h := link_latClear_self (modLink l stopped s) false l
  rw [link_modLink_self, ← dckOff_eq] at h
  obtain ⟨hu, -, hv, hst, hd⟩ := of_rangeCore h
  obtain ⟨ht, hs⟩ := of_rangeCore_tx h
  obtain ⟨hv', hu', -, hst', hd', -⟩ := latOff_spec (stopped (link s l))
  obtain ⟨ht', hs'⟩ := latOff_tx (stopped (link s l))
  exact ⟨hd.trans hd', hu.trans hu', hv.trans hv', hst.trans hst', ht.trans ht', hs.trans hs'⟩

theorem link_dckOff_ne {l k : Nat} (s : State) (h : k ≠ l) : ∃ b, link (dckOff l s) k = { link s k with rangeNow := b } := by
  refine rangeNow_of_core ?_
  rw [dckOff_eq, link_latClear_ne _ false h, link_modLink_ne _ _ h]

/-- Settles O17, command by command. -/
theorem linkErrors : Obligations.LinkErrors := by
  refine ⟨phaseLimit_spec, ebufErr_spec, fun l s hs hl hy hf => ⟨_, rfl, ?_⟩, fun l s hd hs hf => ⟨_, rfl, ?_⟩⟩
  · rw [doLoopFail_of_due hs hl hy hf]
    exact ⟨bit_ltStick _ l.isLt (by decide), regsBut_ltStick 6 l.isLt s, ltStick_links s l 6⟩
  · have he : doDckStop l s = dckOff l s := if_pos (by simp [hd, hs, hf])
    rw [he]
    obtain ⟨h1, h2, h3, h4, h5, h6⟩ := link_dckOff l s
    exact ⟨h1, h2, h3, h4, h5, h6, fun k hk => link_dckOff_ne s hk⟩

/-! Bring-up past alignment (R120 to R122). -/

/-- A link that has become LINKED. -/
theorem link_enterLinked (b : Bool) (l : Nat) (s : State) : (link (enterLinked b l s) l).st = .linked
    ∧ (link (enterLinked b l s) l).rateLimited = b ∧ (link (enterLinked b l s) l).fail = .none
    ∧ (link (enterLinked b l s) l).blk = true ∧ (link (enterLinked b l s) l).fallback = false
    ∧ (link (enterLinked b l s) l).goodRate = (link s l).goodRate := by
  rw [enterLinked, link_modLink_self]
  exact ⟨rfl, rfl, rfl, rfl, rfl, rfl⟩

theorem kept_enterLinked' {P : State → Prop} (k : Kept [.links] P) (b : Bool) (l : Nat) (s : State) (h : Holds P s) :
    Holds P (enterLinked b l s) := kept_modLink k l _ s h

theorem checkWindowDone_spec (l : LinkNo) (s : State) (hs : (link s l).st = .check) (hf : (link s l).fallback = false)
    (hc : (link s l).checkTail = some 0) :
      ∃ t, exec (.checkWindowDone l) s = .next t ∧ (link t l).goodRate = some (link s l).rate
      ∧ ((link s l).rate = (link s l).finalRate → (link t l).st = .linked ∧ (link t l).rateLimited = false
          ∧ (link t l).fail = .none ∧ (link t l).blk = true)
      ∧ ((link s l).rate ≠ (link s l).finalRate → (link t l).st = .rateSwitch ∧ (link t l).stage = .request
          ∧ (link t l).target = nextRate (bothRates s l (link s l).partnerCap) (link s l).rate)
      ∧ (∀ k, k ≠ l.val → link t k = link s k) ∧ unchangedBut [.links] s t := by
  refine ⟨_, rfl, ?_⟩
  have hk := keptBut [.links] s
  have h1 := kept_modLink hk l.val (fun x => { x with goodRate := some x.rate, tries := 0, checkOn := false }) s (unchangedBut_refl _ s)
  unfold doCheckWindowDone
  dsimp only
  rw [if_pos ⟨hs, hf, hc⟩]
  split
  · next hr =>
    obtain ⟨hst, hlim, hfail, hblk, -, hgood⟩ := link_enterLinked false l.val
      (modLink l (fun x => { x with goodRate := some x.rate, tries := 0, checkOn := false }) s)
    refine ⟨hgood.trans (by rw [link_modLink_self]), fun _ => ⟨hst, hlim, hfail, hblk⟩, fun h => absurd hr h, ?_,
      kept_enterLinked' hk _ _ _ h1⟩
    exact others_trans (others_modLink _ _ _) (others_enterLinked _ _ _)
  · next hr =>
    rw [link_startSwitch, link_modLink_self]
    refine ⟨rfl, fun h => absurd h hr, fun _ => ⟨rfl, rfl, rfl⟩, ?_, kept_startSwitch' _ _ hk _ h1⟩
    exact others_trans (others_modLink _ _ _) (others_startSwitch _ _ _)

theorem ackTimeout_spec (l : LinkNo) (s : State) (hs : (link s l).st = .rateSwitch) (hg : (link s l).stage = .request)
    (hf : 1024 ≤ (link s l).frames) : ∃ t, exec (.ackTimeout l) s = .next t
      ∧ ((link s l).fallback = true → (link t l).st = .failed ∧ (link t l).fail = .ber)
      ∧ ((link s l).fallback = false → (link s l).tries < retries s l → (link t l).st = .rateSwitch
          ∧ (link t l).stage = .request ∧ (link t l).tries = (link s l).tries + 1
          ∧ (link t l).target = (link s l).target ∧ (link t l).rate = (link s l).goodRate.getD 0)
      ∧ ((link s l).fallback = false → retries s l ≤ (link s l).tries → (link s l).goodRate.getD 0 = 0 →
          (link t l).st = .failed ∧ (link t l).fail = .noAck)
      ∧ ((link s l).fallback = false → retries s l ≤ (link s l).tries → (link s l).goodRate.getD 0 ≠ 0 →
          (link s l).rate = (link s l).goodRate.getD 0 → (link t l).fallback = true ∧ (link t l).st = .check)
      ∧ (∀ k, k ≠ l.val → link t k = link s k) := by
  have he : doAckTimeout l s = switchFail .noAck l s := if_pos ⟨hs, hg, hf⟩
  refine ⟨_, congrArg Host.Outcome.next he, fun h => ?_, fun h ht => ?_, fun h ht h0 => ?_, fun h ht h0 hr => ?_, others_switchFail _ _ _⟩
  · rw [switchFail_of_fallback h, link_linkFail]
    exact ⟨rfl, rfl⟩
  · rw [switchFail_of_retry h ht]
    exact ⟨rfl, rfl, rfl, rfl, rfl⟩
  · rw [switchFail_of_zero h ht h0, link_linkFail]
    exact ⟨rfl, rfl⟩
  · exact switchFail_of_good h ht h0 hr

/-- An update of one link touches the links alone. -/
theorem exec_modLink (l : Nat) (f : Link → Link) (s : State) : unchangedBut [.links] s (modLink l f s) :=
  kept_modLink (keptBut _ s) l f s (unchangedBut_refl _ s)

/-! The end of LINK_TRAIN (R356). -/

theorem unname_named (s : State) {l : Nat} (hl : l < 38) : (link (unname s) l).named = false := by
  have h := forEach_get link (fun l s => if (link s l).named then modLink l (fun x => { x with named := false }) s else s)
    (fun _ x => if x.named then { x with named := false } else x)
    (fun i t => by split <;> simp [*]) (fun i j t hj => by split <;> simp [link_modLink_ne _ _ hj])
    (List.range 38) List.nodup_range s l
  have h' : link (unname s) l = if (link s l).named then { link s l with named := false } else link s l :=
    h.trans (if_pos (List.mem_range.mpr hl))
  rw [h']
  cases hn : (link s l).named <;> simp [hn]

theorem unname_host (s : State) : (unname s).host = s.host := kept_unname (kept_same .host rfl s) s rfl

/-- An interrupt event leaves the operation slots. -/
theorem slots_irq {n : Nat} (hn : n < 128) (s : State) : (irq n s).host.slots = s.host.slots := by
  have h : hostCore (irq n s).host = hostCore s.host := kb_irq (keptB_host s).toKeptR n s hn rfl
  simpa [hostCore] using congrArg HostIf.slots h

/-- The end of slot i shows its state and its results. -/
theorem slots_endSlot (i : Nat) (st : OpState) (res : List Word) (s : State) : (endSlot i st res s).host.slots =
    (modSlot i (fun x => { x with st := st, res := res, suspReq := false }) s).host.slots :=
  slots_irq (by decide) _

theorem slot_of_slots {s t : State} (h : t.host.slots = s.host.slots) (i : Nat) : slot t i = slot s i := by rw [slot, h, slot]

theorem slot_endSlot (i : Nat) (st : OpState) (res : List Word) (s : State) :
    slot (endSlot i st res s) i = { slot s i with st := st, res := res, suspReq := false } :=
  (slot_of_slots (slots_endSlot i st res s) i).trans (slot_modSlot_self ..)

theorem slot_endSlot_ne {i j : Nat} (st : OpState) (res : List Word) (s : State) (h : j ≠ i) :
    slot (endSlot i st res s) j = slot s j :=
  (slot_of_slots (slots_endSlot i st res s) j).trans (slot_modSlot_ne _ _ h)

theorem endSlot_links (i : Nat) (st : OpState) (res : List Word) (s : State) : (endSlot i st res s).links = s.links :=
  kept_endSlot (kept_same .links rfl s) i st res s rfl

theorem linkTrainDone_spec (i : Nat) (s : State) (h : runSlot s 0x04 = some i) : ∃ t, exec .linkTrainDone s = .next t
      ∧ (trainAll s = true → (slot t i).st = .completed ∧ ∀ l, l < 38 → (link t l).named = false)
      ∧ (trainAll s = false → t = s) := by
  refine ⟨_, rfl, ?_⟩
  simp only [doLinkTrainDone, h]
  refine ⟨fun ha => ?_, fun ha => if_neg (by simp [ha])⟩
  rw [if_pos ha, slot_endSlot]
  refine ⟨rfl, fun l hl => ?_⟩
  rw [link_of_links (endSlot_links ..)]
  exact unname_named s hl

/-- Settles O18, row by row of the bring-up. -/
theorem linkBringUp : Obligations.LinkBringUp := by
  refine ⟨fun l s hs hf => ⟨_, rfl, ?_⟩, checkWindowDone_spec, ackTimeout_spec, fun l s hs hg hc => ⟨_, rfl, ?_⟩,
    fun l s hs hg => ⟨_, rfl, ?_⟩, fun l s hf hs hc => ⟨_, rfl, ?_⟩, linkTrainDone_spec⟩
  · rw [doCapTimeout, if_pos ⟨hs, hf⟩, link_linkFail]
    exact ⟨rfl, rfl, rfl, others_linkFail _ _ _, kept_linkFail' _ _ (keptBut _ s) _ (unchangedBut_refl _ s)⟩
  · rw [doCountdownEnd, if_pos ⟨hs, hg, hc⟩, link_modLink_self]
    exact ⟨rfl, rfl, rfl, others_modLink _ _ _, exec_modLink _ _ s⟩
  · rw [doDckRestart, if_pos ⟨hs, hg⟩, link_modLink_self]
    exact ⟨rfl, rfl, rfl, rfl, others_modLink _ _ _, exec_modLink _ _ s⟩
  · have he : doFallbackConfirm l s = enterLinked true l s := if_pos (by simp [hf, hs, hc])
    obtain ⟨hst, hlim, -, -, hfb, -⟩ := link_enterLinked true l.val s
    rw [he]
    exact ⟨hst, hlim, hfb, others_enterLinked _ _ _, exec_modLink _ _ s⟩

/-! Manual alignment and skew (R104, R112, R113). -/

theorem bitslipUp_spec (l : LinkNo) (s : State) : ∃ t, exec (.bitslipUp l) s = .next t
      ∧ ((link s l).manual = true → link t l = { link s l with slipPos := ((link s l).slipPos + 1) % 10 }
        ∧ regsBut (fun _ => False) s t)
      ∧ ((link s l).manual = false → bit (rd t (aLink l 0x10)) 4 = true ∧ link t l = link s l
          ∧ regsBut (fun a => a = aLink l 0x10) s t)
      ∧ (∀ k, k ≠ l.val → link t k = link s k) := by
  refine ⟨_, rfl, ?_⟩
  unfold doBitslipUp
  rw [link_hostAccess]
  cases hm : (link s l).manual
  · refine ⟨fun h => absurd h (by decide), fun _ => ⟨bit_ltStick _ l.isLt (by decide), ?_, ?_⟩, ?_⟩
    · exact (link_ltStick ..).trans (link_hostAccess ..)
    · exact regsBut_trans (regsBut_of_regs s _ (hostAccess_regs s)) (regsBut_ltStick 4 l.isLt _)
    · exact others_trans (others_of_links (hostAccess_links s)) (others_ltStick _ _ _)
  · refine ⟨fun _ => ⟨?_, regsBut_of_regs s _ (hostAccess_regs s)⟩, fun h => absurd h (by decide), ?_⟩
    · exact (link_modLink_self ..).trans (by rw [link_hostAccess])
    · exact others_trans (others_of_links (hostAccess_links s)) (others_modLink _ _ _)

theorem bitslipDown_spec (l : LinkNo) (s : State) : ∃ t, exec (.bitslipDown l) s = .next t
      ∧ ((link s l).st = .align ∨ (link s l).st = .capExchange ∨ (link s l).st = .check ∨ (link s l).st = .loopback →
          link t l = { link s l with downSlipPend := (link s l).downSlipPend + 1 } ∧ regsBut (fun _ => False) s t)
      ∧ (¬ ((link s l).st = .align ∨ (link s l).st = .capExchange ∨ (link s l).st = .check ∨ (link s l).st = .loopback) →
          bit (rd t (aLink l 0x10)) 4 = true ∧ link t l = link s l ∧ regsBut (fun a => a = aLink l 0x10) s t)
      ∧ (∀ k, k ≠ l.val → link t k = link s k) := by
  refine ⟨_, rfl, ?_⟩
  unfold doBitslipDown
  rw [link_hostAccess]
  dsimp only
  split
  · next h =>
    refine ⟨fun _ => ⟨?_, regsBut_of_regs s _ (hostAccess_regs s)⟩, fun hn => absurd h hn, ?_⟩
    · exact (link_modLink_self ..).trans (by rw [link_hostAccess])
    · exact others_trans (others_of_links (hostAccess_links s)) (others_modLink _ _ _)
  · next h =>
    refine ⟨fun h' => absurd h' h, fun _ => ⟨bit_ltStick _ l.isLt (by decide), ?_, ?_⟩, ?_⟩
    · exact (link_ltStick ..).trans (link_hostAccess ..)
    · exact regsBut_trans (regsBut_of_regs s _ (hostAccess_regs s)) (regsBut_ltStick 4 l.isLt _)
    · exact others_trans (others_of_links (hostAccess_links s)) (others_ltStick _ _ _)

/-! Loopbacks (R124). -/

theorem linkInService_hostAccess (s : State) (l : Nat) : linkInService (hostAccess s) l = linkInService s l := by
  obtain ⟨g, h, e⟩ := hostAccess_eq s
  rw [e]
  rfl

/-- The word written to LOOP is kept in LT_CFG. -/
noncomputable def loopStore (l loop : Nat) (s : State) : State := wr (aLink l 0) (putFld (linkCfg s l) 9 2 loop) s

theorem fld_loopStore (l loop : Nat) (s : State) : fld (rd (loopStore l loop s) (aLink l 0)) 9 2 = loop % 4 := by
  rw [loopStore, rd_wr_self]
  exact fld_putFld _ (by decide)

/-- A link whose loop ends. -/
noncomputable def loopEnded (x : Link) : Link :=
  { x with st := .disabled, loop := 0, dck := false, upLock := false, everLocked := false, frame := [] }

/-- A link in a loop. -/
noncomputable def looped (loop : Nat) (x : Link) : Link := { x with
  st := .loopback, loop := loop % 4, rate := if x.trained then x.rate else 0, dck := loop % 4 == 3, upLock := false
  everLocked := false, txBlock := false, stopDue := false, txq := [], frame := [], frames := 0, prbsSeen := 0, loopSync := false
  checkErr := 0, outside := false }

theorem latValid_looped (loop : Nat) (x : Link) : (looped loop x).latValid = x.latValid := rfl

section
variable {l loop : Nat} {s : State}

theorem doLoopWrite_of_zero (h : loop % 4 = 0) : doLoopWrite l loop s =
    if (link s l).st = .loopback then modLink l loopEnded (loopStore l loop s) else loopStore l loop s := if_pos h

theorem doLoopWrite_of_start (h : loop % 4 ≠ 0) (hs : (link s l).st = .disabled ∨ (link s l).st = .failed ∨ (link s l).st = .linked)
    (hi : linkInService s l = false) :
    doLoopWrite l loop s = setPrbsBits l 0 (modLink l (looped loop) (latClear false l (loopStore l loop s))) :=
  (if_neg h).trans (if_pos ⟨hs, hi⟩)

theorem doLoopWrite_of_refused (h : loop % 4 ≠ 0) (hr : ((link s l).st ≠ .disabled ∧ (link s l).st ≠ .failed ∧ (link s l).st ≠ .linked)
    ∨ linkInService s l = true) : doLoopWrite l loop s = ltStick l 5 s := by
  refine (if_neg h).trans (if_neg ?_)
  rintro ⟨hs, hi⟩
  rcases hr with ⟨h1, h2, h3⟩ | hr
  · tauto
  · simp [hi] at hr

end

theorem prbsBits_setPrbsBits (l n : Nat) (s : State) : prbsBits (setPrbsBits l n s) l = n % 2 ^ 64 := by
  have hne : aLink l 0x38 ≠ aLink l 0x3C := by
    unfold aLink
    split <;> lia
  rw [prbsBits, setPrbsBits, rd_wr_self, rd_wr_ne _ _ hne, rd_wr_self, wd, wd, BitVec.toNat_ofNat, BitVec.toNat_ofNat]
  lia

theorem rd_setPrbsBits_ne {l a : Nat} (n : Nat) (s : State) (h : a ≠ aLink l 0x38) (h' : a ≠ aLink l 0x3C) :
    rd (setPrbsBits l n s) a = rd s a := by rw [setPrbsBits, rd_wr_ne _ _ h', rd_wr_ne _ _ h]

theorem loopStart_spec (l : LinkNo) (loop : Nat) (s : State) :
    let t := setPrbsBits l 0 (modLink l (looped loop) (latClear false l (loopStore l loop s)))
    (link t l).st = .loopback ∧ (link t l).loop = loop % 4 ∧ (link t l).dck = (loop % 4 == 3) ∧ (link t l).latValid = false
      ∧ prbsBits t l = 0 ∧ fld (rd t (aLink l 0)) 9 2 = loop % 4 := by
  have hl := l.isLt
  obtain ⟨-, -, hv, -, -⟩ := of_rangeCore (link_latClear_self (loopStore l loop s) false l)
  dsimp only
  rw [link_of_links (setPrbsBits_links l _ 0), link_modLink_self, prbsBits_setPrbsBits]
  obtain ⟨hv', -⟩ := latOff_spec (link (loopStore l loop s) l)
  refine ⟨rfl, rfl, rfl, (latValid_looped ..).trans (hv.trans hv'), rfl, ?_⟩
  rw [rd_setPrbsBits_ne _ _ (aLink_ne hl hl (by decide) (by decide) (by decide)) (aLink_ne hl hl (by decide) (by decide) (by decide)),
    rd_modLink, rd_latClear _ _ hl (not_intReg_aLink hl (by decide)) (fun k hk => aLink_ne hl hk (by decide) (by decide) (by decide)),
    fld_loopStore]

theorem loopWrite_spec (l : LinkNo) (loop : BitVec 2) (s : State) : ∃ t, exec (.loopWrite l loop) s = .next t
      ∧ (loop ≠ 0 → (link s l).st = .disabled ∨ (link s l).st = .failed ∨ (link s l).st = .linked →
          linkInService s l = false → (link t l).st = .loopback ∧ (link t l).loop = loop.toNat
          ∧ (link t l).dck = (loop == 3) ∧ (link t l).latValid = false ∧ prbsBits t l = 0
          ∧ fld (rd t (aLink l 0)) 9 2 = loop.toNat)
      ∧ (loop = 0 → fld (rd t (aLink l 0)) 9 2 = 0
          ∧ ((link s l).st = .loopback → (link t l).st = .disabled ∧ (link t l).loop = 0 ∧ (link t l).dck = false)
          ∧ ((link s l).st ≠ .loopback → link t l = link s l))
      ∧ (loop ≠ 0 → ((link s l).st ≠ .disabled ∧ (link s l).st ≠ .failed ∧ (link s l).st ≠ .linked)
          ∨ linkInService s l = true → bit (rd t (aLink l 0x10)) 5 = true ∧ link t l = link s l) := by
  have hmod : loop.toNat % 4 = loop.toNat := Nat.mod_eq_of_lt loop.isLt
  have hz : loop ≠ 0 → loop.toNat % 4 ≠ 0 := fun h h0 => h (BitVec.eq_of_toNat_eq (hmod.symm.trans h0))
  have h3 : (loop.toNat == 3) = (loop == 3) := by revert loop; decide
  refine ⟨_, rfl, fun h hs hi => ?_, fun h => ?_, fun h hr => ?_⟩
  · rw [doLoopWrite_of_start (hz h) (by rwa [link_hostAccess]) (by rwa [linkInService_hostAccess])]
    have hspec := loopStart_spec l loop.toNat (hostAccess s)
    rwa [hmod, h3] at hspec
  · subst h
    have hfld := fld_loopStore l 0 (hostAccess s)
    have hlink : link (loopStore l 0 (hostAccess s)) l = link s l := (link_of_links rfl l).trans (link_hostAccess s l)
    rw [show (0 : BitVec 2).toNat = 0 from rfl, doLoopWrite_of_zero rfl, link_hostAccess]
    split
    · next hs =>
      rw [rd_modLink, link_modLink_self]
      exact ⟨hfld, fun _ => ⟨rfl, rfl, rfl⟩, fun hn => absurd hs hn⟩
    · next hs => exact ⟨hfld, fun h => absurd h hs, fun _ => hlink⟩
  · rw [doLoopWrite_of_refused (hz h) (by rwa [link_hostAccess, linkInService_hostAccess])]
    exact ⟨bit_ltStick _ l.isLt (by decide), (link_ltStick ..).trans (link_hostAccess ..)⟩

/-- Settles O20, command by command. -/
theorem linkManual : Obligations.LinkManual :=
  ⟨bitslipUp_spec, bitslipDown_spec,
    fun _ s => ⟨_, rfl, link_modLink_self .., others_modLink _ _ _, exec_modLink _ _ s⟩,
    fun _ s => ⟨_, rfl, link_modLink_self .., others_modLink _ _ _, exec_modLink _ _ s⟩, loopWrite_spec⟩

end Sys2Proof.Links
end

section
-- One proof after another: the check compiles the whole text in one process, and memory is short.
set_option Elab.async false
/-! Byte forms, CRCs and the line code (R10, R109, R115, R116). -/

namespace Sys2Proof.Bytes

open Sys2Proof Sys2Proof.Machine

theorem toNat_byt (n : Nat) : (byt n).toNat = n % 256 := BitVec.toNat_ofNat n 8

@[simp] theorem length_leBytes (n v : Nat) : (leBytes n v).length = n := by
  induction n generalizing v with
  | zero => rfl
  | succ n ih => simp [leBytes, ih]

theorem leNat_leBytes (n v : Nat) : leNat (leBytes n v) = v % 256 ^ n := by
  induction n generalizing v with
  | zero => simp [leBytes, leNat, Nat.mod_one]
  | succ n ih => rw [leBytes, leNat, ih, toNat_byt, pow_succ', Nat.mod_mul]

/-- The number that was put into a list of bytes reads back from its place. -/
theorem leAt_leBytes (l r : List Byte) (n v : Nat) : leAt (l ++ (leBytes n v ++ r)) l.length n = v % 256 ^ n := by
  rw [leAt, List.drop_left, List.take_left' (length_leBytes n v), leNat_leBytes]

/-- A step of a CRC register keeps its width. -/
theorem crcShift_lt {w poly : Nat} (hp : poly < 2 ^ w) (n c : Nat) (hc : c < 2 ^ w) : crcShift w poly n c < 2 ^ w := by
  induction n generalizing c with
  | zero => exact hc
  | succ n ih =>
    unfold crcShift
    have hm : (c <<< 1) % 2 ^ w < 2 ^ w := Nat.mod_lt _ (by positivity)
    split
    · exact ih _ (Nat.xor_lt_two_pow hm hp)
    · exact ih _ hm

theorem crc16_lt (l : List Byte) : crc16 l < 65536 := by
  suffices h : ∀ c, c < 2 ^ 16 → l.foldl (fun c b => crcShift 16 0x1021 8 (c ^^^ (b.toNat <<< (16 - 8)))) c < 2 ^ 16 from
    h 0xFFFF (by decide)
  induction l with
  | nil => exact fun c hc => hc
  | cons b l ih =>
    intro c hc
    refine ih _ (crcShift_lt (by decide) 8 _ (Nat.xor_lt_two_pow hc ?_))
    have := b.isLt
    rw [Nat.shiftLeft_eq]
    lia

theorem length_withCrc (l : List Byte) : (withCrc l).length = l.length + 2 := by simp [withCrc]

/-- The CRC of a list with its CRC is right. -/
theorem crc_withCrc (l : List Byte) : crc16 ((withCrc l).take l.length) = leAt (withCrc l) l.length 2 := by
  have h : leAt (l ++ (leBytes 2 (crc16 l) ++ [])) l.length 2 = crc16 l % 256 ^ 2 := leAt_leBytes ..
  rw [List.append_nil] at h
  rw [withCrc, List.take_left, h]
  exact (Nat.mod_eq_of_lt (crc16_lt l)).symm

/-! Training blocks (R115, R116). -/

/-- The bytes of a training block before its CRC. -/
noncomputable def blockBody (b : TrainBlock) : List Byte :=
  leBytes 1 b.state ++ leBytes 1 b.rate ++ leBytes 1 b.target ++ leBytes 1 b.flags ++ leBytes 4 b.cap.toNat
    ++ leBytes 4 (min b.errs 0xFFFFFFFF) ++ leBytes 2 b.seq

theorem length_blockBody (b : TrainBlock) : (blockBody b).length = 14 := by simp [blockBody]

theorem length_blockBytes (b : TrainBlock) : (blockBytes b).length = 16 :=
  (length_withCrc (blockBody b)).trans (by rw [length_blockBody])

theorem trainGood_blockBytes (b : TrainBlock) : trainGood (blockBytes b) = true := by
  have h := crc_withCrc (blockBody b)
  rw [length_blockBody] at h
  have h' : crc16 ((blockBytes b).take 14) = leAt (blockBytes b) 14 2 := h
  rw [trainGood, length_blockBytes, h']
  simp

/-- Reading past a field of m bytes. -/
theorem leAt_skip {m o : Nat} (w : Nat) (r : List Byte) (n : Nat) (h : m ≤ o) :
    leAt (leBytes m w ++ r) o n = leAt r (o - m) n := by
  rw [leAt, leAt, List.drop_append, length_leBytes, List.drop_eq_nil_of_le ((length_leBytes m w).trans_le h), List.nil_append]

/-- Reading the first field. -/
theorem leAt_first {n v : Nat} (r : List Byte) (h : v < 256 ^ n) : leAt (leBytes n v ++ r) 0 n = v :=
  (leAt_leBytes [] r n v).trans (Nat.mod_eq_of_lt h)

theorem blockBytes_eq (b : TrainBlock) : ∃ r, blockBytes b = leBytes 1 b.state ++ (leBytes 1 b.rate ++ (leBytes 1 b.target
    ++ (leBytes 1 b.flags ++ (leBytes 4 b.cap.toNat ++ (leBytes 4 (min b.errs 0xFFFFFFFF) ++ (leBytes 2 b.seq ++ r)))))) :=
  ⟨_, by simp only [blockBytes, withCrc, List.append_assoc]; rfl⟩

theorem blockOfBytes_blockBytes (b : TrainBlock) (h1 : b.state < 256) (h2 : b.rate < 256) (h3 : b.target < 256)
    (h4 : b.flags < 256) (h5 : b.errs < 2 ^ 32) (h6 : b.seq < 65536) : blockOfBytes (blockBytes b) = some b := by
  obtain ⟨r, e⟩ := blockBytes_eq b
  have hmin : min b.errs 0xFFFFFFFF = b.errs := Nat.min_eq_left (Nat.le_pred_of_lt h5)
  rw [blockOfBytes, if_pos (trainGood_blockBytes b), e, hmin]
  simp (disch := decide) only [leAt_skip, Nat.reduceSub]
  rw [leAt_first (n := 1) _ h1, leAt_first (n := 1) _ h2, leAt_first (n := 1) _ h3, leAt_first (n := 1) _ h4,
    leAt_first (n := 4) _ b.cap.isLt, leAt_first (n := 4) _ h5, leAt_first (n := 2) _ h6]
  simp [wd]

/-! The line code (R109). -/

/-- A six-bit block of a column stands for one value, and for none of the control codes. -/
theorem sixOf_column (rd : Bool) : ∀ x < 32, sixOf x rd ≠ 15 ∧ sixOf x rd ≠ 48 ∧ sixOf x rd < 64
    ∧ (List.range 32).find? (fun z => sixOf z rd == sixOf x rd) = some x := by
  cases rd <;> decide +kernel

theorem fourOf_column (m : Bool) : ∀ x < 32, ∀ y < 8, fourOf x y m < 16
    ∧ (List.range 8).find? (fun z => fourOf x z m == fourOf x y m) = some y := by
  cases m <;> decide +kernel

theorem groupOfK_six (c : KCode) (rd : Bool) : groupOfK c rd / 16 = 15 ∨ groupOfK c rd / 16 = 48 := by
  cases c <;> cases rd <;> decide

/-- Each byte has its own group in each column, and it is ten bits wide. -/
theorem symOf_data (rd : Bool) (b : Byte) : symOf (groupOfByte b rd) rd = .data b ∧ groupOfByte b rd < 1024 := by
  have hy : b.toNat / 32 < 8 := by have := b.isLt; lia
  obtain ⟨h15, h48, h64, hsix⟩ := sixOf_column rd (b.toNat % 32) (Nat.mod_lt _ (by decide))
  obtain ⟨h16, hfour⟩ := fourOf_column (rdAfter 3 (sixOf (b.toNat % 32) rd) rd) (b.toNat % 32) (Nat.mod_lt _ (by decide)) _ hy
  have hg : groupOfByte b rd = 16 * sixOf (b.toNat % 32) rd
      + fourOf (b.toNat % 32) (b.toNat / 32) (rdAfter 3 (sixOf (b.toNat % 32) rd) rd) := rfl
  have hdiv : groupOfByte b rd / 16 = sixOf (b.toNat % 32) rd := by lia
  have hmod : groupOfByte b rd % 16 = fourOf (b.toNat % 32) (b.toNat / 32) (rdAfter 3 (sixOf (b.toNat % 32) rd) rd) := by lia
  have hk : allK.find? (fun c => groupOfK c rd == groupOfByte b rd) = none := by
    refine List.find?_eq_none.mpr fun c _ h => ?_
    have := groupOfK_six c rd
    rw [eq_of_beq h] at this
    lia
  have hb : byt (32 * (b.toNat / 32) + b.toNat % 32) = b := by
    rw [Nat.div_add_mod]
    exact BitVec.eq_of_toNat_eq ((toNat_byt _).trans (Nat.mod_eq_of_lt b.isLt))
  refine ⟨?_, by lia⟩
  simp only [symOf, columnOf, hk, hdiv, hmod, hsix, hfour, Option.map_some, hb]

/-- So has each control code. -/
theorem symOf_k (rd : Bool) (c : KCode) : symOf (groupOfK c rd) rd = .k c ∧ groupOfK c rd < 1024 := by
  cases rd <;> cases c <;> exact ⟨rfl, by decide⟩

theorem symOf_groupOf {y : Sym} (h : (∃ b, y = .data b) ∨ ∃ c, y = .k c) (rd : Bool) :
    symOf (groupOf y rd) rd = y ∧ groupOf y rd < 1024 := by
  rcases h with ⟨b, rfl⟩ | ⟨c, rfl⟩
  · exact symOf_data rd b
  · exact symOf_k rd c

theorem symsOf_lineOf (rd : Bool) (l : List Sym) (h : ∀ y ∈ l, (∃ b, y = .data b) ∨ ∃ c, y = .k c) :
    symsOf rd (lineOf rd l).1 = (l, (lineOf rd l).2) := by
  induction l generalizing rd with
  | nil => rfl
  | cons y l ih =>
    obtain ⟨hy, hlt⟩ := symOf_groupOf (h y (by simp)) rd
    have hg : (BitVec.ofNat 10 (groupOf y rd)).toNat = groupOf y rd := by
      rw [BitVec.toNat_ofNat]
      exact Nat.mod_eq_of_lt hlt
    have hr := ih (rdGroup (groupOf y rd) rd) (fun z hz => h z (by simp [hz]))
    simp only [lineOf, symsOf, hg, hy, hr]

end Sys2Proof.Bytes
end

section
-- One proof after another: the check compiles the whole text in one process, and memory is short.
set_option Elab.async false
/-! Chapter 4: training blocks received (R109, R113 to R122, R125, R137). -/

namespace Sys2Proof.Links

open Sys2Proof Sys2Proof.Machine Sys2Proof.Laws Sys2Proof.Conversion Sys2Proof.Rules Sys2Proof.Control Sys2Proof.Commits

/-! A source that the backstop takes latches (R210). -/

theorem fabric_latch (n va vb : Nat) (again : Bool) (blank : Option (Nat × Nat)) (s : State) :
    (fabric n true va vb again blank s).gorse.latch.testBit n = true := by
  unfold fabric
  extract_lets t acts has k3 bsTrip wantTrip wantSs live bl bp latching latched v action links pairs s1 s2 s3
  have eL : latching = true := by
    show (true || _ || _ || _) = true
    simp
  have kb := keptB_latch (2 ^ n)
  have h2 : Holds (fun t => 2 ^ n &&& t.gorse.latch = 2 ^ n) s2 := by
    have e2 : s2 = modGorse (fun g => { g with latch := g.latch ||| 2 ^ n }) s1 := if_pos eL
    show 2 ^ n &&& s2.gorse.latch = 2 ^ n
    rw [e2, modGorse_gorse, Nat.or_comm, and_or_self]
  have h3 : Holds (fun t => 2 ^ n &&& t.gorse.latch = 2 ^ n) s3 :=
    holds_if (fun _ => kb_blockAct kb.toKeptR _ _ _ h2) (fun _ => h2)
  rw [if_neg (by simp [eL])]
  have h4 : Holds (fun t => 2 ^ n &&& t.gorse.latch = 2 ^ n)
      (if wantTrip then tripEnter n s3 else if wantSs then enterSafeStop s3 else s3) :=
    holds_if (fun _ => kb_tripEnter kb _ _ h3) (fun _ => holds_if (fun _ => kb_enterSafeStop kb _ h3) (fun _ => h3))
  simpa [Nat.testBit_and] using congrArg (fun m => m.testBit n) h4

theorem bAssert_latch (n : Nat) (blank : Option (Nat × Nat)) (s : State) (hn : n ≠ 186 ∧ n ≠ 187) :
    (bAssert n blank s).gorse.latch.testBit n = true := by
  rw [bAssert, if_neg (by lia)]
  exact fabric_latch ..

theorem doK283Rx_latch {l : Nat} (hl : l < 36) (s : State) : (doK283Rx l s).gorse.latch.testBit (36 + l) = true :=
  bAssert_latch _ none _ (by lia)

/-! A training superframe without K28.3. -/

theorem execTrainingBlockRx_quiet {l : LinkNo} {groups : List (BitVec 10)} {s : State}
    (h : ∀ y ∈ (rxSyms (link s l) groups).1, symK y ≠ some .k28_3) :
    exec (.trainingBlockRx l groups) s = .next (doTrainingBlockRx l groups s) := by
  have hk : (rxSyms (link s l) groups).1.any (fun y => symK y == some .k28_3) = false := by simpa using h
  show execTrainingBlockRx l groups s = _
  simp [execTrainingBlockRx, hk]

section
variable (l : Nat) (s : State)

theorem countCodes_links (c d : Nat) : (countCodes l c d s).links = s.links := by
  unfold countCodes
  extract_lets s1 s2
  have h1 : s1.links = s.links := holds_if (P := fun t => t.links = s.links) (fun _ => rfl) (fun _ => rfl)
  have h2 : s2.links = s.links := holds_if (P := fun t => t.links = s.links) (fun _ => h1) (fun _ => h1)
  exact holds_if (P := fun t => t.links = s.links) (fun _ => (ltStick_links _ l 3).trans h2) (fun _ => h2)

variable {l} in
/-- The counts of R109 leave every register but their own. -/
theorem rd_countCodes (hl : l < 38) (c d : Nat) {a : Nat} (hi : ¬ intReg a) (h1 : a ≠ aLink l 0x24) (h2 : a ≠ aLink l 0x28)
    (h3 : a ≠ aLink l 0x10) : rd (countCodes l c d s) a = rd s a := by
  unfold countCodes
  extract_lets s1 s2
  have e1 : rd s1 a = rd s a := holds_if (P := fun t => rd t a = rd s a) (fun _ => rfl)
    (fun _ => (rd_cntSat ..).trans (if_neg h1))
  have e2 : rd s2 a = rd s a := holds_if (P := fun t => rd t a = rd s a) (fun _ => e1)
    (fun _ => ((rd_cntSat ..).trans (if_neg h2)).trans e1)
  exact holds_if (P := fun t => rd t a = rd s a) (fun _ => (rd_ltStick_ne _ 3 hl hi h3).trans e2) (fun _ => e2)

/-- A link whose receiver has taken in a superframe, with what it leaves in the receiver. -/
noncomputable def heard (r : Nat × Nat × Nat) (syms : List Sym) (m rdis : Bool) (x : Link) : Link := { x with
  markerSeen := m, rxRd := some rdis, prbsSeen := r.2.1, prbsRx := r.2.2, lastRx := syms
  markerRun := if kAt syms 0 .k28_5 then 0 else x.markerRun }

/-- What the receiver of link x finds in a superframe. -/
noncomputable def found (l : Nat) (x : Link) (syms : List Sym) : TrainRx where
  block := (symBytes syms 2 16).bind blockOfBytes
  errs := (prbsCheck x.prbsSeen x.prbsRx (syms.drop 18)).1 + blockErrs (isWz l) syms
    + b2n ((symBytes syms 2 16).bind blockOfBytes).isNone
  code := codeErrs (isWz l) syms
  disp := dispErrs syms

theorem trainRx_found (l : Nat) (syms : List Sym) (s : State) : (trainRx l syms s).1 = found l (link s l) syms := rfl

/-- The state after a superframe has been taken in, before the answer of the link's state. -/
noncomputable def received (l : Nat) (groups : List (BitVec 10)) (s : State) : State :=
  let y := rxSyms (link s l) groups
  (trainRx l y.1 (modLink l (fun x => { x with rxRd := some y.2 }) (markerMark l (kAt y.1 0 .k28_5) s))).2

theorem link_received (l : Nat) (groups : List (BitVec 10)) (s : State) : ∃ m, link (received l groups s) l =
    heard (prbsCheck (link s l).prbsSeen (link s l).prbsRx ((rxSyms (link s l) groups).1.drop 18)) (rxSyms (link s l) groups).1 m
      (rxSyms (link s l) groups).2 (link s l) := by
  obtain ⟨m, hm⟩ := link_markerMark l (kAt (rxSyms (link s l) groups).1 0 .k28_5) s
  refine ⟨m, ?_⟩
  rw [received, trainRx]
  dsimp only
  rw [link_of_links (countCodes_links ..), link_modLink_self, link_modLink_self, hm]
  rfl

theorem heard_keeps (r : Nat × Nat × Nat) (syms : List Sym) (m rdis : Bool) (x : Link) :
    (heard r syms m rdis x).st = x.st ∧ (heard r syms m rdis x).stage = x.stage ∧ (heard r syms m rdis x).target = x.target
    ∧ (heard r syms m rdis x).capLast = x.capLast ∧ (heard r syms m rdis x).capRun = x.capRun
    ∧ (heard r syms m rdis x).fallback = x.fallback ∧ (heard r syms m rdis x).fbClean = x.fbClean
    ∧ (heard r syms m rdis x).loopSync = x.loopSync := ⟨rfl, rfl, rfl, rfl, rfl, rfl, rfl, rfl⟩

/-- Reception leaves the state of the bring-up. -/
theorem received_keeps (l : Nat) (groups : List (BitVec 10)) (s : State) :
    let x := link (received l groups s) l
    x.st = (link s l).st ∧ x.stage = (link s l).stage ∧ x.target = (link s l).target ∧ x.capLast = (link s l).capLast
    ∧ x.capRun = (link s l).capRun ∧ x.fallback = (link s l).fallback ∧ x.fbClean = (link s l).fbClean
    ∧ x.loopSync = (link s l).loopSync := by
  obtain ⟨m, hm⟩ := link_received l groups s
  rw [hm]
  exact heard_keeps ..

theorem others_received (l : Nat) (groups : List (BitVec 10)) (s : State) : Others l s (received l groups s) := by
  have hmark : Others l s (markerMark l (kAt (rxSyms (link s l) groups).1 0 .k28_5) s) :=
    holds_if (P := Others l s) (fun _ => others_modLink l _ s) (fun _ => others_refl l s)
  refine others_trans hmark (others_trans (others_modLink l (fun x => { x with rxRd := some (rxSyms (link s l) groups).2 }) _) ?_)
  rw [received, trainRx]
  dsimp only
  exact others_trans (others_modLink l _ _) (others_of_links (countCodes_links ..))

theorem rd_received {l : Nat} (hl : l < 38) (groups : List (BitVec 10)) (s : State) {a : Nat} (hi : ¬ intReg a)
    (h1 : a ≠ aLink l 0x24) (h2 : a ≠ aLink l 0x28) (h3 : a ≠ aLink l 0x10) : rd (received l groups s) a = rd s a := by
  rw [received, trainRx]
  dsimp only
  rw [rd_countCodes _ hl _ _ hi h1 h2 h3, rd_modLink, rd_modLink, rd_markerMark]

/-! The answers. -/

section
variable {l : Nat} {groups : List (BitVec 10)} {s : State}

theorem wzInbound_markerMark (b : Bool) : wzInbound (markerMark l b s) l = wzInbound s l := by
  rw [wzInbound, linkCfg, rd_markerMark]
  rfl

theorem found_marked (b : Bool) (rdis : Bool) (syms : List Sym) :
    (trainRx l syms (modLink l (fun x => { x with rxRd := some rdis }) (markerMark l b s))).1 = found l (link s l) syms := by
  obtain ⟨m, hm⟩ := link_markerMark l b s
  rw [trainRx_found, link_modLink_self, hm]
  rfl

/-- In a state of bring-up the device side answers by its state. -/
theorem doTrainingBlockRx_bringUp (hw : wzInbound s l = false) (hb : inBringUp (link s l).st = true)
    (hu : (link s l).upLock = true) : doTrainingBlockRx l groups s =
      bringUpRx l (found l (link s l) (rxSyms (link s l) groups).1) (received l groups s) := by
  have hl : (link s l).st ≠ .loopback := by
    intro h
    simp [h, inBringUp] at hb
  have hn : nearLoop (link s l) = false := by simp [nearLoop, hl]
  simp only [doTrainingBlockRx, hn, wzInbound_markerMark, hw, hb, hu, hl, found_marked, Bool.false_eq_true, if_false,
    Bool.false_or, Bool.true_or, Bool.and_self, if_true]
  rfl

/-- In the far-end loop the stream that comes back is checked. -/
theorem doTrainingBlockRx_loop (hs : (link s l).st = .loopback) (hl : (link s l).loop = 3) (hu : (link s l).upLock = true) :
    doTrainingBlockRx l groups s =
      loopRx l (found l (link s l) (rxSyms (link s l) groups).1) (received l groups s) := by
  have hn : nearLoop (link s l) = false := by simp [nearLoop, hl]
  simp only [doTrainingBlockRx, hn, hs, hu, found_marked, Bool.false_eq_true, if_false, beq_self_eq_true, Bool.or_true,
    Bool.and_self, if_true]
  rfl

theorem doTrainingBlockRx_unlocked (hu : (link s l).upLock = false) (hm : (link s l).manual = false) :
    doTrainingBlockRx l groups s = s := by
  simp [doTrainingBlockRx, markerMark, hu, hm]

/-- What a valid block says of the partner is kept. -/
noncomputable def partnerSays (b : TrainBlock) (x : Link) : Link := { x with partnerCap := b.cap, partnerErr := b.errs }

theorem partnerSays_keeps (b : TrainBlock) (x : Link) : (partnerSays b x).capLast = x.capLast ∧ (partnerSays b x).capRun = x.capRun
    ∧ (partnerSays b x).st = x.st ∧ (partnerSays b x).partnerCap = b.cap := ⟨rfl, rfl, rfl, rfl⟩

/-- The state in which a valid block is answered. -/
noncomputable def blockTaken (l : Nat) (b : TrainBlock) (s : State) : State :=
  modLink l (fun x => { x with partnerErr := b.errs }) (modLink l (fun x => { x with partnerCap := b.cap }) s)

theorem link_blockTaken (b : TrainBlock) : link (blockTaken l b s) l = partnerSays b (link s l) := by
  rw [blockTaken, link_modLink_self, link_modLink_self]
  rfl

theorem others_blockTaken (b : TrainBlock) : Others l s (blockTaken l b s) :=
  others_trans (others_modLink l _ s) (others_modLink l _ _)

theorem bothRates_blockTaken (b : TrainBlock) (cap : Word) : bothRates (blockTaken l b s) l cap = bothRates s l cap := by
  simp only [bothRates, ownRates, linkCfg, blockTaken, rd_modLink]

theorem bringUpRx_cap {r : TrainRx} {b : TrainBlock} (hs : (link s l).st = .capExchange) (hb : r.block = some b) :
    bringUpRx l r s = capBlock l b.cap (blockTaken l b s) := by
  simp only [bringUpRx, hs, hb]
  rfl

theorem bringUpRx_ack {r : TrainRx} {b : TrainBlock} (hs : (link s l).st = .rateSwitch) (hg : (link s l).stage = .request)
    (hb : r.block = some b) (hf : b.flags.testBit 1 = true) (ht : b.target = (link s l).target) :
    bringUpRx l r s = modLink l (fun x => { x with stage := .countdown }) (blockTaken l b s) := by
  simp only [bringUpRx, hs, hb, hg, hf, ht, and_self, if_true]
  rfl

/-- The sixteenth identical capability word begins the check or fails the link. -/
theorem capBlock_last {cap : Word} (hc : cap = (link s l).capLast) (hr : 15 ≤ (link s l).capRun) :
    (link (capBlock l cap s) l).partnerCap = (link s l).partnerCap
    ∧ (capAcceptable cap = true → (link (capBlock l cap s) l).st = .check
      ∧ (link (capBlock l cap s) l).finalRate = topRate (bothRates s l cap))
    ∧ (capAcceptable cap = false → (link (capBlock l cap s) l).st = .failed ∧ (link (capBlock l cap s) l).fail = .capInvalid)
    ∧ Others l s (capBlock l cap s) := by
  unfold capBlock
  dsimp only
  rw [if_pos hc, if_neg (by lia)]
  have h1 : Others l s (modLink l (fun x => { x with capRun := (link s l).capRun + 1, capLast := cap }) s) := others_modLink l _ s
  split
  · next ha =>
    rw [link_startCheck, link_modLink_self, link_modLink_self]
    refine ⟨rfl, fun _ => ⟨rfl, rfl⟩, fun h => absurd ha (by simp [h]), others_trans h1 ?_⟩
    exact others_trans (others_modLink l _ _) (others_startCheck l _)
  · next ha =>
    rw [link_linkFail, link_modLink_self]
    exact ⟨rfl, fun h => absurd h ha, fun _ => ⟨rfl, rfl⟩, others_trans h1 (others_linkFail l _ _)⟩

end

end

theorem bothRates_received (l : LinkNo) (groups : List (BitVec 10)) (s : State) (cap : Word) :
    bothRates (received l groups s) l cap = bothRates s l cap := by
  have hl := l.isLt
  rw [bothRates, ownRates, linkCfg, rd_received hl groups s (not_intReg_aLink hl (by decide))
    (aLink_ne hl hl (by decide) (by decide) (by decide)) (aLink_ne hl hl (by decide) (by decide) (by decide))
    (aLink_ne hl hl (by decide) (by decide) (by decide))]
  rfl

theorem trainingBlock_cap (l : LinkNo) (groups : List (BitVec 10)) (b : TrainBlock) (s : State) (hw : wzInbound s l = false)
    (hs : (link s l).st = .capExchange) (hu : (link s l).upLock = true)
    (hb : (symBytes (rxSyms (link s l) groups).1 2 16).bind blockOfBytes = some b)
    (hk : ∀ y ∈ (rxSyms (link s l) groups).1, symK y ≠ some .k28_3) (hr : 15 ≤ (link s l).capRun) (hc : b.cap = (link s l).capLast) :
      ∃ t, exec (.trainingBlockRx l groups) s = .next t ∧ (link t l).partnerCap = b.cap
      ∧ (capAcceptable b.cap = true → (link t l).st = .check ∧ (link t l).finalRate = topRate (bothRates s l b.cap))
      ∧ (capAcceptable b.cap = false → (link t l).st = .failed ∧ (link t l).fail = .capInvalid)
      ∧ (∀ k, k ≠ l.val → link t k = link s k) := by
  refine ⟨_, execTrainingBlockRx_quiet hk, ?_⟩
  rw [doTrainingBlockRx_bringUp hw (by simp [hs, inBringUp]) hu]
  obtain ⟨hst, -, -, hcl, hcr, -, -, -⟩ := received_keeps l groups s
  have htaken := link_blockTaken (l := l) (s := received l groups s) b
  obtain ⟨hpl, hpr, -, hpc⟩ := partnerSays_keeps b (link (received l groups s) l)
  rw [← htaken] at hpl hpr hpc
  have hlast : b.cap = (link (blockTaken l b (received l groups s)) l).capLast := hc.trans (hpl.trans hcl).symm
  have hrun : 15 ≤ (link (blockTaken l b (received l groups s)) l).capRun := (hpr.trans hcr).symm ▸ hr
  obtain ⟨hcap, hgood, hbad, hne⟩ := capBlock_last hlast hrun
  rw [bringUpRx_cap (hst.trans hs) hb]
  refine ⟨hcap.trans hpc, fun ha => ?_, hbad, others_trans (others_received _ _ _) (others_trans (others_blockTaken b) hne)⟩
  obtain ⟨h1, h2⟩ := hgood ha
  rw [bothRates_blockTaken, bothRates_received] at h2
  exact ⟨h1, h2⟩

theorem trainingBlock_ack (l : LinkNo) (groups : List (BitVec 10)) (b : TrainBlock) (s : State) (hw : wzInbound s l = false)
    (hs : (link s l).st = .rateSwitch) (hg : (link s l).stage = .request) (hu : (link s l).upLock = true)
    (hb : (symBytes (rxSyms (link s l) groups).1 2 16).bind blockOfBytes = some b)
    (hk : ∀ y ∈ (rxSyms (link s l) groups).1, symK y ≠ some .k28_3) (hf : b.flags.testBit 1 = true)
    (ht : b.target = (link s l).target) :
      ∃ t, exec (.trainingBlockRx l groups) s = .next t ∧ (link t l).st = .rateSwitch ∧ (link t l).stage = .countdown
      ∧ (∀ k, k ≠ l.val → link t k = link s k) := by
  refine ⟨_, execTrainingBlockRx_quiet hk, ?_⟩
  rw [doTrainingBlockRx_bringUp hw (by simp [hs, inBringUp]) hu]
  obtain ⟨hst, hstage, htgt, -, -, -, -, -⟩ := received_keeps l groups s
  rw [bringUpRx_ack (hst.trans hs) (hstage.trans hg) hb hf (ht.trans htgt.symm), link_modLink_self, link_blockTaken]
  exact ⟨(partnerSays_keeps b _).2.2.1.trans (hst.trans hs), rfl,
    others_trans (others_received _ _ _) (others_trans (others_blockTaken b) (others_modLink _ _ _))⟩

/-- PRBS checking counts in registers alone. -/
theorem prbsCount_links (l err : Nat) (s : State) : (prbsCount l err s).links = s.links := by
  rw [prbsCount, setPrbsBits_links]
  split
  · rfl
  · exact cntSat_links ..

theorem bringUpRx_check {l : Nat} {r : TrainRx} {s : State} (hs : (link s l).st = .check) (hf : (link s l).fallback = true) :
    ∃ u, (link u l).st = .check ∧ (link u l).fbClean = (link s l).fbClean
      ∧ bringUpRx l r s = confirmBlock l (r.errs + r.code + r.disp) u := by
  cases hb : r.block with
  | none =>
    refine ⟨prbsCount l r.errs s, ?_, ?_, ?_⟩
    · rw [link_of_links (prbsCount_links ..), hs]
    · rw [link_of_links (prbsCount_links ..)]
    · simp only [bringUpRx, hs, hb, hf, if_true]
  | some b =>
    refine ⟨modLink l (fun x => { x with partnerErr := b.errs }) (prbsCount l r.errs (modLink l (fun x => { x with partnerCap := b.cap }) s)),
      ?_, ?_, ?_⟩
    · rw [link_modLink_self, link_of_links (prbsCount_links ..), link_modLink_self]
      exact hs
    · rw [link_modLink_self, link_of_links (prbsCount_links ..), link_modLink_self]
    · simp only [bringUpRx, hs, hb, hf, if_true]

theorem trainingBlock_confirm (l : LinkNo) (groups : List (BitVec 10)) (s : State) (hw : wzInbound s l = false)
    (hs : (link s l).st = .check) (hf : (link s l).fallback = true) (hu : (link s l).upLock = true)
    (hk : ∀ y ∈ (rxSyms (link s l) groups).1, symK y ≠ some .k28_3) :
      ∃ t, exec (.trainingBlockRx l groups) s = .next t
      ∧ (let r := (trainRx l (rxSyms (link s l) groups).1 s).1
         (r.errs + r.code + r.disp = 0 → (link t l).st = .check ∧ (link t l).fbClean = (link s l).fbClean + 1)
         ∧ (r.errs + r.code + r.disp ≠ 0 → (link t l).st = .failed ∧ (link t l).fail = .ber)) := by
  refine ⟨_, execTrainingBlockRx_quiet hk, ?_⟩
  rw [doTrainingBlockRx_bringUp hw (by simp [hs, inBringUp]) hu, trainRx_found]
  obtain ⟨hst, -, -, -, -, hfb, hclean, -⟩ := received_keeps l groups s
  obtain ⟨u, hust, huc, e⟩ := bringUpRx_check (r := found l (link s l) (rxSyms (link s l) groups).1) (hst.trans hs) (hfb.trans hf)
  rw [e]
  refine ⟨fun h0 => ?_, fun h0 => ?_⟩
  · rw [confirmBlock, if_pos h0, link_modLink_self]
    exact ⟨hust, by rw [huc, hclean]⟩
  · rw [confirmBlock, if_neg h0, link_linkFail]
    exact ⟨rfl, rfl⟩

/-- PRBS checking of one superframe (R117, R130). -/
theorem prbsCount_spec {l : Nat} (hl : l < 38) (err : Nat) (s : State) :
    prbsBits (prbsCount l err s) l = (prbsBits s l + 2380) % 2 ^ 64
    ∧ rd (prbsCount l err s) (aLink l 0x30) = if err = 0 then rd s (aLink l 0x30) else satInc (rd s (aLink l 0x30)) err := by
  refine ⟨prbsBits_setPrbsBits .., ?_⟩
  rw [prbsCount, rd_setPrbsBits_ne _ _ (aLink_ne hl hl (by decide) (by decide) (by decide))
    (aLink_ne hl hl (by decide) (by decide) (by decide))]
  split
  · rfl
  · rw [rd_cntSat, if_pos rfl]

theorem prbsBits_received (l : LinkNo) (groups : List (BitVec 10)) (s : State) : prbsBits (received l groups s) l = prbsBits s l := by
  have hl := l.isLt
  have hr : ∀ o, o < 0x1000 → o ≠ 0x24 → o ≠ 0x28 → o ≠ 0x10 → rd (received l groups s) (aLink l o) = rd s (aLink l o) :=
    fun o ho h1 h2 h3 => rd_received hl groups s (not_intReg_aLink hl ho) (aLink_ne hl hl ho (by decide) h1)
      (aLink_ne hl hl ho (by decide) h2) (aLink_ne hl hl ho (by decide) h3)
  rw [prbsBits, hr _ (by decide) (by decide) (by decide) (by decide), hr _ (by decide) (by decide) (by decide) (by decide), prbsBits]

theorem loopRx_spec {l : Nat} (hl : l < 38) (r : TrainRx) (s : State) : prbsBits (loopRx l r s) l = (prbsBits s l + 2380) % 2 ^ 64
    ∧ rd (loopRx l r s) (aLink l 0x30) = (if r.errs = 0 then rd s (aLink l 0x30) else satInc (rd s (aLink l 0x30)) r.errs)
    ∧ (link (loopRx l r s) l).loopSync = ((link s l).loopSync || decide (r.errs = 0))
    ∧ (link (loopRx l r s) l).st = (link s l).st := by
  unfold loopRx
  obtain ⟨hbits, hcount⟩ := prbsCount_spec hl r.errs (if r.errs = 0 then modLink l (fun x => { x with loopSync := true }) s else s)
  rw [hbits, hcount, link_of_links (prbsCount_links ..)]
  by_cases h0 : r.errs = 0
  · rw [if_pos h0, link_modLink_self]
    exact ⟨rfl, by simp [h0], by simp [h0], rfl⟩
  · rw [if_neg h0]
    exact ⟨rfl, rfl, by simp [h0], rfl⟩

theorem trainingBlock_loop (l : LinkNo) (groups : List (BitVec 10)) (s : State) (hs : (link s l).st = .loopback)
    (hlp : (link s l).loop = 3) (hu : (link s l).upLock = true) (hk : ∀ y ∈ (rxSyms (link s l) groups).1, symK y ≠ some .k28_3) :
      ∃ t, exec (.trainingBlockRx l groups) s = .next t
      ∧ (let e := (trainRx l (rxSyms (link s l) groups).1 s).1.errs
         prbsBits t l = (prbsBits s l + 2380) % 2 ^ 64
         ∧ rd t (aLink l 0x30) = (if e = 0 then rd s (aLink l 0x30) else satInc (rd s (aLink l 0x30)) e)
         ∧ (link t l).loopSync = ((link s l).loopSync || decide (e = 0)))
      ∧ (link t l).st = .loopback := by
  refine ⟨_, execTrainingBlockRx_quiet hk, ?_⟩
  have hl := l.isLt
  rw [doTrainingBlockRx_loop hs hlp hu, trainRx_found]
  obtain ⟨hst, -, -, -, -, -, -, hsync⟩ := received_keeps l groups s
  have h30 : rd (received l groups s) (aLink l 0x30) = rd s (aLink l 0x30) :=
    rd_received hl groups s (not_intReg_aLink hl (by decide)) (aLink_ne hl hl (by decide) (by decide) (by decide))
      (aLink_ne hl hl (by decide) (by decide) (by decide)) (aLink_ne hl hl (by decide) (by decide) (by decide))
  dsimp only
  generalize (found l (link s l) (rxSyms (link s l) groups).1) = r
  obtain ⟨hbits, hcount, hlsync, hlst⟩ := loopRx_spec hl r (received l groups s)
  rw [prbsBits_received] at hbits
  rw [h30] at hcount
  exact ⟨⟨hbits, hcount, hlsync.trans (congrArg (· || decide (r.errs = 0)) hsync)⟩, hlst.trans (hst.trans hs)⟩

theorem trainingBlock_k283 (l : LinkNo) (groups : List (BitVec 10)) (y : Sym) (s : State) (hl : l.val < 36)
    (hu : (link s l).upLock = true) (hh : hears (link s l) = true) (hy : y ∈ (rxSyms (link s l) groups).1)
    (hk : symK y = some .k28_3) : ∃ t, exec (.trainingBlockRx l groups) s = .next t ∧ t.gorse.latch.testBit (36 + l) = true := by
  have ha : (rxSyms (link s l) groups).1.any (fun y => symK y == some .k28_3) = true :=
    List.any_eq_true.mpr ⟨y, hy, by simp [hk]⟩
  have he : exec (.trainingBlockRx l groups) s = .next (doK283Rx l (doTrainingBlockRx l groups s)) := by
    show execTrainingBlockRx l groups s = _
    simp [execTrainingBlockRx, ha, hl, hu, hh]
  exact ⟨_, he, doK283Rx_latch hl _⟩

theorem trainingBlock_unlocked (l : LinkNo) (groups : List (BitVec 10)) (s : State) (hu : (link s l).upLock = false)
    (hm : (link s l).manual = false) : exec (.trainingBlockRx l groups) s = .next s := by
  show execTrainingBlockRx l groups s = _
  simp [execTrainingBlockRx, hu, doTrainingBlockRx_unlocked hu hm]

/-- Settles O19, clause by clause: the line code, the blocks, and reception in each state. -/
theorem trainingBlock : Obligations.TrainingBlock :=
  ⟨Bytes.symsOf_lineOf, fun b h1 h2 h3 h4 h5 h6 => ⟨Bytes.length_blockBytes b, Bytes.blockOfBytes_blockBytes b h1 h2 h3 h4 h5 h6⟩,
    trainingBlock_cap, trainingBlock_ack, trainingBlock_confirm, trainingBlock_loop, trainingBlock_k283, trainingBlock_unlocked⟩

end Sys2Proof.Links
end

section
-- One proof after another: the check compiles the whole text in one process, and memory is short.
set_option Elab.async false
/-! Chapter 5: the start of a downstream superframe (R103, R112, R114, R131 to R136, R142, R153, R157, R159). -/

namespace Sys2Proof.Links

open Sys2Proof Sys2Proof.Machine Sys2Proof.Laws Sys2Proof.Conversion Sys2Proof.Rules Sys2Proof.Control Sys2Proof.Commits

/-! What the start of a superframe makes of its link. -/

/-- ASYM_TRIM in force: d_n has moved by the difference. -/
noncomputable def trimmed (x : Link) : Link :=
  match x.trimPend with
  | some t => { x with dU := x.dU + (t - x.trim) * unitsPerPs, trim := t, trimPend := none }
  | none => x

/-- The counters of a link at the superframe that begins. -/
noncomputable def counted (x : Link) : Link := { x with
  downSlip := (x.downSlip + x.downSlipPend) % 10, downSlipPend := 0, wzRun := x.wzRun - 256, runFrames := x.runFrames + 1
  frames := x.frames + 1
  countdown := if x.st == .rateSwitch && x.stage == .countdown then some (match x.countdown with | some n => n - 1 | none => 15)
    else x.countdown }

/-- A link with its GRID messages. -/
noncomputable def gridded (q : List (GridMsg × Nat)) (todo : List Nat) (out : Option GridMsg) (x : Link) : Link :=
  { x with gridq := q, gridTodo := todo, gridOut := out }

/-- A link that sends the superframe f at a tick. -/
noncomputable def sent (f : List Sym) (launch : Int) (prbs tick : Nat) (x : Link) : Link := { x with
  frame := f, frameRd := x.txRd, txRd := (lineOf x.txRd f).2, frameAt := tick, launchM := launch, prbsTx := prbs
  txSeq := (x.txSeq + 1) % 65536, ownCheck := x.ownCheck || x.st == .check
  txq := if x.st = .linked ∧ x.txBlock = false then x.txq.drop 8 else [] }

theorem trimmed_fields (x : Link) : (trimmed x).trimPend = none ∧ (trimmed x).trim = x.trimPend.getD x.trim
    ∧ (trimmed x).dU = x.dU + (x.trimPend.getD x.trim - x.trim) * unitsPerPs := by
  unfold trimmed
  split
  · next t h => rw [h]; exact ⟨rfl, rfl, rfl⟩
  · next h => rw [h]; exact ⟨rfl, rfl, by simp⟩

/-- The trim touches nothing that the superframe is formed of. -/
theorem trimmed_keeps (x : Link) : (trimmed x).txSeq = x.txSeq ∧ (trimmed x).downSlip = x.downSlip
    ∧ (trimmed x).downSlipPend = x.downSlipPend ∧ (trimmed x).txRd = x.txRd ∧ (trimmed x).st = x.st
    ∧ (trimmed x).txBlock = x.txBlock ∧ (trimmed x).txq = x.txq ∧ (trimmed x).cell = x.cell ∧ (trimmed x).wzRun = x.wzRun
    ∧ (trimmed x).farLoop = x.farLoop ∧ (trimmed x).dck = x.dck ∧ (trimmed x).loop = x.loop ∧ (trimmed x).outside = x.outside
    ∧ (trimmed x).peerSeq = x.peerSeq ∧ (trimmed x).blk = x.blk := by
  unfold trimmed
  split <;> exact ⟨rfl, rfl, rfl, rfl, rfl, rfl, rfl, rfl, rfl, rfl, rfl, rfl, rfl, rfl, rfl⟩

section
variable (l : Nat) (s : State)

theorem link_frameCount : link (frameCount l s) l = counted (link s l) := link_modLink_self ..

theorem link_gridSend (launch : Int) : ∃ q todo out, link (gridSend l launch s) l = gridded q todo out (link s l) := by
  unfold gridSend
  dsimp only
  split
  · split
    · split <;> exact ⟨_, _, _, link_modLink_self ..⟩
    · exact ⟨_, _, _, link_modLink_self ..⟩
  · exact ⟨_, _, _, link_modLink_self ..⟩

theorem others_gridSend (launch : Int) : Others l s (gridSend l launch s) := by
  unfold gridSend
  dsimp only
  split
  · split
    · split <;> exact others_modLink l _ s
    · exact others_modLink l _ s
  · exact others_modLink l _ s

/-- The link with DCK or in loopback whose trim is in force, but for RANGE_NOW. -/
theorem trimApply_spec : rangeCore (link (trimApply l s) l) = rangeCore (trimmed (link s l))
    ∧ (∀ k, k ≠ l → rangeCore (link (trimApply l s) k) = rangeCore (link s k))
    ∧ ∀ a, ¬ intReg a → (∀ k, k < 36 → a ≠ aLink k 0x10C) → rd (trimApply l s) a = rd s a := by
  unfold trimApply trimmed
  cases (link s l).trimPend with
  | none => exact ⟨rfl, fun _ _ => rfl, fun _ _ _ => rfl⟩
  | some t =>
    dsimp only
    have h := rangeOnly_rangeUpdate (modLink l (fun x => { x with dU := x.dU + (t - x.trim) * unitsPerPs, trim := t, trimPend := none }) s)
    refine ⟨?_, fun k hk => ?_, fun a hi ha => h.regs a hi ha⟩
    · rw [h.core, link_modLink_self]
    · rw [h.core, link_modLink_ne _ _ hk]

/-- The state in which the superframe is formed, and the superframe. -/
noncomputable def forming : State := gridSend l (launchPos (frameCount l s) l) (frameCount l s)

noncomputable def frameOf : List Sym :=
  frameOut (forming l s) l (launchPos (frameCount l s) l) (prbsRun 238 (link (forming l s) l).prbsTx).1

theorem link_frameSend : link (frameSend l (frameCount l s)) l =
    sent (frameOf l s) (launchPos (frameCount l s) l) (prbsRun 238 (link (forming l s) l).prbsTx).2 (forming l s).tick
      (link (forming l s) l) := link_modLink_self ..

theorem others_frameSend : Others l s (frameSend l (frameCount l s)) :=
  others_trans (others_modLink l counted s) (others_trans (others_gridSend l (frameCount l s) _) (others_modLink l _ _))

theorem link_forming : ∃ q todo out, link (forming l s) l = gridded q todo out (counted (link s l)) := by
  obtain ⟨q, todo, out, h⟩ := link_gridSend l (frameCount l s) (launchPos (frameCount l s) l)
  exact ⟨q, todo, out, h.trans (congrArg _ (link_frameCount l s))⟩

theorem forming_kept {P : State → Prop} (k : Kept [.links] P) (h : Holds P s) : Holds P (forming l s) :=
  kept_gridSend k l _ _ (kept_frameCount k l s h)

end

theorem sent_fields (f : List Sym) (launch : Int) (prbs tick : Nat) (x : Link) :
    (sent f launch prbs tick x).frame = f ∧ (sent f launch prbs tick x).frameRd = x.txRd ∧ (sent f launch prbs tick x).frameAt = tick
    ∧ (sent f launch prbs tick x).txSeq = (x.txSeq + 1) % 65536
    ∧ (sent f launch prbs tick x).txq = (if x.st = .linked ∧ x.txBlock = false then x.txq.drop 8 else [])
    ∧ (sent f launch prbs tick x).downSlip = x.downSlip ∧ (sent f launch prbs tick x).downSlipPend = x.downSlipPend
    ∧ (sent f launch prbs tick x).trimPend = x.trimPend ∧ (sent f launch prbs tick x).trim = x.trim
    ∧ (sent f launch prbs tick x).dU = x.dU ∧ (sent f launch prbs tick x).cell = x.cell :=
  ⟨rfl, rfl, rfl, rfl, rfl, rfl, rfl, rfl, rfl, rfl, rfl⟩

theorem formed_fields (q : List (GridMsg × Nat)) (todo : List Nat) (out : Option GridMsg) (x : Link) :
    let y := gridded q todo out (counted x)
    y.txRd = x.txRd ∧ y.txSeq = x.txSeq ∧ y.st = x.st ∧ y.txBlock = x.txBlock ∧ y.txq = x.txq
    ∧ y.downSlip = (x.downSlip + x.downSlipPend) % 10 ∧ y.downSlipPend = 0 ∧ y.trimPend = x.trimPend ∧ y.trim = x.trim
    ∧ y.dU = x.dU ∧ y.cell = x.cell ∧ y.wzRun = x.wzRun - 256 ∧ y.farLoop = x.farLoop ∧ y.outside = x.outside
    ∧ y.peerSeq = x.peerSeq ∧ y.blk = x.blk :=
  ⟨rfl, rfl, rfl, rfl, rfl, rfl, rfl, rfl, rfl, rfl, rfl, rfl, rfl, rfl, rfl, rfl⟩

/-! The superframe (R114, R131, R132, R136). -/

theorem symBytes_data (l : List Byte) (r : List Sym) : symBytes (l.map Sym.data ++ r) 0 l.length = some l := by
  have hm : ∀ l : List Byte, (l.map Sym.data).mapM symByte = some l := by
    intro l
    induction l with
    | nil => rfl
    | cons b l ih => simp [ih, symByte]
  rw [symBytes, List.drop_zero, List.take_left' (by simp), if_pos (by simp), hm]

/-- The header of an operating superframe stands in its symbols 3 to 15. -/
theorem opFrame_spec (c : KCode) (h : List Byte) (groups : List (List Byte)) (hh : h.length = 13) :
    (opFrame c h groups)[0]? = some (.k .k28_5) ∧ (opFrame c h groups)[1]? = some (.k c)
    ∧ (opFrame c h groups)[2]? = some (.k .k28_1) ∧ symBytes (opFrame c h groups) 3 13 = some h := by
  refine ⟨rfl, rfl, rfl, ?_⟩
  have hs := symBytes_data h (((groups ++ List.replicate (8 - groups.length) []).flatMap groupBytes).map Sym.data)
  rw [hh, ← List.map_append] at hs
  exact hs

theorem length_headOut (s : State) (l : Nat) : (headOut s l).length = 13 := by
  unfold headOut
  dsimp only
  split <;> simp [headerBytes, Bytes.length_withCrc]

theorem length_prbsRun (n h : Nat) : (prbsRun n h).1.length = n := by
  induction n generalizing h with
  | zero => rfl
  | succ n ih => simp [prbsRun, ih]

theorem trainFrame_spec (c : KCode) (block prbs : List Byte) (hb : block.length = 16) (hp : prbs.length = 238) :
    (trainFrame c block prbs).length = 256 ∧ (trainFrame c block prbs)[0]? = some (.k .k28_5)
    ∧ (trainFrame c block prbs)[1]? = some (.k c) := ⟨by simp [trainFrame, hb, hp], rfl, rfl⟩

section
variable {l : Nat} {s t : State}

/-- Symbol 1 and the header depend on the device state, Gorse, the domain's place and the link's own settings. -/
theorem controlSym_congr (hd : t.dev = s.dev) (hg : t.gorse = s.gorse) (ho : (link t l).outside = (link s l).outside) :
    controlSym t l = controlSym s l := by
  rw [controlSym, controlSym, outputsLive, outputsLive, hd, hg, ho]

theorem headOut_congr (hd : t.dev = s.dev) (hg : t.gorse = s.gorse) (hm : t.damask = s.damask)
    (hr : rd t (aLink l 0x100) = rd s (aLink l 0x100)) (hs : (link t l).txSeq = (link s l).txSeq)
    (hp : (link t l).peerSeq = (link s l).peerSeq) (hb : (link t l).blk = (link s l).blk)
    (ho : (link t l).outside = (link s l).outside) : headOut t l = headOut s l := by
  simp only [headOut, hd, hg, hm, hr, hs, hp, hb, ho]

theorem frameOut_block (launch : Int) (prbs : List Byte) (h : (link s l).txBlock = true) : frameOut s l launch prbs = blockFrame := by
  simp [frameOut, h]

theorem frameOut_linked (launch : Int) (prbs : List Byte) (h : (link s l).txBlock = false) (hs : (link s l).st = .linked)
    (hw : (link s l).wzRun = 0) : frameOut s l launch prbs = opOut s l launch := by
  simp [frameOut, h, hs, hw]

theorem frameOut_train (launch : Int) (prbs : List Byte) (h : (link s l).txBlock = false) (hs : (link s l).st ≠ .linked)
    (hf : (link s l).farLoop = false) : frameOut s l launch prbs =
      trainFrame (if wzInbound s l && (link s l).st != .loopback then .k28_0 else .k28_6) (blockBytes (blockOut s l)) prbs := by
  simp [frameOut, h, hs, hf]

end

/-- What the superframe that is formed takes from the state before it: the link but for its counters, and what its symbols show. -/
structure FormedFrom (l : Nat) (s t : State) : Prop where
  dev : t.dev = s.dev
  gorse : t.gorse = s.gorse
  damask : t.damask = s.damask
  tick : t.tick = s.tick
  cfg : rd t (aLink l 0) = rd s (aLink l 0)
  repeatOn : rd t (aLink l 0x100) = rd s (aLink l 0x100)
  link : ∃ r q todo out, link t l = gridded q todo out (counted { trimmed (Machine.link s l) with rangeNow := r })

theorem forming_trimApply {l : Nat} (hl : l < 38) (s : State) : FormedFrom l s (forming l (trimApply l s)) := by
  obtain ⟨hself, -, hrd⟩ := trimApply_spec l s
  obtain ⟨r, hr⟩ := rangeNow_of_core hself
  obtain ⟨q, todo, out, hlink⟩ := link_forming l (trimApply l s)
  have hreg : ∀ o, o < 0x1000 → o ≠ 0x10C → rd (forming l (trimApply l s)) (aLink l o) = rd s (aLink l o) := fun o ho hne =>
    (rd_of_regs (forming_kept l (trimApply l s) (kept_same .regs rfl _) rfl) _).trans
      (hrd _ (not_intReg_aLink hl ho) (fun k hk => aLink_ne hl (by lia) ho (by decide) hne))
  exact {
    dev := forming_kept l _ (kept_same .dev rfl s) (kept_trimApply (kept_same .dev rfl s) l s rfl)
    gorse := forming_kept l _ (kept_same .gorse rfl s) (kept_trimApply (kept_same .gorse rfl s) l s rfl)
    damask := forming_kept l _ (kept_same .damask rfl s) (kept_trimApply (kept_same .damask rfl s) l s rfl)
    tick := forming_kept l _ (kept_same .tick rfl s) (kept_trimApply (kept_same .tick rfl s) l s rfl)
    cfg := hreg 0 (by decide) (by decide)
    repeatOn := hreg 0x100 (by decide) (by decide)
    link := ⟨r, q, todo, out, by rw [hlink, hr]⟩ }

/-- Two links that send the same superframe with the same counters and messages. -/
structure SameFrame (x y : Link) : Prop where
  txSeq : x.txSeq = y.txSeq
  downSlip : x.downSlip = y.downSlip
  downSlipPend : x.downSlipPend = y.downSlipPend
  trimPend : x.trimPend = y.trimPend
  trim : x.trim = y.trim
  dU : x.dU = y.dU
  frameAt : x.frameAt = y.frameAt
  frameRd : x.frameRd = y.frameRd
  frame : x.frame = y.frame
  txq : x.txq = y.txq

theorem SameFrame.refl (x : Link) : SameFrame x x := ⟨rfl, rfl, rfl, rfl, rfl, rfl, rfl, rfl, rfl, rfl⟩

theorem sameFrame_cell (x : Link) (c : CellEnd) : SameFrame { x with cell := c } x :=
  ⟨rfl, rfl, rfl, rfl, rfl, rfl, rfl, rfl, rfl, rfl⟩

/-- A link whose receiver has taken in training symbols, with what the checker holds after them. -/
noncomputable def trained (c : Nat × Nat × Nat) (syms : List Sym) (x : Link) : Link := { x with
  prbsSeen := c.2.1, prbsRx := c.2.2, lastRx := syms, markerRun := if kAt syms 0 .k28_5 then 0 else x.markerRun }

theorem sameFrame_looped (c : Nat × Nat × Nat) (syms : List Sym) (x : Link) (y : Bool) :
    SameFrame { trained c syms x with loopSync := y } x :=
  ⟨rfl, rfl, rfl, rfl, rfl, rfl, rfl, rfl, rfl, rfl⟩

theorem link_trainRx (l : Nat) (syms : List Sym) (s : State) : link (trainRx l syms s).2 l =
    trained (prbsCheck (link s l).prbsSeen (link s l).prbsRx (syms.drop 18)) syms (link s l) := by
  rw [trainRx]
  dsimp only
  rw [link_of_links (countCodes_links ..), link_modLink_self]
  rfl

theorem others_trainRx (l : Nat) (syms : List Sym) (s : State) : Others l s (trainRx l syms s).2 := by
  rw [trainRx]
  exact others_trans (others_modLink l _ s) (others_of_links (countCodes_links ..))

theorem link_loopRx (l : Nat) (r : TrainRx) (s : State) : ∃ y, link (loopRx l r s) l = { link s l with loopSync := y } := by
  rw [loopRx, link_of_links (prbsCount_links ..)]
  split
  · exact ⟨true, link_modLink_self ..⟩
  · exact ⟨_, rfl⟩

theorem others_loopRx (l : Nat) (r : TrainRx) (s : State) : Others l s (loopRx l r s) := by
  rw [loopRx]
  exact others_trans (holds_if (P := Others l s) (fun _ => others_modLink l _ s) (fun _ => others_refl l s))
    (others_of_links (prbsCount_links ..))

theorem sameFrame_nearLoop (l : Nat) (syms : List Sym) (s : State) :
    SameFrame (link (loopRx l (trainRx l syms s).1 (trainRx l syms s).2) l) (link s l) := by
  obtain ⟨y, hy⟩ := link_loopRx l (trainRx l syms s).1 (trainRx l syms s).2
  rw [hy, link_trainRx]
  exact sameFrame_looped ..

/-- The state in which the superframe of link l is on the line. -/
noncomputable def onLine (l : Nat) (s : State) : State := frameSend l (frameCount l (trimApply l s))

section
variable {l : Nat} {s : State}

theorem link_trimApply_fields : let x := link (trimApply l s) l
    x.st = (link s l).st ∧ x.dck = (link s l).dck ∧ x.loop = (link s l).loop ∧ x.txBlock = (link s l).txBlock
    ∧ x.cell = (link s l).cell := by
  obtain ⟨hself, -, -⟩ := trimApply_spec l s
  obtain ⟨r, hr⟩ := rangeNow_of_core hself
  obtain ⟨-, -, -, -, hst, hblk, -, hcell, -, -, hdck, hloop, -⟩ := trimmed_keeps (link s l)
  rw [hr]
  exact ⟨hst, hdck, hloop, hblk, hcell⟩

theorem nearLoop_trimApply : nearLoop (link (trimApply l s) l) = nearLoop (link s l) := by
  obtain ⟨hst, -, hloop, -⟩ := link_trimApply_fields (l := l) (s := s)
  rw [nearLoop, hst, hloop, nearLoop]

theorem doDownstreamSuperframeStart_eq (h : (link s l).dck = true ∨ (link s l).st = .loopback) :
    doDownstreamSuperframeStart l s =
      if nearLoop (link s l) then
        loopRx l (trainRx l (link (onLine l s) l).frame (onLine l s)).1 (trainRx l (link (onLine l s) l).frame (onLine l s)).2
      else if isWz l then onLine l s
      else modCell l (cellFrame ((link s l).st != .linked && !(link s l).txBlock) (link (onLine l s) l).frame) (onLine l s) := by
  obtain ⟨hst, hdck, -, hblk, -⟩ := link_trimApply_fields (l := l) (s := s)
  have hc : ((link (trimApply l s) l).dck || (link (trimApply l s) l).st == .loopback) = true := by
    rw [hst, hdck]
    simpa using h
  have hn := nearLoop_trimApply (l := l) (s := s)
  rw [doDownstreamSuperframeStart]
  dsimp only
  rw [if_pos hc, hn, hst, hblk]
  rfl

end

section
variable {l : Nat} {s : State}

/-- The superframe on the line: what the link that sends it holds. -/
theorem link_onLine (hl : l < 38) : ∃ r q todo out launch prbs, FormedFrom l s (forming l (trimApply l s))
    ∧ link (forming l (trimApply l s)) l = gridded q todo out (counted { trimmed (link s l) with rangeNow := r })
    ∧ link (onLine l s) l = sent (frameOf l (trimApply l s)) launch prbs s.tick
      (gridded q todo out (counted { trimmed (link s l) with rangeNow := r })) := by
  have h := forming_trimApply hl s
  obtain ⟨r, q, todo, out, hlink⟩ := h.link
  exact ⟨r, q, todo, out, _, _, h, hlink, by rw [onLine, link_frameSend, h.tick, hlink]⟩

/-- The counters, settings and messages of a link whose superframe is on the line. -/
theorem onLine_fields (hl : l < 38) : (link (onLine l s) l).txSeq = ((link s l).txSeq + 1) % 65536
    ∧ (link (onLine l s) l).downSlipPend = 0
    ∧ (link (onLine l s) l).downSlip = ((link s l).downSlip + (link s l).downSlipPend) % 10
    ∧ (link (onLine l s) l).trimPend = none ∧ (link (onLine l s) l).trim = (link s l).trimPend.getD (link s l).trim
    ∧ (link (onLine l s) l).dU = (link s l).dU + ((link s l).trimPend.getD (link s l).trim - (link s l).trim) * unitsPerPs
    ∧ (link (onLine l s) l).frameAt = s.tick ∧ (link (onLine l s) l).frameRd = (link s l).txRd
    ∧ (link (onLine l s) l).txq = (if (link s l).st = .linked ∧ (link s l).txBlock = false then (link s l).txq.drop 8 else [])
    ∧ (link (onLine l s) l).frame = frameOf l (trimApply l s) ∧ (link (onLine l s) l).cell = (link s l).cell := by
  obtain ⟨r, q, todo, out, launch, prbs, -, -, hx⟩ := link_onLine (s := s) hl
  obtain ⟨hframe, hrd, hat, hseq, htxq, hslip, hpend, htp, htrim, hdU, hcell⟩ := sent_fields (frameOf l (trimApply l s)) launch prbs
    s.tick (gridded q todo out (counted { trimmed (link s l) with rangeNow := r }))
  obtain ⟨frd, fseq, fst, fblk, ftxq, fslip, fpend, ftp, ftrim, fdU, fcell, -⟩ := formed_fields q todo out
    { trimmed (link s l) with rangeNow := r }
  obtain ⟨tp, tt, td⟩ := trimmed_fields (link s l)
  obtain ⟨kseq, kslip, kpend, krd, kst, kblk, ktxq, kcell, -⟩ := trimmed_keeps (link s l)
  rw [hx]
  refine ⟨?_, hpend.trans fpend, ?_, htp.trans (ftp.trans tp), htrim.trans (ftrim.trans tt), hdU.trans (fdU.trans td), hat,
    hrd.trans (frd.trans krd), ?_, hframe, hcell.trans (fcell.trans kcell)⟩
  · rw [hseq, fseq, ← kseq]
  · rw [hslip, fslip, ← kslip, ← kpend]
  · rw [htxq, fst, fblk, ftxq, ← kst, ← kblk, ← ktxq]

/-- What the superframe is formed of, in terms of the state before it. -/
theorem forming_reads (hl : l < 38) : let t := forming l (trimApply l s)
    FormedFrom l s t ∧ (link t l).txBlock = (link s l).txBlock ∧ (link t l).st = (link s l).st
    ∧ (link t l).wzRun = (link s l).wzRun - 256 ∧ (link t l).farLoop = (link s l).farLoop
    ∧ (link t l).txSeq = (link s l).txSeq ∧ (link t l).outside = (link s l).outside
    ∧ (link t l).peerSeq = (link s l).peerSeq ∧ (link t l).blk = (link s l).blk := by
  obtain ⟨r, q, todo, out, -, -, h, hx, -⟩ := link_onLine (s := s) hl
  obtain ⟨-, fseq, fst, fblk, -, -, -, -, -, -, -, frun, ffar, fout, fpeer, fb⟩ := formed_fields q todo out
    { trimmed (link s l) with rangeNow := r }
  obtain ⟨kseq, -, -, -, kst, kblk, -, -, krun, kfar, -, -, kout, kpeer, kb⟩ := trimmed_keeps (link s l)
  dsimp only
  rw [hx]
  exact ⟨h, fblk.trans kblk, fst.trans kst, frun.trans (congrArg (· - 256) krun), ffar.trans kfar, fseq.trans kseq, fout.trans kout,
    fpeer.trans kpeer, fb.trans kb⟩

theorem frameOf_block (hl : l < 38) (h : (link s l).txBlock = true) : frameOf l (trimApply l s) = blockFrame := by
  obtain ⟨-, hblk, -⟩ := forming_reads (s := s) hl
  exact frameOut_block _ _ (hblk.trans h)

theorem frameOf_linked (hl : l < 38) (h : (link s l).txBlock = false) (hs : (link s l).st = .linked) (hw : (link s l).wzRun = 0) :
    let f := frameOf l (trimApply l s)
    f[0]? = some (.k .k28_5) ∧ f[1]? = some (.k (controlSym s l)) ∧ f[2]? = some (.k .k28_1) ∧ symBytes f 3 13 = some (headOut s l) := by
  obtain ⟨hf, hblk, hst, hrun, -, hseq, hout, hpeer, hb⟩ := forming_reads (s := s) hl
  rw [hw] at hrun
  have e : frameOf l (trimApply l s) = _ := frameOut_linked _ _ (hblk.trans h) (hst.trans hs) hrun
  dsimp only
  rw [e, opOut, controlSym_congr hf.dev hf.gorse hout, headOut_congr hf.dev hf.gorse hf.damask hf.repeatOn hseq hpeer hb hout]
  exact opFrame_spec _ _ _ (length_headOut s l)

theorem frameOf_train (hl : l < 38) (h : (link s l).txBlock = false) (hs : (link s l).st ≠ .linked) (hf : (link s l).farLoop = false) :
    let f := frameOf l (trimApply l s)
    f.length = 256 ∧ f[0]? = some (.k .k28_5)
    ∧ f[1]? = some (.k (if wzInbound s l && (link s l).st != .loopback then .k28_0 else .k28_6)) := by
  obtain ⟨hff, hblk, hst, -, hfar, -⟩ := forming_reads (s := s) hl
  have e : frameOf l (trimApply l s) = _ := frameOut_train _ _ (hblk.trans h) (by rw [hst]; exact hs) (hfar.trans hf)
  dsimp only
  rw [e, hst, show wzInbound (forming l (trimApply l s)) l = wzInbound s l by rw [wzInbound, linkCfg, hff.cfg, wzInbound, linkCfg]]
  exact trainFrame_spec _ _ _ (Bytes.length_blockBytes _) (length_prbsRun ..)

theorem others_onLine {k : Nat} (hk : k ≠ l) : ∃ b, link (onLine l s) k = { link s k with rangeNow := b } := by
  obtain ⟨-, hne, -⟩ := trimApply_spec l s
  obtain ⟨b, hb⟩ := rangeNow_of_core (hne k hk)
  exact ⟨b, (others_frameSend l (trimApply l s) k hk).trans hb⟩

/-- What takes the superframe in: the link's own receiver, nothing on Wozin, or the cell end of a Twill link. -/
theorem superframeTaken (h : (link s l).dck = true ∨ (link s l).st = .loopback) : let t := doDownstreamSuperframeStart l s
    SameFrame (link t l) (link (onLine l s) l) ∧ Others l (onLine l s) t
    ∧ (l < 36 → nearLoop (link s l) = false → (link t l).cell =
        cellFrame ((link s l).st != .linked && !(link s l).txBlock) (link (onLine l s) l).frame (link (onLine l s) l).cell) := by
  dsimp only
  rw [doDownstreamSuperframeStart_eq h]
  cases hn : nearLoop (link s l) with
  | true =>
    rw [if_pos rfl]
    exact ⟨sameFrame_nearLoop .., others_trans (others_trainRx _ _ _) (others_loopRx _ _ _), fun _ h => by simp at h⟩
  | false =>
    rw [if_neg (by decide)]
    cases hw : isWz l with
    | true =>
      rw [if_pos rfl]
      exact ⟨SameFrame.refl _, others_refl l _, fun hl _ => by simp [isWz] at hw; lia⟩
    | false =>
      rw [if_neg (by decide), modCell]
      refine ⟨?_, others_modLink l _ _, fun _ _ => ?_⟩
      · rw [link_modLink_self]
        exact sameFrame_cell ..
      · rw [link_modLink_self]

end

/-- Settles O21: the superframe is formed of the link before it, with its trim and counters, and the receiver at the other end
takes nothing of it from the link that sends it. -/
theorem downstreamSuperframe : Obligations.DownstreamSuperframe := by
  intro l s h
  have hl : l.val < 38 := l.isLt
  obtain ⟨hsame, hothers, hcell⟩ := superframeTaken (l := l) (s := s) h
  obtain ⟨hseq, hpend, hslip, htp, htrim, hdU, hat, hrd, htxq, hframe, hc⟩ := onLine_fields (s := s) hl
  refine ⟨_, rfl, hsame.txSeq.trans hseq, hsame.downSlipPend.trans hpend, hsame.downSlip.trans hslip, hsame.trimPend.trans htp,
    hsame.trim.trans htrim, hsame.dU.trans hdU, hsame.frameAt.trans hat, hsame.frameRd.trans hrd, fun hb => ?_, fun hb hs hw => ?_,
    fun hb hs hf => ?_, hsame.txq.trans htxq, fun hl' hn => ?_, fun k hk => ?_⟩
  · exact hsame.frame.trans (hframe.trans (frameOf_block hl hb))
  · rw [hsame.frame, hframe]
    exact frameOf_linked hl hb hs hw
  · rw [hsame.frame, hframe]
    exact frameOf_train hl hb hs hf
  · rw [hcell hl' hn, hsame.frame, hc]
  · obtain ⟨b, hb⟩ := others_onLine (s := s) hk
    exact ⟨b, (hothers k hk).trans hb⟩

end Sys2Proof.Links
end

section
-- One proof after another: the check compiles the whole text in one process, and memory is short.
set_option Elab.async false
/-! Chapter 5: an upstream superframe (R132, R133, R137, R147, R155). -/

namespace Sys2Proof.Links

open Sys2Proof Sys2Proof.Machine Sys2Proof.Laws Sys2Proof.Conversion Sys2Proof.Rules Sys2Proof.Control Sys2Proof.Commits

/-! What a header and an echo leave in a link, and what leaves it alone. -/

/-- Sequence reference, flags, marker run, and echoes of a link. -/
noncomputable def rxObs (x : Link) : Option Nat × Bool × Bool × Nat × Nat × Nat × Nat :=
  (x.rxSeq, x.cellBlocked, x.cellFault, x.markerRun, x.echoMiss, x.tSum, x.tCnt)

/-- AVG_EXP, SEQ_MISS_CNT and ECHO_MISS_CNT of link l. -/
noncomputable def rxReg (l a : Nat) : Prop := a = aLink l 0x100 ∨ a = aLink l 0x124 ∨ a = aLink l 0x12C

/-- What the header and the echo of link l leave is as before. -/
structure Quiet (l : Nat) (s t : State) : Prop where
  obs : rxObs (link t l) = rxObs (link s l)
  regs : ∀ a, rxReg l a → rd t a = rd s a

section
variable {l : Nat} {s t u : State}

theorem Quiet.refl (l : Nat) (s : State) : Quiet l s s := ⟨rfl, fun _ _ => rfl⟩

theorem Quiet.trans (h : Quiet l s t) (h' : Quiet l t u) : Quiet l s u :=
  ⟨h'.obs.trans h.obs, fun a ha => (h'.regs a ha).trans (h.regs a ha)⟩

theorem rxReg_plain {a : Nat} (hl : l < 38) (h : rxReg l a) : ¬ intReg a ∧ ¬ tripReg a ∧ a ≠ aMonSticky
    ∧ ∀ o, o < 0x1000 → o ≠ 0x100 → o ≠ 0x124 → o ≠ 0x12C → a ≠ aLink l o := by
  obtain ⟨o, ho, ha⟩ : ∃ o, (o = 0x100 ∨ o = 0x124 ∨ o = 0x12C) ∧ a = aLink l o := by
    rcases h with h | h | h
    · exact ⟨_, .inl rfl, h⟩
    · exact ⟨_, .inr (.inl rfl), h⟩
    · exact ⟨_, .inr (.inr rfl), h⟩
  have ho' : o < 0x1000 := by lia
  subst ha
  refine ⟨not_intReg_aLink hl ho', not_tripReg_aLink hl ho', ?_, fun p hp h1 h2 h3 => aLink_ne hl hl ho' hp (by lia)⟩
  have := aLink_range hl ho'
  unfold aMonSticky
  lia

theorem quiet_of_links (hl : t.links = s.links) (hr : ∀ a, rxReg l a → rd t a = rd s a) : Quiet l s t :=
  ⟨congrArg rxObs (link_of_links hl l), hr⟩

theorem quiet_modLink (k : Nat) (f : Link → Link) (hf : ∀ x, rxObs (f x) = rxObs x) : Quiet l s (modLink k f s) := by
  refine ⟨?_, fun _ _ => rfl⟩
  by_cases hk : l = k
  · rw [hk, link_modLink_self, hf]
  · rw [link_modLink_ne _ _ hk]

theorem quiet_cntSat (hl : l < 38) (o n : Nat) (ho : o < 0x1000 ∧ o ≠ 0x100 ∧ o ≠ 0x124 ∧ o ≠ 0x12C) :
    Quiet l s (cntSat (aLink l o) n s) :=
  quiet_of_links rfl (fun _ ha => (rd_cntSat ..).trans (if_neg ((rxReg_plain hl ha).2.2.2 o ho.1 ho.2.1 ho.2.2.1 ho.2.2.2)))

theorem quiet_protoStick (hl : l < 38) (b : Nat) : Quiet l s (protoStick l b s) := by
  refine quiet_of_links (protoStick_links s l b) (fun a ha => ?_)
  obtain ⟨hi, -, -, hne⟩ := rxReg_plain hl ha
  exact rd_protoStick_ne s b hl hi (hne 0x10C (by decide) (by decide) (by decide) (by decide))

theorem quiet_histFeed (hl : l < 38) (src i : Nat) (v : Int) : Quiet l s (histFeed src i v s) := by
  refine quiet_of_links (kept_histFeed (kept_same .links rfl s) src i v s rfl) (fun a ha => ?_)
  obtain ⟨hi, -, hm, -⟩ := rxReg_plain hl ha
  exact rd_histFeed s src i v a hm hi

theorem quiet_countCodes (hl : l < 38) (c d : Nat) : Quiet l s (countCodes l c d s) := by
  refine quiet_of_links (countCodes_links l s c d) (fun a ha => ?_)
  obtain ⟨hi, -, -, hne⟩ := rxReg_plain hl ha
  exact rd_countCodes s hl c d hi (hne 0x24 (by decide) (by decide) (by decide) (by decide))
    (hne 0x28 (by decide) (by decide) (by decide) (by decide)) (hne 0x10 (by decide) (by decide) (by decide) (by decide))

theorem rxObs_linkCore (x : Link) : rxObs (linkCore x) = rxObs x := rfl

theorem quiet_bAssert (hl : l < 38) (n : Nat) (blank : Option (Nat × Nat)) : Quiet l s (bAssert n blank s) where
  obs := by
    have h := congrArg rxObs (kb_bAssert (keptB_links s) n blank s (fun _ => rfl) l)
    rwa [rxObs_linkCore, rxObs_linkCore] at h
  regs a ha := kb_bAssert (keptB_regs s) n blank s (fun _ _ _ => rfl) a (rxReg_plain hl ha).2.1 (rxReg_plain hl ha).1

end

/-! The payload groups (R134, R143 to R145, R156). -/

section
variable {l : Nat} {s : State}

theorem quiet_cellReport (hl : l < 38) (b : List Byte) : Quiet l s (cellReport l b s) := by
  unfold cellReport
  extract_lets tag vdc st s1
  have h1 : Quiet l s s1 := quiet_modLink l _ (fun _ => rfl)
  have h2 : Quiet l s (if st.testBit 3 || st.testBit 4 then protoStick l 4 s1 else s1) :=
    holds_if (P := Quiet l s) (fun _ => h1.trans (quiet_protoStick hl 4)) (fun _ => h1)
  exact h2.trans (quiet_histFeed hl ..)

theorem others_cellReport (b : List Byte) : Others l s (cellReport l b s) := by
  unfold cellReport
  extract_lets tag vdc st s1
  have h1 : Others l s s1 := others_modLink l _ s
  have h2 : Others l s (if st.testBit 3 || st.testBit 4 then protoStick l 4 s1 else s1) :=
    holds_if (P := Others l s) (fun _ => others_trans h1 (others_of_links (protoStick_links s1 l 4))) (fun _ => h1)
  exact others_trans h2 (others_of_links (kept_histFeed (kept_same .links rfl _) _ _ _ _ rfl))

theorem quiet_doGrid (hl : l < 38) (hp : 36 ≤ l) (cg n off per : Nat) : Quiet l s (doGrid (l - 36) cg n off per s) := by
  unfold doGrid
  extract_lets k
  have hk : k = l := by lia
  have hrelay : ∀ (c : Prop) [Decidable c] (f : Link → Link) (t : State), (∀ x, rxObs (f x) = rxObs x) → Quiet l s t →
      Quiet l s (if c then modLink 36 f t else t) := fun c _ f t hf h =>
    holds_if (P := Quiet l s) (fun _ => h.trans (quiet_modLink 36 f hf)) (fun _ => h)
  have hmod : ∀ (i : Nat) (f : Group → Group) (t : State), Quiet l s t → Quiet l s (modGroup i f t) := fun i f t h =>
    h.trans (quiet_of_links rfl (fun _ _ => rfl))
  refine holds_if (P := Quiet l s) (fun _ => Quiet.refl l s) (fun _ => ?_)
  extract_lets
  refine holds_if (P := Quiet l s) (fun _ => hrelay _ _ _ (fun _ => rfl) (Quiet.refl l s)) (fun _ => ?_)
  refine holds_if (P := Quiet l s) (fun _ => hrelay _ _ _ (fun _ => rfl) (hmod _ _ _ (Quiet.refl l s))) (fun _ => ?_)
  refine holds_if (P := Quiet l s) (fun _ => hrelay _ _ _ (fun _ => rfl) (Quiet.refl l s)) (fun _ => ?_)
  refine holds_if (P := Quiet l s) (fun _ => hrelay _ _ _ (fun _ => rfl) (hmod _ _ _ (hmod _ _ _ (Quiet.refl l s)))) (fun _ => ?_)
  rw [hk]
  exact hrelay _ _ _ (fun _ => rfl) ((hmod _ _ _ (Quiet.refl l s)).trans (quiet_protoStick hl 6))

/-- GRID comes on Wozin ports alone. -/
theorem not_grid_of_mem {n : Nat} {b c : List Byte} : UpMsg.grid c ∉ groupMsgs false n b := by
  induction n generalizing b with
  | zero => exact List.not_mem_nil
  | succ n ih =>
    cases b with
    | nil => exact List.not_mem_nil
    | cons t r =>
      simp only [groupMsgs]
      split
      · simpa using ih
      · split
        · simpa using ih
        · simp

theorem grid_of_mem {wz : Bool} {n : Nat} {b c : List Byte} (h : UpMsg.grid c ∈ groupMsgs wz n b) : wz = true := by
  cases wz with
  | true => rfl
  | false => exact absurd h not_grid_of_mem

theorem quiet_upMsg (hl : l < 38) (m : UpMsg) (hg : ∀ c, m = .grid c → 36 ≤ l) : Quiet l s (upMsg l m s) := by
  cases m with
  | cellReport b => exact quiet_cellReport hl b
  | diagResult b => exact quiet_modLink l _ (fun _ => rfl)
  | grid b => exact quiet_doGrid hl (hg b rfl) ..

theorem others_upMsg (m : UpMsg) (hg : ∀ c, m ≠ .grid c) : Others l s (upMsg l m s) := by
  cases m with
  | cellReport b =>
    exact others_cellReport b
  | diagResult b => exact others_modLink l _ s
  | grid b => exact absurd rfl (hg b)

theorem payloadGroup_rel {R : State → State → Prop} (hrefl : ∀ s, R s s) (htrans : ∀ {s t u}, R s t → R t u → R s u)
    (hcnt : ∀ o n s, o = 0x120 ∨ o = 0x128 → R s (cntSat (aLink l o) n s))
    (hmsg : ∀ m s, (∀ c, m = .grid c → isWz l = true) → R s (upMsg l m s)) (syms : List Sym) (j : Nat) (s : State) :
    R s (payloadGroup l syms j s) := by
  unfold payloadGroup
  split
  · exact hcnt _ _ _ (.inr rfl)
  · exact hcnt _ _ _ (.inl rfl)
  · refine List.foldlRecOn (motive := fun t => R s t) _ _ (hrefl s) (fun t ht m hm => htrans ht (hmsg m t ?_))
    rintro c rfl
    exact grid_of_mem hm

theorem quiet_payloadGroup (hl : l < 38) (syms : List Sym) (j : Nat) : Quiet l s (payloadGroup l syms j s) := by
  refine payloadGroup_rel (Quiet.refl l) Quiet.trans (fun o n t ho => quiet_cntSat hl o n (by lia)) (fun m t hm => ?_) syms j s
  refine quiet_upMsg hl m (fun c h => ?_)
  simpa [isWz] using hm c h

theorem others_payloadGroup (hl : l < 36) (syms : List Sym) (j : Nat) : Others l s (payloadGroup l syms j s) := by
  refine payloadGroup_rel (others_refl l) others_trans (fun o n t _ => others_of_links rfl) (fun m t hm => ?_) syms j s
  refine others_upMsg m (fun c h => ?_)
  have := hm c h
  simp [isWz] at this
  lia

end

/-! The header and the echo. -/

/-- A link whose receiver has taken a header. -/
noncomputable def headed (l : Nat) (syms : List Sym) (b : List Byte) (x : Link) : Link :=
  { x with
    rxSeq := some (leAt b 0 2), peerSeq := leAt b 0 2, cellBlocked := (byteAt b 4).getLsbD 0 && !isWz l
    cellFault := (byteAt b 4).getLsbD 1 && !isWz l, lastFaultFlag := (byteAt b 4).getLsbD 1, lastIdle := kAt syms 1 .k28_0 }

/-- The sequence numbers missing before a header. -/
noncomputable def seqGap (x : Link) (b : List Byte) : Nat :=
  match x.rxSeq with | some p => (leAt b 0 2 + 131071 - p) % 65536 | none => 0

/-- The state with a header taken and the missing numbers counted. -/
noncomputable def headTaken (l : Nat) (syms : List Sym) (b : List Byte) (s : State) : State :=
  modLink l (headed l syms b) (if seqGap (link s l) b = 0 then s else cntSat (aLink l 0x124) (seqGap (link s l) b) s)

/-- What the header of a Wozin port leaves in its link. -/
noncomputable def wzHeaded (b : List Byte) (tick : Nat) (x : Link) : Link :=
  { x with
    wzPos := (byteAt b 5).toNat
    wzPeer := wd ((byteAt b 5).toNat % 8 + 16 * ((byteAt b 6).toNat % 8) + 256 * ((byteAt b 7).toNat % 4))
    wzEnLowAt := if (byteAt b 7).toNat.testBit 0 then some tick else x.wzEnLowAt }

/-- The rest of the header of a Wozin port on a device with configuration d. -/
noncomputable def wzHead (d : Damask) (tick l : Nat) (b : List Byte) (s : State) : State :=
  let t := modLink l (wzHeaded b tick) s
  if d.imageValid && (wzPosBad t d.wzPosition).contains l then protoStick l 5 t else t

section
variable {l : Nat} {syms : List Sym} {b : List Byte} {s : State}

theorem link_headTaken : link (headTaken l syms b s) l = headed l syms b (link s l) := by
  rw [headTaken, link_modLink_self]
  split <;> rfl

theorem others_headTaken : Others l s (headTaken l syms b s) := by
  have h : Others l s (if seqGap (link s l) b = 0 then s else cntSat (aLink l 0x124) (seqGap (link s l) b) s) :=
    holds_if (P := Others l s) (fun _ => others_refl l s) (fun _ => others_of_links rfl)
  exact others_trans h (others_modLink l _ _)

theorem rd_headTaken (a : Nat) : rd (headTaken l syms b s) a =
    if a = aLink l 0x124 ∧ seqGap (link s l) b ≠ 0 then satInc (rd s (aLink l 0x124)) (seqGap (link s l) b) else rd s a := by
  rw [headTaken, rd_modLink]
  split
  · next h => rw [if_neg (by simp [h])]
  · next h =>
    rw [rd_cntSat]
    simp [h]

theorem headerRx_good (h : readStretch syms 3 13 = .good b) : headerRx l syms s =
    if isWz l then wzHead s.damask s.tick l b (headTaken l syms b s) else headTaken l syms b s := by
  unfold headerRx
  rw [h]
  rfl

theorem quiet_wzHead (hl : l < 38) (d : Damask) (tick : Nat) : Quiet l s (wzHead d tick l b s) := by
  have h : Quiet l s (modLink l (wzHeaded b tick) s) := quiet_modLink l _ (fun _ => rfl)
  exact holds_if (P := Quiet l s) (fun _ => h.trans (quiet_protoStick hl 5)) (fun _ => h)

theorem quiet_headerRx (hl : l < 38) (h : readStretch syms 3 13 = .good b) : Quiet l (headTaken l syms b s) (headerRx l syms s) := by
  rw [headerRx_good h]
  exact holds_if (P := Quiet l (headTaken l syms b s)) (fun _ => quiet_wzHead hl _ _) (fun _ => Quiet.refl l _)

theorem others_headerRx (h : readStretch syms 3 13 = .good b) (hl : l < 36) : Others l s (headerRx l syms s) := by
  rw [headerRx_good h, if_neg (by simp [isWz]; lia)]
  exact others_headTaken

theorem others_echoRx (t8 : Nat) : Others l s (echoRx l syms t8 s) := by
  unfold echoRx
  refine holds_if (P := Others l s) (fun _ => ?_) (fun _ => ?_)
  · exact others_trans (others_modLink l _ s) (others_of_links (kept_histFeed (kept_same .links rfl _) _ _ _ _ rfl))
  · exact others_trans (others_of_links rfl) (others_modLink l _ _)

theorem of_rxObs {x : Link} {q : Option Nat} {bl fa : Bool} {m e v c : Nat} (h : rxObs x = (q, bl, fa, m, e, v, c)) :
    x.rxSeq = q ∧ x.cellBlocked = bl ∧ x.cellFault = fa ∧ x.markerRun = m ∧ x.echoMiss = e ∧ x.tSum = v ∧ x.tCnt = c := by
  simpa [rxObs] using h

theorem rxObs_headed (x : Link) : rxObs (headed l syms b x) = (some (leAt b 0 2), (byteAt b 4).getLsbD 0 && !isWz l,
    (byteAt b 4).getLsbD 1 && !isWz l, x.markerRun, x.echoMiss, x.tSum, x.tCnt) := rfl

/-- A link with an echo. -/
noncomputable def echoed (more : Bool) (t8 : Nat) (tau : Rat) (x : Link) : Link := { x with
  tSum := if more then x.tSum + t8 else x.tSum, tauSum := if more then x.tauSum + tau else x.tauSum
  tCnt := if more then x.tCnt + 1 else x.tCnt, echoMiss := 0 }

theorem rxObs_echoed (more : Bool) (t8 : Nat) (tau : Rat) (x : Link) : rxObs (echoed more t8 tau x) = (x.rxSeq, x.cellBlocked,
    x.cellFault, x.markerRun, 0, if more then x.tSum + t8 else x.tSum, if more then x.tCnt + 1 else x.tCnt) := rfl

theorem echoRx_heard (t8 : Nat) (h : kAt syms 2 .k28_1 = true) :
    let x := link s l
    rxObs (link (echoRx l syms t8 s) l) = (x.rxSeq, x.cellBlocked, x.cellFault, x.markerRun, 0,
      if x.tCnt < avgCount s l then x.tSum + t8 else x.tSum, if x.tCnt < avgCount s l then x.tCnt + 1 else x.tCnt)
    ∧ ∀ a, a ≠ aMonSticky → ¬ intReg a → rd (echoRx l syms t8 s) a = rd s a := by
  have e : echoRx l syms t8 s = histFeed 1 l (freeDiv 363 t8 8)
      (modLink l (echoed (decide ((link s l).tCnt < avgCount s l)) t8 (turnTaps s l t8)) s) := by
    rw [echoRx, if_pos h]
    unfold echoed
    simp only [decide_eq_true_eq]
    rfl
  dsimp only
  rw [e]
  refine ⟨?_, fun a ha hi => rd_histFeed _ 1 l _ a ha hi⟩
  rw [link_of_links (kept_histFeed (kept_same .links rfl _) _ _ _ _ rfl), link_modLink_self, rxObs_echoed]
  simp only [decide_eq_true_eq]

theorem echoRx_missed (t8 : Nat) (h : kAt syms 2 .k28_1 = false) :
    let x := link s l
    rxObs (link (echoRx l syms t8 s) l) = (x.rxSeq, x.cellBlocked, x.cellFault, x.markerRun, x.echoMiss + 1, x.tSum, x.tCnt)
    ∧ ∀ a, rd (echoRx l syms t8 s) a = if a = aLink l 0x12C then satInc (rd s (aLink l 0x12C)) 1 else rd s a := by
  dsimp only
  rw [echoRx, if_neg (by simp [h]), link_modLink_self]
  exact ⟨rfl, fun a => (rd_modLink ..).trans (rd_cntSat ..)⟩

/-! The superframe. -/

/-- The control code of a trip stands in the symbols. -/
noncomputable def tripCode (l : Nat) (syms : List Sym) : Bool := syms.any (fun y => symK y == some (if isWz l then .k28_6 else .k28_3))

/-- A link at the first symbols of a superframe. -/
noncomputable def framed (syms : List Sym) (x : Link) : Link :=
  { x with markerRun := if kAt syms 0 .k28_5 then 0 else x.markerRun, cell := { x.cell with k3Run := 0 } }

/-- The state with a superframe's codes counted. -/
noncomputable def codesTaken (l : Nat) (syms : List Sym) (s : State) : State :=
  modLink l (framed syms) (countCodes l (codeErrs (isWz l) syms) (dispErrs syms) s)

/-- The state with a superframe's K28.3 or K28.6 taken too. -/
noncomputable def opened (l : Nat) (syms : List Sym) (s : State) : State :=
  if isWz l then (if tripCode l syms then doWzTrip (l - 36) (codesTaken l syms s) else setLive (152 + l) false (codesTaken l syms s))
  else if tripCode l syms then doK283Rx l (codesTaken l syms s) else setLive (36 + l) false (codesTaken l syms s)

theorem opRx_eq (t8 : Nat) : opRx l syms t8 s =
    forEach (List.range 8) (payloadGroup l syms) (echoRx l syms t8 (headerRx l syms (opened l syms s))) := rfl

theorem quiet_setLive (n : Nat) (b : Bool) : Quiet l s (setLive n b s) := quiet_of_links rfl (fun _ _ => rfl)

theorem quiet_doWzTrip (hl : l < 38) (port : Nat) : Quiet l s (doWzTrip port s) := by
  have h : Quiet l s (modLink (36 + port) (fun x => { x with wzTripSeen := true }) s) := quiet_modLink _ _ (fun _ => rfl)
  unfold doWzTrip
  split
  · exact Quiet.refl l s
  · exact h.trans ((quiet_setLive _ _).trans (quiet_bAssert hl _ _))

theorem quiet_doK283Rx (hl : l < 38) : Quiet l s (doK283Rx l s) := by
  unfold doK283Rx
  exact (quiet_protoStick hl 2).trans ((quiet_setLive _ _).trans (quiet_bAssert hl _ _))

theorem quiet_opened (hl : l < 38) : Quiet l (codesTaken l syms s) (opened l syms s) := by
  unfold opened
  generalize codesTaken l syms s = t
  refine ite_elim (fun _ => ite_elim (fun _ => ?_) (fun _ => ?_)) (fun _ => ite_elim (fun _ => ?_) (fun _ => ?_))
  · exact quiet_doWzTrip hl _
  · exact quiet_setLive ..
  · exact quiet_doK283Rx hl
  · exact quiet_setLive ..

theorem codesTaken_spec (hl : l < 38) : link (codesTaken l syms s) l = framed syms (link s l)
    ∧ (∀ a, rxReg l a → rd (codesTaken l syms s) a = rd s a) ∧ (codesTaken l syms s).dev = s.dev ∧ Others l s (codesTaken l syms s) := by
  unfold codesTaken
  refine ⟨?_, fun a ha => ?_, ?_, others_trans (others_of_links (countCodes_links ..)) (others_modLink l _ _)⟩
  · rw [link_modLink_self, link_of_links (countCodes_links ..)]
  · rw [rd_modLink]
    exact (quiet_countCodes hl _ _).regs a ha
  · rw [modLink_dev]
    exact kept_countCodes (kept_same .dev rfl s) l _ _ s rfl

theorem opened_spec (hl : l < 38) : let x := link s l
    rxObs (link (opened l syms s) l) = (x.rxSeq, x.cellBlocked, x.cellFault, if kAt syms 0 .k28_5 then 0 else x.markerRun,
      x.echoMiss, x.tSum, x.tCnt)
    ∧ ∀ a, rxReg l a → rd (opened l syms s) a = rd s a := by
  have h := quiet_opened (s := s) (syms := syms) hl
  obtain ⟨hx, hr, -, -⟩ := codesTaken_spec (s := s) (syms := syms) hl
  refine ⟨h.obs.trans ?_, fun a ha => (h.regs a ha).trans (hr a ha)⟩
  rw [hx]
  rfl

theorem opened_quiet (h : tripCode l syms = false) : ∃ n, opened l syms s = setLive n false (codesTaken l syms s) := by
  unfold opened
  rw [h]
  cases isWz l <;> exact ⟨_, rfl⟩

theorem opened_dev (hl : l < 38) (h : tripCode l syms = false) : (opened l syms s).dev = s.dev := by
  obtain ⟨n, e⟩ := opened_quiet (s := s) h
  obtain ⟨-, -, hd, -⟩ := codesTaken_spec (s := s) (syms := syms) hl
  rw [e]
  exact hd

theorem others_opened (hl : l < 36) (h : tripCode l syms = false) : Others l s (opened l syms s) := by
  obtain ⟨n, e⟩ := opened_quiet (s := s) h
  obtain ⟨-, -, -, ho⟩ := codesTaken_spec (l := l) (s := s) (syms := syms) (by lia)
  rw [e]
  exact ho

theorem opened_latch (hl : l < 36) (h : tripCode l syms = true) : (opened l syms s).gorse.latch.testBit (36 + l) = true := by
  unfold opened
  rw [h, if_neg (by simp [isWz]; lia), if_pos rfl]
  exact doK283Rx_latch hl _

/-! The receiver's answer. -/

/-- The state after the header and the echo of a superframe. -/
noncomputable def headAndEcho (l : Nat) (syms : List Sym) (t8 : Nat) (s : State) : State := echoRx l syms t8 (headerRx l syms (opened l syms s))

theorem quiet_payload (hl : l < 38) : Quiet l s (forEach (List.range 8) (payloadGroup l syms) s) :=
  holds_forEach (P := Quiet l s) _ (fun j _ h => h.trans (quiet_payloadGroup hl syms j)) _ s (Quiet.refl l s)

theorem others_payload (hl : l < 36) : Others l s (forEach (List.range 8) (payloadGroup l syms) s) :=
  holds_forEach (P := Others l s) _ (fun j _ h => others_trans h (others_payloadGroup hl syms j)) _ s (others_refl l s)

theorem headerRx_spec (hl : l < 38) (h : readStretch syms 3 13 = .good b) : let x := link s l
    rxObs (link (headerRx l syms s) l) = (some (leAt b 0 2), (byteAt b 4).getLsbD 0 && !isWz l,
      (byteAt b 4).getLsbD 1 && !isWz l, x.markerRun, x.echoMiss, x.tSum, x.tCnt)
    ∧ rd (headerRx l syms s) (aLink l 0x124) =
      (if seqGap x b = 0 then rd s (aLink l 0x124) else satInc (rd s (aLink l 0x124)) (seqGap x b))
    ∧ rd (headerRx l syms s) (aLink l 0x100) = rd s (aLink l 0x100)
    ∧ rd (headerRx l syms s) (aLink l 0x12C) = rd s (aLink l 0x12C) := by
  have hq := quiet_headerRx (s := s) hl h
  have h2 : aLink l 0x100 ≠ aLink l 0x124 := aLink_ne hl hl (by decide) (by decide) (by decide)
  have h3 : aLink l 0x12C ≠ aLink l 0x124 := aLink_ne hl hl (by decide) (by decide) (by decide)
  refine ⟨hq.obs.trans (by rw [link_headTaken, rxObs_headed]), ?_, ?_, ?_⟩
  · rw [hq.regs _ (.inr (.inl rfl)), rd_headTaken]
    simp only [true_and, ne_eq, ite_not]
  · rw [hq.regs _ (.inl rfl), rd_headTaken, if_neg (fun e => h2 e.1)]
  · rw [hq.regs _ (.inr (.inr rfl)), rd_headTaken, if_neg (fun e => h3 e.1)]

theorem seqGap_congr {x y : Link} (h : x.rxSeq = y.rxSeq) : seqGap x b = seqGap y b := by rw [seqGap, seqGap, h]

theorem opRx_header {s0 : State} (t8 : Nat) (hl : l < 38) (h : readStretch syms 3 13 = .good b) (hq : Quiet l s0 s) :
    let t := opRx l syms t8 s
    (link t l).rxSeq = some (leAt b 0 2)
    ∧ rd t (aLink l 0x124) = (if seqGap (link s0 l) b = 0 then rd s0 (aLink l 0x124)
        else satInc (rd s0 (aLink l 0x124)) (seqGap (link s0 l) b))
    ∧ (link t l).cellBlocked = ((byteAt b 4).getLsbD 0 && !isWz l)
    ∧ (link t l).cellFault = ((byteAt b 4).getLsbD 1 && !isWz l)
    ∧ (link t l).markerRun = (if kAt syms 0 .k28_5 then 0 else (link s0 l).markerRun) := by
  obtain ⟨hseq, -, -, hrun, -⟩ := of_rxObs hq.obs
  obtain ⟨hob, hrb⟩ := opened_spec (s := s) (syms := syms) hl
  obtain ⟨oseq, -, -, orun, -⟩ := of_rxObs hob
  obtain ⟨hh, hm, -⟩ := headerRx_spec (s := opened l syms s) hl h
  have hp := quiet_payload (s := headAndEcho l syms t8 s) (syms := syms) hl
  have hn : aLink l 0x124 ≠ aLink l 0x12C := aLink_ne hl hl (by decide) (by decide) (by decide)
  have he : rd (headAndEcho l syms t8 s) (aLink l 0x124) = rd (headerRx l syms (opened l syms s)) (aLink l 0x124)
      ∧ ∃ m v c, rxObs (link (headAndEcho l syms t8 s) l) = (some (leAt b 0 2), (byteAt b 4).getLsbD 0 && !isWz l,
        (byteAt b 4).getLsbD 1 && !isWz l, if kAt syms 0 .k28_5 then 0 else (link s0 l).markerRun, m, v, c) := by
    obtain ⟨hseq', hblk', hfa', hrun', -⟩ := of_rxObs hh
    rw [orun, hrun] at hrun'
    rw [← hseq', ← hblk', ← hfa', ← hrun']
    have hpl : ¬ intReg (aLink l 0x124) ∧ aLink l 0x124 ≠ aMonSticky :=
      ⟨(rxReg_plain hl (.inr (.inl rfl))).1, (rxReg_plain hl (.inr (.inl rfl))).2.2.1⟩
    cases hk : kAt syms 2 .k28_1 with
    | true =>
      obtain ⟨ho, hr⟩ := echoRx_heard (s := headerRx l syms (opened l syms s)) (l := l) t8 hk
      exact ⟨hr _ hpl.2 hpl.1, _, _, _, ho⟩
    | false =>
      obtain ⟨ho, hr⟩ := echoRx_missed (s := headerRx l syms (opened l syms s)) (l := l) t8 hk
      exact ⟨(hr _).trans (if_neg hn), _, _, _, ho⟩
  obtain ⟨hrd, m, v, c, hobs⟩ := he
  obtain ⟨f1, f2, f3, f4, -⟩ := of_rxObs (hp.obs.trans hobs)
  refine ⟨f1, ?_, f2, f3, f4⟩
  have e : rd (opRx l syms t8 s) (aLink l 0x124) = rd (headAndEcho l syms t8 s) (aLink l 0x124) := hp.regs _ (.inr (.inl rfl))
  rw [e, hrd, hm, hrb _ (.inr (.inl rfl)), hq.regs _ (.inr (.inl rfl)), seqGap_congr (oseq.trans hseq)]

theorem opRx_echo {s0 : State} (t8 : Nat) (hl : l < 38) (h : readStretch syms 3 13 = .good b) (hq : Quiet l s0 s) :
    let t := opRx l syms t8 s
    (kAt syms 2 .k28_1 = true → (link t l).echoMiss = 0 ∧ ((link s0 l).tCnt < avgCount s0 l →
        (link t l).tSum = (link s0 l).tSum + t8 ∧ (link t l).tCnt = (link s0 l).tCnt + 1))
    ∧ (kAt syms 2 .k28_1 = false → (link t l).echoMiss = (link s0 l).echoMiss + 1
        ∧ rd t (aLink l 0x12C) = satInc (rd s0 (aLink l 0x12C)) 1) := by
  obtain ⟨-, -, -, -, hmiss, hsum, hcnt⟩ := of_rxObs hq.obs
  obtain ⟨hob, hrb⟩ := opened_spec (s := s) (syms := syms) hl
  obtain ⟨-, -, -, -, omiss, osum, ocnt⟩ := of_rxObs hob
  obtain ⟨hh, -, h100, h12⟩ := headerRx_spec (s := opened l syms s) hl h
  obtain ⟨-, -, -, -, nmiss, nsum, ncnt⟩ := of_rxObs hh
  have hp := quiet_payload (s := headAndEcho l syms t8 s) (syms := syms) hl
  have e12 : rd (headerRx l syms (opened l syms s)) (aLink l 0x12C) = rd s0 (aLink l 0x12C) :=
    h12.trans ((hrb _ (.inr (.inr rfl))).trans (hq.regs _ (.inr (.inr rfl))))
  have eavg : avgCount (headerRx l syms (opened l syms s)) l = avgCount s0 l := by
    rw [avgCount, h100, hrb _ (.inl rfl), hq.regs _ (.inl rfl), avgCount]
  refine ⟨fun hk => ?_, fun hk => ?_⟩
  · obtain ⟨ho, -⟩ := echoRx_heard (s := headerRx l syms (opened l syms s)) (l := l) t8 hk
    rw [eavg, nsum, ncnt, osum, ocnt, hsum, hcnt] at ho
    obtain ⟨-, -, -, -, f1, f2, f3⟩ := of_rxObs (hp.obs.trans ho)
    exact ⟨f1, fun hc => ⟨f2.trans (if_pos hc), f3.trans (if_pos hc)⟩⟩
  · obtain ⟨ho, hr⟩ := echoRx_missed (s := headerRx l syms (opened l syms s)) (l := l) t8 hk
    obtain ⟨-, -, -, -, f1, -⟩ := of_rxObs (hp.obs.trans ho)
    refine ⟨f1.trans (by rw [nmiss, omiss, hmiss]), (hp.regs _ (.inr (.inr rfl))).trans ?_⟩
    exact (hr _).trans ((if_pos rfl).trans (by rw [e12]))

theorem opRx_dev (t8 : Nat) (hl : l < 38) (h : tripCode l syms = false) : (opRx l syms t8 s).dev = s.dev := by
  have h1 := opened_dev (s := s) hl h
  have h2 := kept_echoRx (kept_same .dev rfl s) l syms t8 _ (kept_headerRx (kept_same .dev rfl s) l syms _ h1)
  exact holds_forEach (P := samePart .dev s) _ (fun j t => kept_payloadGroup (kept_same .dev rfl s) l syms j t) _ _ h2

theorem opRx_latch (t8 : Nat) (hl : l < 36) (h : tripCode l syms = true) : (opRx l syms t8 s).gorse.latch.testBit (36 + l) = true := by
  have k := kept_same .gorse (l := [.regs, .events, .groups, .links, .time, .host, .therm]) rfl (opened l syms s)
  have h2 := kept_echoRx (k.mono (by decide)) l syms t8 _ (kept_headerRx (k.mono (by decide)) l syms (opened l syms s) rfl)
  have h3 : (opRx l syms t8 s).gorse = (opened l syms s).gorse :=
    holds_forEach (P := samePart .gorse (opened l syms s)) _ (fun j t => kept_payloadGroup k l syms j t) _ _ h2
  rw [h3]
  exact opened_latch hl h

theorem others_opRx (t8 : Nat) (hl : l < 36) (hg : readStretch syms 3 13 = .good b) (h : tripCode l syms = false) :
    Others l s (opRx l syms t8 s) := by
  have h1 : Others l s (headAndEcho l syms t8 s) :=
    others_trans (others_opened hl h) (others_trans (others_headerRx hg hl) (others_echoRx t8))
  exact others_trans h1 (others_payload hl)

end

section
variable {l : Nat} {groups : List (BitVec 10)} {s : State}

/-- The state in which a superframe's symbols are read. -/
noncomputable def symsTaken (l : Nat) (groups : List (BitVec 10)) (s : State) : State :=
  modLink l (fun x => { x with rxRd := some (rxSyms (link s l) groups).2 }) (markerMark l (kAt (rxSyms (link s l) groups).1 0 .k28_5) s)

theorem markerMark_spec (b : Bool) : Quiet l s (markerMark l b s) ∧ Others l s (markerMark l b s) ∧ (markerMark l b s).dev = s.dev := by
  unfold markerMark
  split
  · exact ⟨quiet_modLink l _ (fun _ => rfl), others_modLink l _ s, rfl⟩
  · exact ⟨Quiet.refl l s, others_refl l s, rfl⟩

theorem symsTaken_spec : Quiet l s (symsTaken l groups s) ∧ Others l s (symsTaken l groups s) ∧ (symsTaken l groups s).dev = s.dev := by
  unfold symsTaken
  obtain ⟨hq, ho, hd⟩ := markerMark_spec (l := l) (s := s) (kAt (rxSyms (link s l) groups).1 0 .k28_5)
  exact ⟨hq.trans (quiet_modLink l _ (fun _ => rfl)), others_trans ho (others_modLink l _ _), hd⟩

theorem link_seen_keeps (m : Bool) (x : Link) : ({ x with markerSeen := m } : Link).st = x.st
    ∧ ({ x with markerSeen := m } : Link).upLock = x.upLock ∧ ({ x with markerSeen := m } : Link).dck = x.dck := ⟨rfl, rfl, rfl⟩

/-- Reception of an upstream superframe on a LINKED link with marker lock. -/
theorem doUpstreamSuperframeRx_linked (t8 : Nat) (hs : (link s l).st = .linked) (hu : (link s l).upLock = true)
    (hd : (link s l).dck = true) :
    doUpstreamSuperframeRx l groups t8 s = opRx l (rxSyms (link s l) groups).1 t8 (symsTaken l groups s) := by
  have hk : (link (markerMark l (kAt (rxSyms (link s l) groups).1 0 .k28_5) s) l).st = .linked
      ∧ (link (markerMark l (kAt (rxSyms (link s l) groups).1 0 .k28_5) s) l).upLock = true
      ∧ (link (markerMark l (kAt (rxSyms (link s l) groups).1 0 .k28_5) s) l).dck = true := by
    obtain ⟨m, hm⟩ := link_markerMark l (kAt (rxSyms (link s l) groups).1 0 .k28_5) s
    obtain ⟨h1, h2, h3⟩ := link_seen_keeps m (link s l)
    rw [hm]
    exact ⟨h1.trans hs, h2.trans hu, h3.trans hd⟩
  have hb : inBringUp (link (markerMark l (kAt (rxSyms (link s l) groups).1 0 .k28_5) s) l).st = false := by
    rw [hk.1]
    rfl
  have hn : nearLoop (link s l) = false := by
    rw [nearLoop, hs]
    rfl
  unfold doUpstreamSuperframeRx
  rw [hn, if_neg (by decide)]
  dsimp only
  rw [hb, Bool.and_false, Bool.false_and, if_neg Bool.false_ne_true, if_pos hk]
  rfl

end

/-- Settles O22: reception is the codes, the header, the echo and the payload, and each but the header and the echo leaves what
these tell. -/
theorem upstreamSuperframe : Obligations.UpstreamSuperframe := by
  intro l groups t8 b s hs hu hd hgood
  have ht := doUpstreamSuperframeRx_linked (groups := groups) t8 hs hu hd
  obtain ⟨hq, ho, hdev⟩ := symsTaken_spec (l := l) (groups := groups) (s := s)
  obtain ⟨h1, h2, h3, h4, h5⟩ := opRx_header t8 l.isLt hgood hq
  obtain ⟨h6, h7⟩ := opRx_echo t8 l.isLt hgood hq
  refine ⟨_, congrArg Host.Outcome.next ht, h1, h2, h3, h4, h5, h6, h7, fun hl hh => opRx_latch t8 hl hh, fun hl hh k hk => ?_,
    fun hh => (opRx_dev t8 l.isLt hh).trans hdev⟩
  exact (others_opRx t8 hl hgood hh k hk).trans (ho k hk)

end Sys2Proof.Links
end

section
-- One proof after another: the check compiles the whole text in one process, and memory is short.
set_option Elab.async false
/-! Chapter 5: latency (R147 to R149, R159). -/

namespace Sys2Proof.Links

open Sys2Proof Sys2Proof.Machine Sys2Proof.Laws Sys2Proof.Conversion Sys2Proof.Rules Sys2Proof.Control Sys2Proof.Commits

/-- A link whose average begins anew. -/
noncomputable def averaged (rtt turn : Nat) (x : Link) : Link :=
  { x with tSum := 0, tauSum := 0, tCnt := 0, rttPs := rtt, turnPs := turn }

/-- A link that acquires d_n. -/
noncomputable def acquired (d : Int) (tick ofs : Nat) (x : Link) : Link := { x with
  dU := d, latValid := true, ests := [], unstableRun := 0, unstableNow := false, latAt := tick
  launchOfs := if x.launchOfs = 0 then ofs else x.launchOfs }

/-- A link whose d_n has moved. -/
noncomputable def tracked (d : Int) (run : Nat) (off : Bool) (tick : Nat) (x : Link) : Link :=
  { x with dU := d, unstableRun := run, unstableNow := off, latAt := tick }

/-- d_n moved towards an estimate within the slew limit (R148). -/
noncomputable def slewed (x : Link) (tick : Nat) (est : Int) : Int :=
  x.dU + clampI (-(8000 * (tick - x.latAt : Nat))) (8000 * (tick - x.latAt : Nat)) (est - x.dU)

section
variable {l : Nat} {s : State}

theorem latAcquire_short (est : Int) (h : (link s l).ests.length < 3) :
    latAcquire l est s = modLink l (fun x => { x with ests := est :: (link s l).ests }) s := by
  have ht : (est :: (link s l).ests).take 4 = est :: (link s l).ests := List.take_of_length_le (by simp; lia)
  unfold latAcquire
  rw [ht]
  exact if_neg (fun hc => by have := hc.1; simp at this; lia)

theorem latAcquire_full {est e1 e2 e3 : Int} {rest : List Int} (h : (link s l).ests = e1 :: e2 :: e3 :: rest)
    (hs : max est (max e1 (max e2 e3)) - min est (min e1 (min e2 e3)) ≤ 400 * unitsPerPs) :
    ∃ ofs, latAcquire l est s = modLink l (acquired ((est + e1 + e2 + e3) / 4) s.tick ofs) s := by
  have ht : (est :: (link s l).ests).take 4 = [est, e1, e2, e3] := by rw [h]; rfl
  have hmax : [est, e1, e2, e3].foldl max est = max est (max e1 (max e2 e3)) := by simp [max_assoc]
  have hmin : [est, e1, e2, e3].foldl min est = min est (min e1 (min e2 e3)) := by simp [min_assoc]
  have hsum : [est, e1, e2, e3].foldl (· + ·) 0 = est + e1 + e2 + e3 := by simp
  unfold latAcquire
  rw [ht]
  dsimp only
  rw [hmax, hmin, hsum, if_pos ⟨rfl, hs⟩]
  exact ⟨_, rfl⟩

theorem latTrack_stable (est : Int) (h : (link s l).unstableRun < 15) :
    ∃ run off, latTrack l est s = modLink l (tracked (slewed (link s l) s.tick est) run off s.tick) s := by
  unfold latTrack
  extract_lets x lim d off run
  have hr : run ≤ x.unstableRun + 1 := by
    show (if off then x.unstableRun + 1 else 0) ≤ _
    split <;> lia
  have hx : x.unstableRun < 15 := h
  rw [if_neg (by lia)]
  exact ⟨run, off, rfl⟩

/-- A complete average: the estimate is taken and the average begins anew, but for RANGE_NOW. -/
theorem link_latencyUpdate (hs : (link s l).st = .linked) (hd : (link s l).dck = true) (hc : avgCount s l ≤ (link s l).tCnt) :
    ∃ b rtt turn, link (doLatencyUpdate l s) l = { averaged rtt turn
      (link (if (link s l).latValid then latTrack l (estimate s l) s else latAcquire l (estimate s l) s) l) with rangeNow := b } := by
  unfold doLatencyUpdate
  dsimp only
  rw [if_pos ⟨hs, hd, hc⟩]
  have h := (rangeOnly_rangeUpdate (modLink l (averaged (freeDiv 147 (link s l).tSum (8 * (link s l).tCnt)).toNat
    (freeDiv 148 (tauU s l) 64000000000).toNat)
      (if (link s l).latValid then latTrack l (estimate s l) s else latAcquire l (estimate s l) s))).core l
  rw [link_modLink_self] at h
  obtain ⟨b, hb⟩ := rangeNow_of_core h
  exact ⟨b, _, _, hb⟩

theorem averaged_keeps (rtt turn : Nat) (b : Bool) (x : Link) : let y := { averaged rtt turn x with rangeNow := b }
    y.tSum = 0 ∧ y.tCnt = 0 ∧ y.ests = x.ests ∧ y.latValid = x.latValid ∧ y.dU = x.dU := ⟨rfl, rfl, rfl, rfl, rfl⟩

theorem acquired_keeps (d : Int) (tick ofs : Nat) (x : Link) :
    (acquired d tick ofs x).latValid = true ∧ (acquired d tick ofs x).dU = d := ⟨rfl, rfl⟩

theorem tracked_keeps (d : Int) (run : Nat) (off : Bool) (tick : Nat) (x : Link) :
    (tracked d run off tick x).latValid = x.latValid ∧ (tracked d run off tick x).dU = d := ⟨rfl, rfl⟩

theorem latencyUpdate_spec (hs : (link s l).st = .linked) (hd : (link s l).dck = true) (hc : avgCount s l ≤ (link s l).tCnt) :
    let t := doLatencyUpdate l s
    (link t l).tSum = 0 ∧ (link t l).tCnt = 0
    ∧ ((link s l).latValid = false → (link s l).ests.length < 3 →
        (link t l).ests = estimate s l :: (link s l).ests ∧ (link t l).latValid = false)
    ∧ (∀ e1 e2 e3 rest, (link s l).latValid = false → (link s l).ests = e1 :: e2 :: e3 :: rest →
        max (estimate s l) (max e1 (max e2 e3)) - min (estimate s l) (min e1 (min e2 e3)) ≤ 400 * unitsPerPs →
        (link t l).latValid = true ∧ (link t l).dU = (estimate s l + e1 + e2 + e3) / 4)
    ∧ ((link s l).latValid = true → (link s l).unstableRun < 15 → (link t l).latValid = true
        ∧ (link t l).dU = slewed (link s l) s.tick (estimate s l)) := by
  obtain ⟨b, rtt, turn, hx⟩ := link_latencyUpdate hs hd hc
  obtain ⟨hsum, hcnt, hests, hval, hdU⟩ := averaged_keeps rtt turn b
    (link (if (link s l).latValid then latTrack l (estimate s l) s else latAcquire l (estimate s l) s) l)
  dsimp only
  rw [hx]
  refine ⟨hsum, hcnt, fun hv hlen => ?_, fun e1 e2 e3 rest hv he hle => ?_, fun hv hr => ?_⟩
  · rw [hests, hval, hv, if_neg (by decide), latAcquire_short _ hlen, link_modLink_self]
    exact ⟨rfl, hv⟩
  · obtain ⟨ofs, ha⟩ := latAcquire_full he hle
    rw [hval, hdU, hv, if_neg (by decide), ha, link_modLink_self]
    exact acquired_keeps ..
  · obtain ⟨run, off, ha⟩ := latTrack_stable (estimate s l) hr
    rw [hval, hdU, hv, if_pos rfl, ha, link_modLink_self]
    obtain ⟨h1, h2⟩ := tracked_keeps (slewed (link s l) s.tick (estimate s l)) run off s.tick (link s l)
    exact ⟨h1.trans hv, h2⟩

theorem echoLoss_spec (hl : l < 38) (h : 64 ≤ (link s l).echoMiss) : let t := doEchoLoss l s
    (link t l).latValid = false ∧ (link t l).dU = (link s l).dU ∧ (link t l).st = (link s l).st
    ∧ ((link s l).latValid = true → (link s l).st = .linked → bit (rd t (aLink l 0x10C)) 3 = true) := by
  have e : doEchoLoss l s = latClear true l s := if_pos h
  obtain ⟨b, hb⟩ := rangeNow_of_core (link_latClear_self s true l)
  obtain ⟨hv, -, -, hst, -, hdU⟩ := latOff_spec (link s l)
  dsimp only
  rw [e, hb]
  exact ⟨hv, hdU, hst, bit_latClear_lost s hl⟩

/-- A link whose ASYM_TRIM waits for the next superframe. -/
noncomputable def trimWaits (w : Word) (x : Link) : Link := { x with trimPend := some (sgn 16 (fld w 0 16)) }

theorem doAsymTrimWrite_links (v : Word) : (doAsymTrimWrite l v s).links = (modLink l (trimWaits (clampReg (aLink l 0x104) v)) s).links := by
  have h : (clampSeen (aLink l 0x104) v s).links = s.links := kept_clampSeen (kept_same .links rfl s) _ _ _ rfl
  unfold doAsymTrimWrite
  rw [modLink_links, wr_links, h]
  rfl

theorem rd_doAsymTrimWrite (v : Word) : rd (doAsymTrimWrite l v s) (aLink l 0x104) = clampReg (aLink l 0x104) v := by
  unfold doAsymTrimWrite
  rw [rd_modLink, rd_wr, if_pos rfl]

end

/-- Settles O23: an average that is complete, echoes that are missing, and a write of ASYM_TRIM. -/
theorem latency : Obligations.Latency := by
  refine ⟨fun l s hs hd hc => ⟨_, rfl, latencyUpdate_spec hs hd hc⟩, fun l s h => ⟨_, rfl, echoLoss_spec l.isLt h⟩,
    fun l v s => ⟨_, rfl, rd_doAsymTrimWrite v, ?_, fun k hk => ?_⟩⟩
  · rw [link_of_links (doAsymTrimWrite_links v), link_modLink_self, link_hostAccess]
    rfl
  · rw [link_of_links (doAsymTrimWrite_links v), link_modLink_ne _ _ hk, link_hostAccess]

end Sys2Proof.Links
end

section
-- One proof after another: the check compiles the whole text in one process, and memory is short.
set_option Elab.async false
/-! Chapter 5: the cell end (R136 to R145, R153) and GRID (R156). -/

namespace Sys2Proof.Cells

open Sys2Proof Sys2Proof.Machine Sys2Proof.Laws Sys2Proof.Conversion Sys2Proof.Rules Sys2Proof.Control Sys2Proof.Commits Sys2Proof.Links

/-! Messages to a cell end. -/

section
variable {l : Nat} {s : State}

theorem cell_modCell (f : CellEnd → CellEnd) : (link (modCell l f s) l).cell = f (link s l).cell := by
  rw [modCell, link_modLink_self]

theorem others_modCell (f : CellEnd → CellEnd) : Others l s (modCell l f s) := others_modLink l _ s

theorem hear_deaf (m : Msg) (h : cellHears s l = false) : hear l m s = s := by simp [hear, h]

theorem hear_late (m : Msg) (h : tooLate (link s l).cell m = true) : hear l m s = s := by simp [hear, h]

theorem hear_held (m : Msg) (h : cellHears s l = true) (ht : tooLate (link s l).cell m = false) :
    hear l m s = modCell l (fun c => { c with held := holdMsg m c.held }) s := by simp [hear, h, ht]

theorem others_hear (m : Msg) : Others l s (hear l m s) :=
  holds_if (P := Others l s) (fun _ => others_modCell _) (fun _ => others_refl l s)

/-- A message for the whole of a period is too late from its boundary on. -/
theorem tooLate_full {c : CellEnd} {m : Msg} (h : isHalf m = false) : tooLate c m = true ↔ c.curTag = some (msgTag m) := by
  simp [tooLate, h]

theorem not_tooLate_half {c : CellEnd} {m : Msg} (h : isHalf m = true) : tooLate c m = false := by simp [tooLate, h]

/-- A message other than a HALF one joins those held unless its boundary has passed. -/
theorem hear_full {m : Msg} (hm : isHalf m = false) :
    (cellHears s l = false ∨ (link s l).cell.curTag = some (msgTag m) → hear l m s = s)
    ∧ (cellHears s l = true → (link s l).cell.curTag ≠ some (msgTag m) →
        (link (hear l m s) l).cell = { (link s l).cell with held := holdMsg m (link s l).cell.held }) := by
  refine ⟨fun h => h.elim (hear_deaf m) (fun h => hear_late m ((tooLate_full hm).mpr h)), fun h ht => ?_⟩
  rw [hear_held m h (by simpa using mt (tooLate_full hm).mp ht), cell_modCell]

theorem doEdge_spec (ptag sw : Nat) (start half : Bool) (coarse fine : List Nat) :
    let t := doEdge l ptag sw start half coarse fine s
    (cellHears s l = false ∨ fld (link s l).partnerCap 8 4 ≤ sw → t = s)
    ∧ (cellHears s l = true → sw < fld (link s l).partnerCap 8 4 →
        (link t l).cell = (if half = true ∧ (link s l).cell.midTag = some ptag then { (link s l).cell with lateHalf := true }
          else if half = false ∧ (link s l).cell.curTag = some ptag then (link s l).cell
          else { (link s l).cell with held := holdMsg (.edge ptag sw start half coarse fine) (link s l).cell.held }))
    ∧ Others l s t := by
  dsimp only
  unfold doEdge
  refine ⟨fun h => ?_, fun hh hs => ?_, ?_⟩
  · rcases h with h | h
    · rw [h, Bool.false_and, if_neg Bool.false_ne_true, hear_deaf _ h, ite_self]
    · exact if_neg (by lia)
  · rw [if_pos hs, hh, Bool.true_and]
    cases half with
    | true =>
      by_cases hm : (link s l).cell.midTag = some ptag
      · rw [if_pos (by simp [halfLate, hm]), if_pos ⟨rfl, hm⟩, cell_modCell]
      · rw [if_neg (by simp [halfLate, hm]), if_neg (fun h => hm h.2), if_neg (fun h => by simp at h),
          hear_held _ hh (not_tooLate_half rfl), cell_modCell]
    | false =>
      rw [if_neg (by simp [halfLate]), if_neg (fun h => by simp at h)]
      obtain ⟨hlate, hheld⟩ := hear_full (l := l) (s := s) (m := .edge ptag sw start false coarse fine) rfl
      by_cases hc : (link s l).cell.curTag = some ptag
      · rw [if_pos ⟨rfl, hc⟩, hlate (.inr hc)]
      · rw [if_neg (fun h => hc h.2), hheld hh hc]
  · exact holds_if (P := Others l s) (fun _ => holds_if (P := Others l s) (fun _ => others_modCell _) (fun _ => others_hear _))
      (fun _ => others_refl l s)

/-- A cell end that has had a BOUNDARY. -/
noncomputable def bounded (c : CellEnd) : CellEnd := { c with haveBoundary := true, blocked := c.blocked && decide (c.cleanRun < 4) }

theorem bounded_held (h : List Msg) (c : CellEnd) : bounded { c with held := h } =
    { c with held := h, haveBoundary := true, blocked := c.blocked && decide (c.cleanRun < 4) } := rfl

theorem doBoundary_spec (ptag m o of d df : Nat) : let t := doBoundary l ptag m o of d df s
    (cellHears s l = false → t = s)
    ∧ (cellHears s l = true → (link t l).cell = { (link s l).cell with
        held := if (link s l).cell.curTag = some ptag then (link s l).cell.held
          else holdMsg (.boundary ptag m o of d df) (link s l).cell.held
        haveBoundary := true, blocked := (link s l).cell.blocked && decide ((link s l).cell.cleanRun < 4) })
    ∧ Others l s t := by
  obtain ⟨hlate, hheld⟩ := hear_full (l := l) (s := s) (m := .boundary ptag m o of d df) rfl
  dsimp only
  unfold doBoundary
  refine ⟨fun h => ?_, fun h => ?_, ?_⟩
  · rw [h, if_neg Bool.false_ne_true, hlate (.inl h)]
  · have e : (link (if cellHears s l then modCell l bounded (hear l (.boundary ptag m o of d df) s)
        else hear l (.boundary ptag m o of d df) s) l).cell = bounded (link (hear l (.boundary ptag m o of d df) s) l).cell := by
      rw [if_pos h, cell_modCell]
    refine e.trans ?_
    by_cases hc : (link s l).cell.curTag = some ptag
    · rw [hlate (.inr hc), if_pos hc]
      rfl
    · rw [hheld h hc, if_neg hc, bounded_held]
  · exact holds_if (P := Others l s) (fun _ => others_trans (others_hear _) (others_modCell _)) (fun _ => others_hear _)

/-- The answer to a DIAG stands in the cell end. -/
noncomputable def diagTaken (twice : Bool) (cap : Word) (op tag result : Nat) (gone : Bool) (c : CellEnd) : CellEnd :=
  let a := diagAnswer cap c op result gone
  let clear := bit cap 26 && cellDown c && op == 2 && gone
  { c with diagOut := c.diagOut ++ [(op, tag, a.1, a.2)], diagSeen := if twice then some tag else none
           faults := if clear then 0 else c.faults, dsat := if clear then 0 else c.dsat }

theorem doDiag_spec (op tag r : Nat) (gone : Bool) : let t := doDiag l op tag r gone s
    (cellHears s l = false → t = s)
    ∧ (let copy := bit (rd s (aLink l 0x100)) 0 && (link s l).cell.diagSeen == some tag
       let a := diagAnswer (link s l).partnerCap (link s l).cell op r gone
       let clears := bit (link s l).partnerCap 26 && cellDown (link s l).cell && op == 2 && gone
       (cellHears s l = true → copy = true → (link t l).cell = { (link s l).cell with diagSeen := none })
       ∧ (cellHears s l = true → copy = false →
          (link t l).cell.diagOut = (link s l).cell.diagOut ++ [(op, tag, a.1, a.2)]
          ∧ (link t l).cell.faults = (if clears then 0 else (link s l).cell.faults)
          ∧ (link t l).cell.dsat = (if clears then 0 else (link s l).cell.dsat)))
    ∧ Others l s t := by
  dsimp only
  unfold doDiag
  dsimp only
  refine ⟨fun h => ?_, ⟨fun h hc => ?_, fun h hc => ?_⟩, ?_⟩
  · rw [h]
    exact if_pos rfl
  · rw [h, Bool.not_true, if_neg Bool.false_ne_true, hc, if_pos rfl, cell_modCell]
  · have e : (link (modCell l (diagTaken (bit (rd s (aLink l 0x100)) 0) (link s l).partnerCap op tag r gone) s) l).cell = _ :=
      cell_modCell _
    rw [h, Bool.not_true, if_neg Bool.false_ne_true, hc, if_neg Bool.false_ne_true]
    refine ⟨?_, ?_, ?_⟩
    · exact (congrArg CellEnd.diagOut e).trans rfl
    · exact (congrArg CellEnd.faults e).trans rfl
    · exact (congrArg CellEnd.dsat e).trans rfl
  · refine holds_if (P := Others l s) (fun _ => others_refl l s) (fun _ => ?_)
    exact holds_if (P := Others l s) (fun _ => others_modCell _) (fun _ => others_modCell _)

end

theorem beq_toNat_two (b : Byte) : (b.toNat == 2) = (b == 2) := by
  rw [Bool.eq_iff_iff, beq_iff_eq, beq_iff_eq, ← BitVec.toNat_inj]
  rfl

/-- Settles O24, message by message. -/
theorem cellMessages : Obligations.CellMessages := by
  refine ⟨fun l ptag sw start half co fi s => ?_, fun l ptag m o of d df s => ?_, fun l ptag o s => ?_, fun l ptag b s => ?_,
    fun l op tag r gone s => ?_⟩
  · obtain ⟨h1, h2, h3⟩ := doEdge_spec (l := l) (s := s) ptag.toNat sw start half co fi
    exact ⟨_, rfl, h1, h2, h3, exec_unchangedBut (.edge l ptag sw start half co fi) s _ rfl⟩
  · obtain ⟨h1, h2, h3⟩ := doBoundary_spec (l := l) (s := s) ptag.toNat m.toNat o of d df
    exact ⟨_, rfl, h1, h2, h3, exec_unchangedBut (.boundary l ptag m o of d df) s _ rfl⟩
  · obtain ⟨h1, h2⟩ := hear_full (l := l) (s := s) (m := .sample ptag.toNat o.toNat) rfl
    exact ⟨_, rfl, h1, h2, others_hear _, exec_unchangedBut (.sample l ptag o) s _ rfl⟩
  · obtain ⟨h1, h2⟩ := hear_full (l := l) (s := s) (m := .supply ptag.toNat b) rfl
    exact ⟨_, rfl, h1, h2, others_hear _, exec_unchangedBut (.supply l ptag b) s _ rfl⟩
  · obtain ⟨h1, h2, h3⟩ := doDiag_spec (l := l) (s := s) op.toNat tag.toNat r.toNat gone
    rw [beq_toNat_two] at h2
    exact ⟨_, rfl, h1, h2, h3, exec_unchangedBut (.diag l op tag r gone) s _ rfl⟩

/-! Faults at a cell end. -/

/-- A cell end that blocks. -/
noncomputable def cellBlocks (loss : Bool) (c : CellEnd) : CellEnd :=
  if loss then { cellOff c with held := [], prevEdges := [], halfEdges := [], clockLost := true, farLoop := false } else cellOff c

theorem cellBlocks_spec (loss : Bool) (c : CellEnd) : (cellBlocks loss c).levels = 0 ∧ (cellBlocks loss c).blocked = true
    ∧ (cellBlocks loss c).cleanRun = 0 ∧ (cellBlocks loss c).faults = c.faults
    ∧ (cellBlocks loss c).clockLost = (loss || c.clockLost) := by
  cases loss <;> exact ⟨rfl, rfl, rfl, rfl, rfl⟩

/-- A cell end whose period is incomplete. -/
noncomputable def cellMisses (c : CellEnd) : CellEnd :=
  if c.missed then { cellOff c with cmdMiss := true, faults := c.faults ||| 16, k3Run := 4 } else { c with missed := true, cmdMiss := true }

theorem cellMisses_spec (c : CellEnd) : (cellMisses c).cmdMiss = true
    ∧ (c.missed = false → (cellMisses c).missed = true ∧ (cellMisses c).faults = c.faults ∧ (cellMisses c).blocked = c.blocked)
    ∧ (c.missed = true → (cellMisses c).levels = 0 ∧ (cellMisses c).blocked = true ∧ (cellMisses c).faults = c.faults ||| 16
      ∧ (cellMisses c).k3Run = 4) := by
  unfold cellMisses
  cases c.missed with
  | true => exact ⟨rfl, fun h => by simp at h, fun _ => ⟨rfl, rfl, rfl, rfl⟩⟩
  | false => exact ⟨rfl, fun _ => ⟨rfl, rfl, rfl⟩, fun h => by simp at h⟩

/-- Settles O25, by what each row makes of the cell end. -/
theorem cellFaults : Obligations.CellFaults := by
  refine ⟨fun l loss s => ?_, fun l faults dsat s => ?_, fun l s => ?_⟩
  · obtain ⟨h1, h2, h3, h4, h5⟩ := cellBlocks_spec loss (link s l).cell
    have e : (link (doCellBlock l loss s) l).cell = cellBlocks loss (link s l).cell := cell_modCell _
    rw [← e] at h1 h2 h3 h4 h5
    exact ⟨_, rfl, h1, h2, h3, h4, h5, others_modCell _, exec_unchangedBut (.cellBlock l loss) s _ rfl⟩
  · exact ⟨_, rfl, cell_modCell _, others_modCell _, exec_unchangedBut (.cellFaultLatch l faults dsat) s _ rfl⟩
  · obtain ⟨h1, h2, h3⟩ := cellMisses_spec (link s l).cell
    have e : (link (doIncompletePeriod l s) l).cell = cellMisses (link s l).cell := cell_modCell _
    rw [← e] at h1 h2 h3
    exact ⟨_, rfl, h1, h2, h3, others_modCell _, exec_unchangedBut (.incompletePeriod l) s _ rfl⟩

/-! GRID. -/

section
variable {port cg n off per : Nat} {s : State}

/-- A group that a GRID message reaches: its period and the instant of its boundary. -/
noncomputable def gridTold (per at_ : Nat) (x : Group) : Group := { x with gridPeriod := some per, gridAt := some at_ }

/-- GRID relayed by port 1 to port 0. -/
noncomputable def gridRelay (port : Nat) (m : GridMsg) (at_ : Nat) (s : State) : State :=
  if port = 1 ∧ (link s 36).st = .linked ∧ wzInbound s 36 = false then
    modLink 36 (fun x => { x with gridq := x.gridq ++ [(m, at_)] }) s
  else s

/-- What a GRID message does to its group. -/
noncomputable def gridGroup (port cg n at_ per : Nat) (s : State) : State :=
  let last := (n + 2 ^ 32 - 1) % 2 ^ 32
  if (group s cg).started then modGroup cg (fun x => { x with
      gridPeriod := some per, gridAt := some at_, boundary := x.boundary / 2 ^ 32 * 2 ^ 32 + last }) s
  else if (group s cg).gridBad then s
  else if per = fld (fo s (aCgPeriod cg)) 0 24 then modGroup cg (gridTold per at_) (groupCreate cg last (at_ - 16 * per) s)
  else protoStick (36 + port) 6 (modGroup cg (fun x => { x with gridBad := true }) s)

theorem doGrid_eq (hr : s.damask.wzRole = 2) (hv : s.damask.imageValid = true) (hp : s.present.testBit cg = true)
    (hw : wzInbound s (36 + port) = true) : doGrid port cg n off per s =
      gridRelay port { cg := cg, bcount := n, period := per } (100 * s.tick + off) (gridGroup port cg n (100 * s.tick + off) per s) := by
  unfold doGrid gridGroup
  dsimp only
  rw [hr, hv, hw, hp, if_neg (by decide), if_neg (by decide)]
  split
  · rfl
  · split
    · rfl
    · split <;> rfl

theorem group_gridRelay (m : GridMsg) (at_ : Nat) (k : Nat) : group (gridRelay port m at_ s) k = group s k :=
  holds_if (P := fun t => group t k = group s k) (fun _ => rfl) (fun _ => rfl)

theorem rd_gridRelay (m : GridMsg) (at_ : Nat) (a : Nat) : rd (gridRelay port m at_ s) a = rd s a :=
  holds_if (P := fun t => rd t a = rd s a) (fun _ => rfl) (fun _ => rfl)

theorem gridGroup_spec (hp : port < 2) (at_ : Nat) : let t := gridGroup port cg n at_ per s
    ((group s cg).started = false → (group s cg).gridBad = false → per = fld (fo s (aCgPeriod cg)) 0 24 →
        (group t cg).started = true ∧ (group t cg).boundary = (n + 2 ^ 32 - 1) % 2 ^ 32
        ∧ (group t cg).gridPeriod = some per ∧ (group t cg).gridAt = some at_)
    ∧ ((group s cg).started = false → (group s cg).gridBad = false → per ≠ fld (fo s (aCgPeriod cg)) 0 24 →
        (group t cg).started = false ∧ (group t cg).gridBad = true ∧ bit (rd t (aLink (36 + port) 0x10C)) 6 = true)
    ∧ ((group s cg).started = true → (group t cg).started = true ∧ (group t cg).gridPeriod = some per
        ∧ (group t cg).gridAt = some at_ ∧ (group t cg).boundary % 2 ^ 32 = (n + 2 ^ 32 - 1) % 2 ^ 32) := by
  dsimp only
  unfold gridGroup
  dsimp only
  refine ⟨fun hs hb he => ?_, fun hs hb he => ?_, fun hs => ?_⟩
  · rw [hs, if_neg Bool.false_ne_true, hb, if_neg Bool.false_ne_true, if_pos he, group_modGroup_self, groupCreate, group_modGroup_self]
    exact ⟨rfl, rfl, rfl, rfl⟩
  · rw [hs, if_neg Bool.false_ne_true, hb, if_neg Bool.false_ne_true, if_neg he]
    refine ⟨?_, ?_, bit_protoStick _ (by lia) (by decide)⟩
    all_goals rw [group_of_groups (kept_protoStick (kept_same .groups rfl _) _ _ _ rfl), group_modGroup_self]
    exact hs
  · rw [hs, if_pos rfl, group_modGroup_self]
    refine ⟨hs, rfl, rfl, ?_⟩
    dsimp only
    lia

theorem groups_gridGroup (at_ : Nat) {k : Nat} (hk : k ≠ cg) : group (gridGroup port cg n at_ per s) k = group s k := by
  unfold gridGroup
  refine holds_if (P := fun t => group t k = group s k) (fun _ => group_modGroup_ne _ _ hk) (fun _ => ?_)
  refine holds_if (P := fun t => group t k = group s k) (fun _ => rfl) (fun _ => ?_)
  refine holds_if (P := fun t => group t k = group s k) (fun _ => ?_) (fun _ => ?_)
  · exact (group_modGroup_ne _ _ hk).trans (group_modGroup_ne _ _ hk)
  · exact (group_of_groups (kept_protoStick (kept_same .groups rfl _) _ _ _ rfl) k).trans (group_modGroup_ne _ _ hk)

theorem gridGroup_links (at_ : Nat) : (gridGroup port cg n at_ per s).links = s.links := by
  unfold gridGroup
  refine holds_if (P := fun t => t.links = s.links) (fun _ => rfl) (fun _ => ?_)
  refine holds_if (P := fun t => t.links = s.links) (fun _ => rfl) (fun _ => ?_)
  exact holds_if (P := fun t => t.links = s.links) (fun _ => rfl) (fun _ => protoStick_links _ _ _)

theorem rd_gridGroup (hp : port < 2) (at_ : Nat) {a : Nat} (hi : ¬ intReg a) (ha : a ≠ aLink (36 + port) 0x10C) :
    rd (gridGroup port cg n at_ per s) a = rd s a := by
  unfold gridGroup
  refine holds_if (P := fun t => rd t a = rd s a) (fun _ => rfl) (fun _ => ?_)
  refine holds_if (P := fun t => rd t a = rd s a) (fun _ => rfl) (fun _ => ?_)
  exact holds_if (P := fun t => rd t a = rd s a) (fun _ => rfl) (fun _ => rd_protoStick_ne _ 6 (by lia) hi ha)

end

/-- Settles O26: the group takes the message, and port 1 relays it. -/
theorem gridMessage : Obligations.GridMessage := by
  intro port cg n o f per s hr hv hpr hw
  obtain ⟨h1, h2, h3⟩ := gridGroup_spec (port := port) (cg := cg) (n := n.toNat) (per := per.toNat) (s := s) port.isLt
    (100 * s.tick + (16 * o.toNat + f.val))
  refine ⟨_, congrArg Host.Outcome.next (doGrid_eq hr hv hpr hw), ?_, ?_, ?_, fun hp hs hi => ?_, fun g hg => ?_⟩
  · simpa only [group_gridRelay] using h1
  · simpa only [group_gridRelay, rd_gridRelay] using h2
  · simpa only [group_gridRelay] using h3
  · have hx : link (gridGroup port cg n.toNat (100 * s.tick + (16 * o.toNat + f.val)) per.toNat s) 36 = link s 36 :=
      link_of_links (gridGroup_links _) 36
    have hc : wzInbound (gridGroup port cg n.toNat (100 * s.tick + (16 * o.toNat + f.val)) per.toNat s) 36 = false := by
      rw [← hi, wzInbound, wzInbound, linkCfg, linkCfg, rd_gridGroup port.isLt _ (not_intReg_aLink (by decide) (by decide))
        (aLink_ne (by decide) (by lia) (by decide) (by decide) (by decide))]
    rw [gridRelay, if_pos ⟨congrArg Fin.val hp, by rw [hx]; exact hs, hc⟩, link_modLink_self, hx]
  · rw [group_gridRelay]
    exact groups_gridGroup _ hg

end Sys2Proof.Cells
end

section
-- One proof after another: the check compiles the whole text in one process, and memory is short.
set_option Elab.async false
/-! Chapter 3: the clock root (R82 to R100). -/

namespace Sys2Proof.Clocks

open Sys2Proof Sys2Proof.Machine Sys2Proof.Laws Sys2Proof.Conversion Sys2Proof.Rules Sys2Proof.Control Sys2Proof.Commits Sys2Proof.Links

/-! Fields of a word, bits of CLK_STATUS, and the registers of the clock root. -/

theorem fld_putFld_ne (w : Word) {lo len v lo' len' : Nat} (h : lo' + len' ≤ 32) (hd : lo' + len' ≤ lo ∨ lo + len ≤ lo') :
    fld (putFld w lo len v) lo' len' = fld w lo' len' := by
  refine Nat.eq_of_testBit_eq fun k => ?_
  rw [testBit_fld, testBit_fld]
  by_cases hk : k < len'
  · rw [bit_putFld w (by lia), if_neg (by lia)]
  · simp [hk]

theorem bit_putFld_one (w : Word) {b k : Nat} (v : Bool) (hk : k < 32) :
    bit (putFld w b 1 (b2n v)) k = if k = b then v else bit w k := by
  rw [bit_putFld w hk]
  by_cases h : k = b
  · subst h
    rw [if_pos ⟨by lia, by lia⟩, if_pos rfl, Nat.sub_self]
    cases v <;> rfl
  · rw [if_neg (by lia), if_neg h]

/-- A register of the clock root. -/
theorem not_intReg_clk {a : Nat} (h : 0x10000 ≤ a) (h' : a < 0x20000) : ¬ intReg a := by
  unfold intReg
  lia

section
variable (s : State)

theorem clkBit_setClk {b k : Nat} (v : Bool) (hk : k < 32) : clkBit (setClk b v s) k = if k = b then v else clkBit s k := by
  rw [clkBit, setClk, rd_wr_self, bit_putFld_one _ v hk, clkBit]

theorem rd_setClk_ne {a : Nat} (b : Nat) (v : Bool) (h : a ≠ aClkStatus) : rd (setClk b v s) a = rd s a := rd_wr_ne _ _ h

theorem clkBit_of_rd {s t : State} (h : rd t aClkStatus = rd s aClkStatus) (b : Nat) : clkBit t b = clkBit s b := by
  rw [clkBit, h, clkBit]

theorem rd_clkStick_ne {a : Nat} (b : Nat) (hi : ¬ intReg a) (h : a ≠ aClkSticky) : rd (clkStick b s) a = rd s a := by
  unfold clkStick
  split
  · rfl
  · exact rd_stick_ne s _ _ (by rintro _ ⟨rfl⟩; decide) hi h

theorem bit_clkStick {b : Nat} (hb : b < 32) : bit (rd (clkStick b s) aClkSticky) b = true := by
  unfold clkStick
  split
  · assumption
  · exact bit_stick s b _ (by rintro _ ⟨rfl⟩; decide) (not_intReg_clk (by decide) (by decide)) hb

theorem clkBit_clkStick (b k : Nat) : clkBit (clkStick b s) k = clkBit s k :=
  clkBit_of_rd (rd_clkStick_ne s b (not_intReg_clk (by decide) (by decide)) (by decide)) k

theorem rd_setServo (x : ServoState) {a : Nat} (hi : ¬ intReg a) : rd (setServo x s) a = rd s a := by
  unfold setServo
  split
  · rfl
  · exact rd_irq _ _ _ (by decide) hi

theorem setServo_clock (x : ServoState) : (setServo x s).clock = s.clock := kept_setServo (kept_same .clock rfl s) x s rfl

theorem setServo_servo (x : ServoState) : (setServo x s).time.servo = x := by
  unfold setServo
  split
  · assumption
  · exact (irq_sec _ 104).2.2

theorem rd_refBack_ne {a : Nat} (hi : ¬ intReg a) (ha : a ≠ aClkStatus) : rd (refBack s) a = rd s a := by
  have h := rd_setClk_ne s 2 true ha
  exact holds_if (P := fun t => rd t a = rd s a) (fun _ => (rd_setServo _ _ hi).trans h) (fun _ => h)

theorem rd_refBack_status : rd (refBack s) aClkStatus = rd (setClk 2 true s) aClkStatus :=
  holds_if (P := fun t => rd t aClkStatus = rd (setClk 2 true s) aClkStatus)
    (fun _ => rd_setServo _ _ (not_intReg_clk (by decide) (by decide))) (fun _ => rfl)

theorem clkBit_refBack {k : Nat} (hk : k < 32) : clkBit (refBack s) k = if k = 2 then true else clkBit s k := by
  rw [clkBit_of_rd (rd_refBack_status s), clkBit_setClk s true hk]

theorem refBack_clock : (refBack s).clock = { s.clock with refGone := false } :=
  holds_if (P := fun t => t.clock = { s.clock with refGone := false }) (fun _ => setServo_clock _ _) (fun _ => rfl)

/-! Detection and locks (R83, R93). -/

/-- REF_FREQ takes the code and REF_UNSUPPORTED clears; the reference then counts as back. -/
noncomputable def refFound (hz c : Nat) (s : State) : State :=
  modClock (fun k => { k with refHz := hz }) (setClk 5 false (wr aClkStatus (putFld (rd s aClkStatus) 3 2 c) s))

theorem doRefclkDetect_good {hz c : Nat} (ho : s.clock.rootOnce = false) (h : refCode hz = some c) :
    ∃ p, doRefclkDetect hz s = refBack (refFound hz c { s with power := p }) := by
  unfold doRefclkDetect
  rw [ho, h, if_neg Bool.false_ne_true]
  dsimp only
  split
  · exact ⟨_, rfl⟩
  · exact ⟨s.power, rfl⟩

theorem doRefclkDetect_bad {hz : Nat} (ho : s.clock.rootOnce = false) (h : refCode hz = none) :
    doRefclkDetect hz s = modPower (fun p => { p with inReset := true }) (setClk 5 true s) := by
  unfold doRefclkDetect
  rw [ho, h, if_neg Bool.false_ne_true]

theorem refFound_spec (hz c : Nat) : clkBit (refFound hz c s) 5 = false
    ∧ fld (rd (refFound hz c s) aClkStatus) 3 2 = c % 4 ∧ (refFound hz c s).clock.refHz = hz
    ∧ ∀ a, a ≠ aClkStatus → rd (refFound hz c s) a = rd s a := by
  refine ⟨?_, ?_, rfl, fun a ha => ?_⟩
  · exact (clkBit_setClk _ false (by decide)).trans (if_pos rfl)
  · unfold refFound
    rw [rd_modClock, setClk, rd_wr_self, fld_putFld_ne _ (by decide) (by decide), rd_wr_self, fld_putFld _ (by decide)]
    rfl
  · exact (rd_setClk_ne _ 5 false ha).trans (rd_wr_ne _ _ ha)

theorem refclkDetect_good {hz c : Nat} (ho : s.clock.rootOnce = false) (h : refCode hz = some c) : let t := doRefclkDetect hz s
    (clkBit t 2 = true ∧ clkBit t 5 = false ∧ fld (rd t aClkStatus) 3 2 = c % 4 ∧ t.clock.refHz = hz)
    ∧ regsBut (fun a => a = aClkStatus) s t := by
  obtain ⟨p, e⟩ := doRefclkDetect_good s ho h
  obtain ⟨h5, hf, hz', hr⟩ := refFound_spec { s with power := p } hz c
  dsimp only
  rw [e]
  refine ⟨⟨(clkBit_refBack _ (by decide)).trans (if_pos rfl), (clkBit_refBack _ (by decide)).trans h5, ?_, ?_⟩, fun a ha hi => ?_⟩
  · rw [rd_refBack_status, setClk, rd_wr_self, fld_putFld_ne _ (by decide) (by decide), hf]
  · rw [refBack_clock]
    exact hz'
  · exact (rd_refBack_ne _ hi ha).trans (hr a ha)

theorem refclkDetect_bad {hz : Nat} (ho : s.clock.rootOnce = false) (h : refCode hz = none) : let t := doRefclkDetect hz s
    (clkBit t 5 = true ∧ t.power.inReset = true) ∧ regsBut (fun a => a = aClkStatus) s t := by
  dsimp only
  rw [doRefclkDetect_bad s ho h]
  exact ⟨⟨(clkBit_setClk s true (by decide)).trans (if_pos rfl), rfl⟩, fun a ha _ => rd_setClk_ne s 5 true ha⟩

/-- A PLL that has locked. -/
noncomputable def onceLocked (m : Bool) (k : Clock) : Clock := if m then { k with mOnce := true } else { k with rootOnce := true }

theorem lockPll_eq (m : Bool) : lockPll m s =
    if (if m then s.clock.mOnce else s.clock.rootOnce) then cntUp aLockEvent 1 (modClock (onceLocked m) (setClk (if m then 1 else 0) true s))
    else modClock (onceLocked m) (setClk (if m then 1 else 0) true s) := rfl

theorem lockPll_clock (m : Bool) : (lockPll m s).clock = onceLocked m s.clock := by
  rw [lockPll_eq]
  exact holds_if (P := fun t => t.clock = onceLocked m s.clock) (fun _ => rfl) (fun _ => rfl)

theorem rd_lockPll_status (m : Bool) : rd (lockPll m s) aClkStatus = rd (setClk (if m then 1 else 0) true s) aClkStatus := by
  rw [lockPll_eq]
  exact holds_if (P := fun t => rd t aClkStatus = rd (setClk (if m then 1 else 0) true s) aClkStatus)
    (fun _ => rd_cntUp_ne _ 1 (by decide)) (fun _ => rfl)

theorem clkBit_lockPll (m : Bool) {k : Nat} (hk : k < 32) :
    clkBit (lockPll m s) k = if k = (if m then 1 else 0) then true else clkBit s k := by
  rw [clkBit_of_rd (rd_lockPll_status s m), clkBit_setClk s true hk]

theorem regsBut_lockPll (m : Bool) : regsBut (fun a => a = aClkStatus ∨ a = aLockEvent) s (lockPll m s) := by
  intro a ha _
  have h := rd_setClk_ne s (if m then 1 else 0) true (fun e => ha (.inl e))
  rw [lockPll_eq]
  exact holds_if (P := fun t => rd t a = rd s a) (fun _ => (rd_cntUp_ne _ 1 (fun e => ha (.inr e))).trans h) (fun _ => h)

theorem rd_lockPll_first (m : Bool) (h : (if m then s.clock.mOnce else s.clock.rootOnce) = false) :
    rd (lockPll m s) aLockEvent = rd s aLockEvent := by
  rw [lockPll_eq, h, if_neg Bool.false_ne_true]
  exact rd_setClk_ne s _ true (by decide)

theorem rd_lockPll_later (m : Bool) (h : (if m then s.clock.mOnce else s.clock.rootOnce) = true)
    (hn : (rd s aLockEvent).toNat + 1 < 2 ^ 32) : rd (lockPll m s) aLockEvent = wd ((rd s aLockEvent).toNat + 1) := by
  have e : rd (modClock (onceLocked m) (setClk (if m then 1 else 0) true s)) aLockEvent = rd s aLockEvent :=
    rd_setClk_ne s _ true (by decide)
  rw [lockPll_eq, h, if_pos rfl, rd_cntUp_self _ (by rw [e]; exact hn), e]

/-- What a lock in the sequence of R93 does. -/
theorem lockPll_spec (m : Bool) : clkBit (lockPll m s) (if m then 1 else 0) = true
    ∧ (lockPll m s).clock = (if m then { s.clock with mOnce := true } else { s.clock with rootOnce := true })
    ∧ ((if m then s.clock.mOnce else s.clock.rootOnce) = false → rd (lockPll m s) aLockEvent = rd s aLockEvent)
    ∧ ((if m then s.clock.mOnce else s.clock.rootOnce) = true → (rd s aLockEvent).toNat + 1 < 2 ^ 32 →
        rd (lockPll m s) aLockEvent = wd ((rd s aLockEvent).toNat + 1))
    ∧ regsBut (fun a => a = aClkStatus ∨ a = aLockEvent) s (lockPll m s) ∧ unchangedBut [.regs, .events, .clock] s (lockPll m s) :=
  ⟨(clkBit_lockPll s m (by cases m <;> decide)).trans (if_pos rfl), lockPll_clock s m, rd_lockPll_first s m, rd_lockPll_later s m,
    regsBut_lockPll s m, kept_lockPll (kept_unchangedBut _ s).toKeptDev.toKept m s (unchangedBut_refl _ s)⟩

theorem doRootLock_eq (h0 : clkBit s 0 = false) (h2 : clkBit s 2 = true) (hr : s.clock.released = false)
    (hn : refSrc s ≠ 0 ∨ refNear s = true) : doRootLock s = lockPll false s := by
  unfold doRootLock
  rw [h0, h2, hr]
  refine if_neg ?_
  rcases hn with h | h <;> simp [h]

theorem doMLock_eq (h1 : clkBit s 1 = false) (h0 : clkBit s 0 = true) (hr : s.clock.released = false) : doMLock s = lockPll true s := by
  unfold doMLock
  rw [h1, h0, hr]
  rfl

/-- The clock at the divider release. -/
noncomputable def releasedClock (s : State) (k : Clock) : Clock := { k with
  released := true, releaseAt := s.tick, fineOff := [], origins := 0
  segs := if clkBit s 7 then [{ start := s.tick, cfg := rd s aSscState }] else [] }

theorem doDividerRelease_eq (h0 : clkBit s 0 = true) (h1 : clkBit s 1 = true) (hr : s.clock.released = false) :
    doDividerRelease s = setClk 6 true (modClock (releasedClock s) s) := by
  unfold doDividerRelease
  rw [h0, h1, hr]
  rfl

end

/-- Settles O27, step by step of the lock sequence. -/
theorem clockStart : Obligations.ClockStart := by
  refine ⟨fun hz s ho => ⟨_, rfl, fun c h => (refclkDetect_good s ho h).1, fun h => (refclkDetect_bad s ho h).1, ?_, ?_⟩,
    fun s h0 h2 hr hn => ⟨_, congrArg Host.Outcome.next (doRootLock_eq s h0 h2 hr hn), lockPll_spec s false⟩,
    fun s h1 h0 hr => ⟨_, congrArg Host.Outcome.next (doMLock_eq s h1 h0 hr), lockPll_spec s true⟩,
    fun s h0 h1 hr => ⟨_, congrArg Host.Outcome.next (doDividerRelease_eq s h0 h1 hr), ?_, setClk_clock .., ?_, ?_⟩⟩
  · cases h : refCode hz with
    | some c => exact (refclkDetect_good s ho h).2
    | none => exact (refclkDetect_bad s ho h).2
  · exact kept_doRefclkDetect ((kept_unchangedBut _ s).toKeptDev.toKept.mono (by decide)) hz s (unchangedBut_refl _ s)
  · exact (clkBit_setClk _ true (by decide)).trans (if_pos rfl)
  · exact fun a ha _ => rd_setClk_ne _ 6 true ha
  · rw [← doDividerRelease_eq s h0 h1 hr]
    exact kept_doDividerRelease (kept_unchangedBut _ s).toKeptDev.toKept s (unchangedBut_refl _ s)

/-! Losses (R95, R99). -/

section
variable (s : State)

theorem refAway_spec : clkBit (refAway s) 2 = false ∧ (refAway s).clock.refGone = true ∧ (refAway s).time.servo = .refLost
    ∧ ∀ a, ¬ intReg a → a ≠ aClkStatus → rd (refAway s) a = rd s a := by
  unfold refAway
  refine ⟨?_, ?_, setServo_servo _ _, fun a hi ha => (rd_setServo _ _ hi).trans (rd_setClk_ne s 2 false ha)⟩
  · rw [clkBit_of_rd (rd_setServo _ _ (not_intReg_clk (by decide) (by decide)))]
    exact (clkBit_setClk s false (by decide)).trans (if_pos rfl)
  · rw [setServo_clock]
    rfl

theorem clkStick_servo (b : Nat) : (clkStick b s).time.servo = s.time.servo := by
  unfold clkStick
  split
  · rfl
  · unfold stick
    dsimp only
    exact holds_if (P := fun t => (logEv 6 (2 ^ b) t).time.servo = s.time.servo) (fun _ => rfl) (fun _ => (irq_sec _ 3).2.2)

/-- The reference is lost, and flag b shows it. -/
theorem refLost_spec {b : Nat} (hb : b < 32) : let t := clkStick b (refAway s)
    bit (rd t aClkSticky) b = true ∧ clkBit t 2 = false ∧ t.clock.refGone = true ∧ t.time.servo = .refLost
    ∧ regsBut (fun a => a = aClkStatus ∨ a = aClkSticky) s t := by
  obtain ⟨h2, hg, hs, hr⟩ := refAway_spec s
  refine ⟨bit_clkStick _ hb, (clkBit_clkStick _ _ _).trans h2, (congrArg Clock.refGone (clkStick_clock _ b)).trans hg,
    (clkStick_servo _ _).trans hs, fun a ha hi => ?_⟩
  exact (rd_clkStick_ne _ b hi (fun e => ha (.inr e))).trans (hr a hi (fun e => ha (.inl e)))

/-- A PLL loses lock: its bit and ALIGNED clear, and flag b shows it. -/
theorem lockLost_spec {b k : Nat} (hb : b < 32) (hk : k < 6) : let t := clkStick b (setClk 6 false (setClk k false s))
    bit (rd t aClkSticky) b = true ∧ clkBit t k = false ∧ clkBit t 6 = false
    ∧ regsBut (fun a => a = aClkStatus ∨ a = aClkSticky) s t := by
  refine ⟨bit_clkStick _ hb, ?_, ?_, fun a ha hi => ?_⟩
  · rw [clkBit_clkStick, clkBit_setClk _ _ (by lia), if_neg (by lia), clkBit_setClk _ _ (by lia), if_pos rfl]
  · rw [clkBit_clkStick, clkBit_setClk _ _ (by decide), if_pos rfl]
  · rw [rd_clkStick_ne _ b hi (fun e => ha (.inr e)), rd_setClk_ne _ _ _ (fun e => ha (.inl e)), rd_setClk_ne _ _ _ (fun e => ha (.inl e))]

/-- A link that the loss of the M branch finds in bring-up fails. -/
noncomputable def clockFails (x : Link) : Link :=
  if inBringUp x.st then { x with
    st := .failed, fail := .clock, stage := .idle, upLock := false, dck := false, frame := []
    txBlock := false, stopDue := false, checkOn := false, fallback := false }
  else x

/-- Every Twill link in bring-up fails with CLOCK. -/
noncomputable def allFail (s : State) : State :=
  forEach (List.range 36) (fun l s => if inBringUp (link s l).st then linkFail .clock l s else s) s

theorem link_allFail (l : Nat) : link (allFail s) l = if l < 36 then clockFails (link s l) else link s l := by
  have h := forEach_get link (fun l s => if inBringUp (link s l).st then linkFail .clock l s else s) (fun _ => clockFails)
    (fun i t => by
      unfold clockFails
      split
      · rw [link_linkFail]
      · rfl)
    (fun i j t hj => holds_if (P := fun u => link u j = link t j) (fun _ => others_linkFail i t _ j hj) (fun _ => rfl))
    (List.range 36) List.nodup_range s l
  rw [allFail, h]
  simp only [List.mem_range]

theorem rd_allFail (a : Nat) : rd (allFail s) a = rd s a :=
  have h : Holds (samePart .regs s) (allFail s) := holds_forEach _
    (fun l t h => holds_if (fun _ => kept_linkFail' l t (kept_same .regs rfl s) .clock h) (fun _ => h)) _ s rfl
  rd_of_regs h a

theorem clockFails_spec {x : Link} (h : inBringUp x.st = true) :
    (clockFails x).st = .failed ∧ (clockFails x).fail = .clock ∧ (clockFails x).dck = false := by
  unfold clockFails
  rw [if_pos h]
  exact ⟨rfl, rfl, rfl⟩

theorem clockFails_idle {x : Link} (h : inBringUp x.st = false) : clockFails x = x := by
  unfold clockFails
  rw [h]
  rfl

theorem mLol_spec : let t := allFail (clkStick 3 (setClk 6 false (setClk 1 false s)))
    bit (rd t aClkSticky) 3 = true ∧ clkBit t 1 = false ∧ clkBit t 6 = false
    ∧ regsBut (fun a => a = aClkStatus ∨ a = aClkSticky) s t
    ∧ (∀ l, l < 36 → inBringUp (link s l).st = true → (link t l).st = .failed ∧ (link t l).fail = .clock ∧ (link t l).dck = false)
    ∧ (∀ l, 36 ≤ l ∨ inBringUp (link s l).st = false → link t l = link s l) := by
  obtain ⟨h3, h1, h6, hr⟩ := lockLost_spec s (b := 3) (k := 1) (by decide) (by decide)
  have hl : ∀ l, link (clkStick 3 (setClk 6 false (setClk 1 false s))) l = link s l := fun l => by
    rw [link_of_links (clkStick_links _ 3), link_setClk, link_setClk]
  have hrd := rd_allFail (clkStick 3 (setClk 6 false (setClk 1 false s)))
  refine ⟨by rw [hrd]; exact h3, (clkBit_of_rd (hrd _) 1).trans h1, (clkBit_of_rd (hrd _) 6).trans h6,
    fun a ha hi => (hrd a).trans (hr a ha hi), fun l hl36 hb => ?_, fun l hc => ?_⟩
  · rw [link_allFail, if_pos hl36, hl]
    exact clockFails_spec hb
  · rw [link_allFail, hl]
    rcases hc with hc | hc
    · exact if_neg (by lia)
    · rw [clockFails_idle hc, ite_self]

/-- A generator without its fine-delay lock is noted. -/
noncomputable def fineLost (gen : Nat) (k : Clock) : Clock :=
  { k with fineOff := if k.fineOff.contains gen then k.fineOff else gen :: k.fineOff }

theorem fineLost_spec (gen : Nat) (k : Clock) : gen ∈ (fineLost gen k).fineOff ∧ ∀ i ∈ k.fineOff, i ∈ (fineLost gen k).fineOff := by
  unfold fineLost
  dsimp only
  split
  · next h => exact ⟨by simpa using h, fun _ hi => hi⟩
  · exact ⟨List.mem_cons_self, fun _ hi => List.mem_cons_of_mem _ hi⟩

theorem fineCalFail_spec (gen : Nat) : let t := doFineCalFail gen s
    bit (rd t aClkSticky) 4 = true ∧ gen ∈ t.clock.fineOff ∧ (∀ k ∈ s.clock.fineOff, k ∈ t.clock.fineOff)
    ∧ regsBut (fun a => a = aClkSticky) s t := by
  have hc : (doFineCalFail gen s).clock = fineLost gen s.clock := clkStick_clock ..
  obtain ⟨h1, h2⟩ := fineLost_spec gen s.clock
  dsimp only
  rw [hc]
  exact ⟨bit_clkStick _ (by decide), h1, h2, fun a ha hi => rd_clkStick_ne _ 4 hi ha⟩

theorem lockReacquired_spec (m : Bool) (hr : s.clock.released = true) (hc : clkBit s (if m then 1 else 0) = false) :
    let t := doLockReacquired m s
    clkBit t (if m then 1 else 0) = true ∧ clkBit t 6 = false ∧ t.clock.released = true ∧ t.clock.releaseAt = s.clock.releaseAt
    ∧ regsBut (fun a => a = aClkStatus ∨ a = aLockEvent) s t := by
  have e : doLockReacquired m s = setClk 6 false (lockPll m s) := by
    unfold doLockReacquired
    rw [hr, hc]
    rfl
  have hk : (setClk 6 false (lockPll m s)).clock = onceLocked m s.clock := (setClk_clock ..).trans (lockPll_clock s m)
  dsimp only
  rw [e, hk]
  refine ⟨?_, (clkBit_setClk _ _ (by decide)).trans (if_pos rfl), ?_, ?_, fun a ha hi => ?_⟩
  · rw [clkBit_setClk _ _ (by cases m <;> decide), if_neg (by cases m <;> decide)]
    exact (lockPll_spec s m).1
  · cases m <;> exact hr
  · cases m <;> rfl
  · exact (rd_setClk_ne _ 6 false (fun e => ha (.inl e))).trans (regsBut_lockPll s m a ha hi)

/-! Spread spectrum (R88, R94, R100). -/

theorem sscApply_spec (v : Word) : (doSscApply v (hostAccess s)).regs = s.regs
    ∧ (bit v 0 = true → (doSscApply v (hostAccess s)).clock = { s.clock with sscPending := some (rd s aSscCfg), sscAt := s.tick })
    ∧ (bit v 0 = false → (doSscApply v (hostAccess s)).clock = s.clock) := by
  unfold doSscApply
  refine ⟨?_, fun h => ?_, fun h => ?_⟩
  · exact holds_if (P := fun t => t.regs = s.regs) (fun _ => hostAccess_regs s) (fun _ => hostAccess_regs s)
  · rw [if_pos h, modClock_clock, hostAccess_clock, rd_hostAccess, hostAccess_tick]
  · rw [h, if_neg Bool.false_ne_true, hostAccess_clock]

theorem doProfileOrigin_early (h : s.clock.released = false ∨ s.tick < originDue s) : doProfileOrigin s = s := by
  unfold doProfileOrigin
  exact if_pos (by rcases h with h | h <;> simp [h])

/-- The profile counter after an origin at which setting c comes into force. -/
noncomputable def originCounted (on : Bool) (c : Word) (s : State) : State :=
  if on then wr aProfileCnt (rd s aProfileCnt + 1) s else if fld c 0 2 != 0 then wr aProfileCnt 1 s else s

theorem doProfileOrigin_apply {c : Word} (hr : s.clock.released = true) (hd : originDue s ≤ s.tick)
    (hp : s.clock.sscPending = some c) : doProfileOrigin s = originCounted (clkBit s 7) c (newRun c s) := by
  unfold doProfileOrigin
  dsimp only
  rw [hr, hp, if_neg (by simp; lia)]
  rfl

theorem newRun_spec (c : Word) : rd (newRun c s) aSscState = c ∧ clkBit (newRun c s) 7 = (fld c 0 2 != 0)
    ∧ (newRun c s).clock.sscPending = none ∧ (newRun c s).clock.origins = 0
    ∧ (newRun c s).clock.segs.head? = some { start := originDue s, cfg := c, base := originDev s }
    ∧ ∀ a, a ≠ aSscState → a ≠ aClkStatus → rd (newRun c s) a = rd s a := by
  refine ⟨?_, (clkBit_setClk _ _ (by decide)).trans (if_pos rfl), rfl, rfl, rfl, fun a h1 h2 => ?_⟩
  · exact (rd_setClk_ne _ 7 _ (by decide)).trans (rd_wr_self ..)
  · exact (rd_setClk_ne _ 7 _ h2).trans (rd_wr_ne _ _ h1)

theorem originCounted_spec (on : Bool) (c : Word) : (originCounted on c s).clock = s.clock
    ∧ rd (originCounted on c s) aProfileCnt = (if on then rd s aProfileCnt + 1 else if fld c 0 2 != 0 then 1 else rd s aProfileCnt)
    ∧ ∀ a, a ≠ aProfileCnt → rd (originCounted on c s) a = rd s a := by
  unfold originCounted
  cases on with
  | true => exact ⟨rfl, rd_wr_self .., fun a h => rd_wr_ne _ _ h⟩
  | false =>
    rw [if_neg Bool.false_ne_true, if_neg Bool.false_ne_true]
    split
    · exact ⟨rfl, rd_wr_self .., fun a h => rd_wr_ne _ _ h⟩
    · exact ⟨rfl, rfl, fun _ _ => rfl⟩

theorem profileOrigin_frame : unchangedBut [.regs, .clock] s (doProfileOrigin s) :=
  kept_doProfileOrigin (kept_unchangedBut _ s).toKeptDev.toKept s (unchangedBut_refl _ s)

theorem profileOrigin_apply {c : Word} (hr : s.clock.released = true) (hd : originDue s ≤ s.tick)
    (hp : s.clock.sscPending = some c) : let t := doProfileOrigin s
    rd t aSscState = c ∧ clkBit t 7 = (fld c 0 2 != 0) ∧ t.clock.sscPending = none ∧ t.clock.origins = 0
    ∧ t.clock.segs.head? = some { start := originDue s, cfg := c, base := originDev s }
    ∧ rd t aProfileCnt = (if clkBit s 7 then rd s aProfileCnt + 1 else if fld c 0 2 != 0 then 1 else rd s aProfileCnt)
    ∧ regsBut (fun a => a = aSscState ∨ a = aClkStatus ∨ a = aProfileCnt) s t ∧ unchangedBut [.regs, .clock] s t := by
  have hf := profileOrigin_frame s
  rw [doProfileOrigin_apply s hr hd hp] at hf ⊢
  obtain ⟨h1, h2, h3, h4, h5, h6⟩ := newRun_spec s c
  obtain ⟨g1, g2, g3⟩ := originCounted_spec (newRun c s) (clkBit s 7) c
  have hcnt : rd (newRun c s) aProfileCnt = rd s aProfileCnt := h6 _ (by decide) (by decide)
  dsimp only
  rw [g1]
  refine ⟨(g3 _ (by decide)).trans h1, (clkBit_of_rd (g3 _ (by decide)) 7).trans h2, h3, h4, h5, ?_, fun a ha _ => ?_, hf⟩
  · rw [g2, hcnt]
  · exact (g3 a (fun e => ha (.inr (.inr e)))).trans (h6 a (fun e => ha (.inl e)) (fun e => ha (.inr (.inl e))))

theorem profileOrigin_count (hr : s.clock.released = true) (hd : originDue s ≤ s.tick) (hp : s.clock.sscPending = none)
    (hon : clkBit s 7 = true) : let t := doProfileOrigin s
    rd t aProfileCnt = rd s aProfileCnt + 1 ∧ t.clock = { s.clock with origins := s.clock.origins + 1 }
    ∧ regsBut (fun a => a = aProfileCnt) s t ∧ unchangedBut [.regs, .clock] s t := by
  have e : doProfileOrigin s = wr aProfileCnt (rd s aProfileCnt + 1) (modClock (fun k => { k with origins := k.origins + 1 }) s) := by
    unfold doProfileOrigin
    dsimp only
    rw [hr, hp, hon, if_neg (by simp; lia)]
    rfl
  have hf := profileOrigin_frame s
  rw [e] at hf ⊢
  exact ⟨rd_wr_self .., rfl, fun a ha _ => rd_wr_ne _ _ ha, hf⟩

end

/-- Settles O28: the losses of the root, then the profile of the spread. -/
theorem clockLossesAndSpread : Obligations.ClockLossesAndSpread := by
  refine ⟨⟨fun s h => ?_, fun s h => ?_, fun s h => ?_, fun s h => ?_, fun gen s => ⟨_, rfl, fineCalFail_spec s gen⟩,
    fun m s hr hc => ⟨_, rfl, lockReacquired_spec s m hr hc⟩⟩, fun v s h => ?_, fun v s h => ?_,
    fun s h => congrArg Host.Outcome.next (doProfileOrigin_early s h), fun c s hr hd hp => ⟨_, rfl, profileOrigin_apply s hr hd hp⟩,
    fun s hr hd hp hon => ⟨_, rfl, profileOrigin_count s hr hd hp hon⟩⟩
  · obtain ⟨h1, h2, h3, h4, h5⟩ := refLost_spec s (b := 0) (by decide)
    exact ⟨_, congrArg Host.Outcome.next (if_pos h), h1, h2, h3, h4, h5 _ (by decide) (by unfold intReg aAddend; lia), h5⟩
  · exact ⟨_, congrArg Host.Outcome.next (if_neg h), refLost_spec s (by decide)⟩
  · exact ⟨_, congrArg Host.Outcome.next (if_pos h), lockLost_spec s (by decide) (by decide)⟩
  · exact ⟨_, congrArg Host.Outcome.next (if_pos h), mLol_spec s⟩
  · obtain ⟨hr, h1, -⟩ := sscApply_spec s v
    exact ⟨_, rfl, h1 h, hr⟩
  · obtain ⟨hr, -, h0⟩ := sscApply_spec s v
    exact ⟨_, rfl, h0 h, hr⟩

/-! REF_SEL (R96, R97). -/

section
variable (s : State)

/-- A write that the clamp rule changes is noted outside the clock block. -/
theorem rd_clampSeen_clk (b : Nat) (v : Word) {a : Nat} (ha : 0x10000 ≤ a) (h' : a < 0x20000) : rd (clampSeen b v s) a = rd s a := by
  have hi := not_intReg_clk ha h'
  refine holds_if (P := fun t => rd t a = rd s a) (fun _ => rfl) (fun _ => ?_)
  have h1 : a ≠ aGlobalSticky := by unfold aGlobalSticky; lia
  have h2 : a ≠ aClampLast := by unfold aClampLast; lia
  have h3 : a ≠ aSvc (0x100 + 4 * (blockOf b).1) := by unfold aSvc; lia
  refine (rd_irq _ 6 a (by decide) hi).trans ((rd_stick_ne _ _ _ (by rintro _ ⟨rfl⟩; decide) hi h1).trans ?_)
  exact (rd_wr_ne _ _ h2).trans ((rd_cntSat ..).trans (if_neg h3))

/-- The state with REF_SEL taken. -/
noncomputable def refSelTaken (sel : Nat) (v : Word) (s : State) : State := wr aClkCfg (wd sel) (clampSeen aClkCfg v s)

/-- CLK_STATUS at a switch to a source: both PLLs unlocked, ALIGNED clear. -/
noncomputable def switchedStatus (sel : Nat) (w : Word) : Word := putFld (putFld (putFld w 8 2 sel) 0 2 0) 6 1 0

theorem switchedStatus_spec {sel : Nat} (hs : sel < 4) (w : Word) : fld (switchedStatus sel w) 8 2 = sel
    ∧ bit (switchedStatus sel w) 0 = false ∧ bit (switchedStatus sel w) 1 = false ∧ bit (switchedStatus sel w) 6 = false := by
  unfold switchedStatus
  refine ⟨?_, ?_, ?_, ?_⟩
  · rw [fld_putFld_ne _ (by decide) (by decide), fld_putFld_ne _ (by decide) (by decide), fld_putFld _ (by decide),
      Nat.mod_eq_of_lt (by lia)]
  · rw [bit_putFld _ (by decide), if_neg (by decide), bit_putFld _ (by decide), if_pos (by decide), Nat.zero_testBit]
  · rw [bit_putFld _ (by decide), if_neg (by decide), bit_putFld _ (by decide), if_pos (by decide), Nat.zero_testBit]
  · rw [bit_putFld _ (by decide), if_pos (by decide), Nat.zero_testBit]

/-- The state at a switch of the reference, before REF_PRESENT shows the new one. -/
noncomputable def refSwitched (sel : Nat) (s : State) : State :=
  modClock (fun k => { k with released := false }) (wr aClkStatus (switchedStatus sel (rd s aClkStatus)) s)

theorem refSelTaken_spec (sel : Nat) (v : Word) : rd (refSelTaken sel v s) aClkCfg = wd sel
    ∧ rd (refSelTaken sel v s) aClkStatus = rd s aClkStatus ∧ (refSelTaken sel v s).clock = s.clock :=
  ⟨rd_wr_self .., (rd_wr_ne _ _ (by decide)).trans (rd_clampSeen_clk s _ v (by decide) (by decide)),
    kept_clampSeen (kept_same .clock rfl s) aClkCfg v s rfl⟩

theorem doRefSelWrite_refused {v : Word} {sel : Nat} (e : min (fld v 0 2) 2 = sel)
    (h : s.dev ≠ .configWait ∨ (sel ≠ 0 ∧ wzTrained s sel = false)) : doRefSelWrite v s = clkStick 5 s := by
  unfold doRefSelWrite
  dsimp only
  rw [e]
  exact if_pos (by rcases h with h | ⟨h, h'⟩ <;> simp [*])

theorem doRefSelWrite_taken {v : Word} {sel : Nat} (e : min (fld v 0 2) 2 = sel) (hd : s.dev = .configWait)
    (h : sel = 0 ∨ wzTrained s sel = true) : doRefSelWrite v s =
      if refSrc s = sel then refSelTaken sel v s else refBack (refSwitched sel (refSelTaken sel v s)) := by
  unfold doRefSelWrite
  dsimp only
  rw [e, if_neg (by rcases h with h | h <;> simp [*])]
  rfl

/-- A source that may be selected, with its effect where it is another one and where it is in force. -/
theorem refSel_taken {v : Word} {sel : Nat} (e : min (fld v 0 2) 2 = sel) (hd : s.dev = .configWait)
    (h : sel = 0 ∨ wzTrained s sel = true) : let t := doRefSelWrite v s
    rd t aClkCfg = wd sel
    ∧ (sel ≠ refSrc s → refSrc t = sel ∧ clkBit t 0 = false ∧ clkBit t 1 = false ∧ clkBit t 6 = false
        ∧ clkBit t 2 = true ∧ t.clock.released = false)
    ∧ (sel = refSrc s → t.clock = s.clock ∧ rd t aClkStatus = rd s aClkStatus) := by
  obtain ⟨h1, h2, h3⟩ := refSelTaken_spec s sel v
  obtain ⟨f1, f2, f3, f4⟩ := switchedStatus_spec (sel := sel) (by lia) (rd (refSelTaken sel v s) aClkStatus)
  have hst : rd (refSwitched sel (refSelTaken sel v s)) aClkStatus = switchedStatus sel (rd (refSelTaken sel v s) aClkStatus) :=
    rd_wr_self ..
  dsimp only
  rw [doRefSelWrite_taken s e hd h]
  by_cases hc : refSrc s = sel
  · rw [if_pos hc]
    exact ⟨h1, fun hne => absurd hc.symm hne, fun _ => ⟨h3, h2⟩⟩
  · rw [if_neg hc]
    refine ⟨?_, fun _ => ⟨?_, ?_, ?_, ?_, ?_, ?_⟩, fun hne => absurd hne.symm hc⟩
    · rw [rd_refBack_ne _ (not_intReg_clk (by decide) (by decide)) (by decide)]
      exact (rd_wr_ne _ _ (by decide)).trans h1
    · rw [refSrc, rd_refBack_status, setClk, rd_wr_self, fld_putFld_ne _ (by decide) (by decide), hst, f1]
    · rw [clkBit_refBack _ (by decide), if_neg (by decide), clkBit, hst, f2]
    · rw [clkBit_refBack _ (by decide), if_neg (by decide), clkBit, hst, f3]
    · rw [clkBit_refBack _ (by decide), if_neg (by decide), clkBit, hst, f4]
    · rw [clkBit_refBack _ (by decide), if_pos rfl]
    · rw [refBack_clock]
      rfl

theorem refSel_refused {v : Word} {sel : Nat} (e : min (fld v 0 2) 2 = sel)
    (h : s.dev ≠ .configWait ∨ (sel ≠ 0 ∧ wzTrained s sel = false)) : let t := doRefSelWrite v s
    bit (rd t aClkSticky) 5 = true ∧ t.clock = s.clock ∧ regsBut (fun a => a = aClkSticky) s t := by
  rw [doRefSelWrite_refused s e h]
  exact ⟨bit_clkStick s (by decide), clkStick_clock .., fun a ha hi => rd_clkStick_ne s 5 hi ha⟩

theorem wzTrained_hostAccess (sel : Nat) : wzTrained (hostAccess s) sel = wzTrained s sel := by
  rw [wzTrained, wzTrained, link_hostAccess, wzInbound, linkCfg, rd_hostAccess, wzInbound, linkCfg]

theorem refSrc_hostAccess : refSrc (hostAccess s) = refSrc s := by rw [refSrc, rd_hostAccess, refSrc]

end

/-- Settles O29: the write is refused, or takes the source and where it is another one switches to it. -/
theorem referenceSelect : Obligations.ReferenceSelect := by
  intro v s
  refine ⟨fun hd h => ⟨_, rfl, ?_⟩, fun h => ⟨_, rfl, ?_⟩⟩
  · have hx := refSel_taken (hostAccess s) (v := v) rfl ((hostAccess_dev s).trans hd) (by rw [wzTrained_hostAccess]; exact h)
    rw [refSrc_hostAccess, hostAccess_clock, rd_hostAccess] at hx
    exact hx
  · obtain ⟨h1, h2, h3⟩ := refSel_refused (hostAccess s) (v := v) rfl (by rw [wzTrained_hostAccess, hostAccess_dev]; exact h)
    exact ⟨h1, h2.trans (hostAccess_clock s), fun a ha hi => (h3 a ha hi).trans (rd_hostAccess s a)⟩

end Sys2Proof.Clocks
end

section
-- One proof after another: the check compiles the whole text in one process, and memory is short.
set_option Elab.async false
/-! Chapter 8: what the fabric answers to a source, and the sources of the backstop (R34 to R36, R207 to R221). -/

namespace Sys2Proof.Protect

open Sys2Proof Sys2Proof.Machine Sys2Proof.Laws Sys2Proof.Conversion Sys2Proof.Rules Sys2Proof.Control Sys2Proof.Commits Sys2Proof.Links
  Sys2Proof.Metering

/-! The answer of the fabric (R210 to R214). -/

theorem latch_of_mask {n : Nat} {s : State} (h : 2 ^ n &&& s.gorse.latch = 2 ^ n) : s.gorse.latch.testBit n = true := by
  simpa [Nat.testBit_and] using congrArg (fun m => m.testBit n) h

theorem mask_of_latch {n : Nat} {s : State} (h : s.gorse.latch.testBit n = true) : 2 ^ n &&& s.gorse.latch = 2 ^ n := by
  refine Nat.eq_of_testBit_eq fun k => ?_
  rw [Nat.testBit_and, Nat.testBit_two_pow]
  by_cases hk : n = k
  · subst hk
    simp [h]
  · simp [hk]

/-- BS_CFG keeps the source, a K28.3, to its string. -/
noncomputable def boundToString (n : Nat) (bs : Bool) (s : State) : Bool := bs && decide (36 ≤ n) && decide (n < 72) && bit (rd s aBsCfg) 0

/-- The vectors of the channels map the source to an action of the class. -/
noncomputable def asksFor (c : ActClass) (va vb : Nat) (s : State) : Bool := (actsOf s 0 va ++ actsOf s 1 vb).any (fun d => d.cls == c)

noncomputable def wantsTrip (n : Nat) (bs : Bool) (va vb : Nat) (s : State) : Bool :=
  bs && !isWdogOrSs n && !boundToString n bs s || asksFor .trip va vb s

noncomputable def wantsStop (n : Nat) (bs : Bool) (va vb : Nat) (s : State) : Bool := (bs && isWdogOrSs n) || asksFor .safeStop va vb s

noncomputable def fabricLatches (bs : Bool) (va vb : Nat) (s : State) : Bool :=
  bs || asksFor .trip va vb s || asksFor .safeStop va vb s || asksFor .block va vb s

section
variable (n : Nat) (bs : Bool) (va vb : Nat) (again : Bool) (blank : Option (Nat × Nat)) (s : State)

theorem gorseContent_congr {s t : State} (h : t.damask = s.damask) (ch : Nat) : gorseContent t ch = gorseContent s ch := by
  have hp : plane t (16 + ch) = plane s (16 + ch) := by rw [plane, tile, h, plane, tile]
  rw [gorseContent, tileLive, hp, gorseContent, tileLive]

theorem actsOf_congr {s t : State} (h : t.damask = s.damask) (ch v : Nat) : actsOf t ch v = actsOf s ch v := by
  have ha : actOf t ch = actOf s ch := funext fun a => by rw [actOf, gorseContent_congr h, actOf]
  rw [actsOf, ha, actsOf]

theorem tmOf_congr {s t : State} (h : t.damask = s.damask) (ch k : Nat) : tmOf t ch k = tmOf s ch k := by
  rw [tmOf, gorseContent_congr h, tmOf]

theorem asksFor_congr {s t : State} (h : t.damask = s.damask) (c : ActClass) : asksFor c va vb t = asksFor c va vb s := by
  rw [asksFor, actsOf_congr h, actsOf_congr h, asksFor]

theorem keptR_dev : KeptR (fun u => u.dev = s.dev) := by constructor <;> intros <;> assumption

/-- What stands when a source that latches has its answer. -/
theorem fabric_latching (h : fabricLatches bs va vb s = true) : ∃ u, fabric n bs va vb again blank s =
      (if wantsTrip n bs va vb s then tripEnter n u else if wantsStop n bs va vb s then enterSafeStop u else u)
    ∧ u.dev = s.dev ∧ u.gorse.latch.testBit n = true := by
  unfold fabric
  extract_lets t acts has k3 bsTrip wantTrip wantSs live bl bp latching latched v action links pairs s1 s2 s3
  have hdam : t.damask = s.damask := kept_snap (kept_same .damask rfl s) s rfl
  have hreg : rd t aBsCfg = rd s aBsCfg := rd_of_regs (kept_snap (kept_same .regs rfl s) s rfl) _
  have hhas : ∀ c, has c = asksFor c va vb s := fun c => asksFor_congr va vb hdam c
  have eL : latching = true := by
    show (bs || has .trip || has .safeStop || has .block) = true
    rw [hhas, hhas, hhas]
    exact h
  have eT : wantTrip = wantsTrip n bs va vb s := by
    show (bs && !isWdogOrSs n && !(bs && decide (36 ≤ n) && decide (n < 72) && bit (rd t aBsCfg) 0) || has .trip) = _
    rw [hhas, hreg, wantsTrip, boundToString]
  have eS : wantSs = wantsStop n bs va vb s := by
    show ((bs && isWdogOrSs n) || has .safeStop) = _
    rw [hhas, wantsStop]
  have keep : ∀ Q, KeptR Q → Holds Q s2 → Holds Q s3 := fun Q k h => holds_if (fun _ => kb_blockAct k _ _ _ h) (fun _ => h)
  have h2 : s2 = modGorse (fun g => { g with latch := g.latch ||| 2 ^ n }) s1 := if_pos eL
  have hd : Holds (fun u => u.dev = s.dev) s3 := by
    refine keep _ (keptR_dev s) ?_
    have h1 : Holds (fun u => u.dev = s.dev) s1 :=
      kb_onlyIf _ _ _ (fun _ h => kb_record (keptR_dev s) _ _ _ _ _ _ _ h) (kb_snap (keptR_dev s) _ rfl)
    rw [h2]
    exact (keptR_dev s).gorse _ _ (fun _ => rfl) (fun _ => and_or_self _ _) h1
  have hl : Holds (fun u => 2 ^ n &&& u.gorse.latch = 2 ^ n) s3 := by
    refine keep _ (keptB_latch (2 ^ n)).toKeptR ?_
    show 2 ^ n &&& s2.gorse.latch = 2 ^ n
    rw [h2, modGorse_gorse, Nat.or_comm, and_or_self]
  refine ⟨s3, ?_, hd, ?_⟩
  · rw [if_neg (by simp [eL]), eT, eS]
  · exact latch_of_mask hl

/-- A source that an action of a voting channel or the backstop answers by a trip. -/
theorem fabric_wantsTrip (h : wantsTrip n bs va vb s = true) (hd : s.dev = .run ∨ s.dev = .safeStop) :
    (fabric n bs va vb again blank s).dev = .tripped ∧ (fabric n bs va vb again blank s).gorse.latch.testBit n = true
    ∧ (fabric n bs va vb again blank s).mod.en = 0 := by
  have hL : fabricLatches bs va vb s = true := by
    unfold wantsTrip at h
    unfold fabricLatches
    cases bs <;> simp_all
  obtain ⟨u, e, hdu, hlu⟩ := fabric_latching n bs va vb again blank s hL
  obtain ⟨h1, h2⟩ := tripEnter_trip n u (by rw [hdu]; exact hd)
  rw [e, if_pos h]
  exact ⟨h1, latch_of_mask (kb_tripEnter (keptB_latch (2 ^ n)) n u (mask_of_latch hlu)), h2⟩

end

/-! Safe stop (R35, R220). -/

theorem setDev_dev (d : DevState) (s : State) : (setDev d s).dev = d := by
  unfold setDev
  split
  · assumption
  · rw [irq_dev, logEv_dev]

theorem ssEnd_dev (s : State) : (ssEnd s).dev = s.dev := kb_ssEnd (keptR_dev s) s rfl

theorem enterSafeStop_dev {s : State} (h : s.dev = .run) : (enterSafeStop s).dev = .safeStop := by
  unfold enterSafeStop
  rw [if_pos h]
  extract_lets c s1 s2 s3
  have h1 : s1.dev = .safeStop := setDev_dev _ _
  have h2 : s2.dev = s1.dev := kb_dropFresh (keptR_dev s1) _ rfl
  have h3 : s3.dev = .safeStop := h2.trans h1
  exact holds_if (P := fun t => t.dev = .safeStop) (fun _ => (ssEnd_dev _).trans h3) (fun _ => h3)

theorem asksFor_none (c : ActClass) (s : State) : asksFor c 0 0 s = false := rfl

/-- A request that no channel maps brings SAFE-STOP from RUN, its cause latched. -/
theorem bAssert_stop {n : Nat} {s : State} (hn : isWdogOrSs n = true) (hd : s.dev = .run) (ha : tmOf s 0 n = 0)
    (hb : tmOf s 1 n = 0) : (bAssert n none s).dev = .safeStop ∧ (bAssert n none s).gorse.latch.testBit n = true := by
  have hx : (xchk n s).dev = .run := (kb_xchk (keptR_dev s) n s rfl).trans hd
  have hT : wantsTrip n true 0 0 (xchk n s) = false := by simp [wantsTrip, hn, asksFor_none]
  have hS : wantsStop n true 0 0 (xchk n s) = true := by simp [wantsStop, hn]
  obtain ⟨u, e, hdu, hlu⟩ := fabric_latching n true 0 0 false none (xchk n s) rfl
  rw [hT, hS, if_neg Bool.false_ne_true, if_pos rfl] at e
  have eb : bAssert n none s = enterSafeStop u := by
    rw [bAssert, if_neg (by rintro ⟨-, h | h⟩ <;> rw [hd] at h <;> cases h), ha, hb, ite_self, ite_self, e]
  rw [eb]
  exact ⟨enterSafeStop_dev (hdu.trans hx), latch_of_mask (kb_enterSafeStop (keptB_latch (2 ^ n)) u (mask_of_latch hlu))⟩

/-! The backstop's sources (R210). -/

/-- The device has tripped by source n. -/
noncomputable def TrippedBy (n : Nat) (t : State) : Prop := t.dev = .tripped ∧ t.gorse.latch.testBit n = true ∧ t.mod.en = 0 ∧ gatesLow t

theorem trippedBy_of {n : Nat} {t : State} (h : t.dev = .tripped ∧ t.gorse.latch.testBit n = true ∧ t.mod.en = 0) : TrippedBy n t :=
  ⟨h.1, h.2.1, h.2.2, Whole.gatesLow_of_outputsLive (by simp [outputsLive, h.1])⟩

/-- A source of the backstop outside the links' K28.3. -/
theorem bAssert_trippedBy {n : Nat} {blank : Option (Nat × Nat)} {s : State} (hn : isWdogOrSs n = false) (hk : n < 36 ∨ 72 ≤ n)
    (hd : s.dev = .run ∨ s.dev = .safeStop) : TrippedBy n (bAssert n blank s) := by
  refine trippedBy_of (bAssert_trip n blank s hn ?_ hd)
  rcases hk with h | h
  · simp [Nat.not_le.mpr h]
  · simp [Nat.not_lt.mpr h]

theorem bRise_trippedBy {n : Nat} {s : State} (hn : isWdogOrSs n = false) (hk : n < 36 ∨ 72 ≤ n)
    (hd : s.dev = .run ∨ s.dev = .safeStop) : TrippedBy n (bRise n s) := bAssert_trippedBy hn hk hd

/-- A pair of conditions on a device that runs carries over to a state with its device state. -/
theorem live_of_dev {s t : State} (h : t.dev = s.dev) (hd : s.dev = .run ∨ s.dev = .safeStop) : t.dev = .run ∨ t.dev = .safeStop := by
  rw [h]
  exact hd

theorem safeRow_dev (n : Nat) (edge : Bool) (s : State) : (safeRow n edge s).dev = s.dev := kept_safeRow (kept_same .dev rfl s) n edge s rfl

theorem hostAccess_latch (s : State) : (hostAccess s).gorse.latch = s.gorse.latch :=
  holds_if (P := fun t => t.gorse.latch = s.gorse.latch) (fun _ => rfl) (fun _ => rfl)

theorem doK283Rx_trippedBy {l : Nat} {s : State} (hl : l < 36) (hb : bit (rd s aBsCfg) 0 = false)
    (hd : s.dev = .run ∨ s.dev = .safeStop) : TrippedBy (36 + l) (doK283Rx l s) := by
  have hr : rd (protoStick l 2 s) aBsCfg = rd s aBsCfg := by
    refine rd_protoStick_ne s 2 (by lia) (by unfold intReg; decide) ?_
    have := aLink_range (l := l) (o := 0x10C) (by lia) (by decide)
    unfold aBsCfg
    lia
  have hn : isWdogOrSs (36 + l) = false := by simp [isWdogOrSs]; lia
  refine trippedBy_of (bAssert_trip (36 + l) none (setLive (36 + l) true (protoStick l 2 s)) hn ?_ ?_)
  · rw [show rd (setLive (36 + l) true (protoStick l 2 s)) aBsCfg = rd s aBsCfg from hr, hb, Bool.and_false]
  · exact live_of_dev (t := setLive (36 + l) true (protoStick l 2 s)) (kept_protoStick (kept_same .dev rfl s) l 2 s rfl) hd

section
variable (s : State)

/-- With EDGE_CLK gone DCK of a Twill link is low before the trip answers. -/
theorem dck_safeRow (n : Nat) {l : Nat} (hl : l < 36) : (link (safeRow n true s) l).dck = false := by
  unfold safeRow
  extract_lets s1
  have h1 := forEach_get (fun t k => (link t k).dck)
    (fun l s => if (link s l).dck = false then s else if true then dckOff l s else startRun true l s) (fun _ _ => false)
    (fun i t => by
      by_cases hd : (link t i).dck = false
      · rw [if_pos hd, hd]
      · rw [if_neg hd, if_pos rfl, (link_dckOff i t).1])
    (fun i j t hj => by
      by_cases hd : (link t i).dck = false
      · rw [if_pos hd]
      · obtain ⟨b, hb⟩ := link_dckOff_ne t hj
        rw [if_neg hd, if_pos rfl, hb])
    (List.range 36) List.nodup_range s1 l
  rw [if_pos (List.mem_range.mpr hl)] at h1
  have h2 := kb_settleBlank (keptB_links (forEach (List.range 36) (fun l s => if (link s l).dck = false then s
    else if true then dckOff l s else startRun true l s) s1)).toKeptR _ (fun _ => rfl) l
  obtain ⟨-, -, -, -, hd⟩ := of_linkCore h2
  exact hd.trans h1

theorem dck_clkMon {l : Nat} (hl : l < 36) : (link (doClkMon true s) l).dck = false := by
  obtain ⟨-, -, -, -, hd⟩ := of_linkCore (linkCore_bRise 180 (safeRow 180 true s) l)
  exact hd.trans (dck_safeRow s 180 hl)

theorem hostTrip_other {v : Word} (h : v ≠ wd 0x5452) : unchangedBut [.gorse, .host] s (doHostTrip v (hostAccess s))
    ∧ (doHostTrip v (hostAccess s)).gorse.latch = s.gorse.latch := by
  rw [doHostTrip, if_neg h]
  exact ⟨unchangedBut_hostAccess s, hostAccess_latch s⟩

end

/-- Settles O30: each source reaches the backstop with the device state as it was. -/
theorem backstopTrips : Obligations.BackstopTrips := by
  intro s hd
  have he : ∀ (c : Instr) (n : Nat) (t : State), exec c s = .next t → TrippedBy n t →
      ∃ t, exec c s = .next t ∧ t.dev = .tripped ∧ t.gorse.latch.testBit n = true ∧ t.mod.en = 0 ∧ gatesLow t :=
    fun _ _ t h ht => ⟨t, h, ht⟩
  refine ⟨he _ _ _ rfl ?_, fun v h => ⟨_, rfl, hostTrip_other s h⟩, he _ _ _ rfl ?_, fun h => he _ _ _ rfl ?_, fun h => he _ _ _ rfl ?_,
    fun h => he _ _ _ rfl ?_, he _ _ _ rfl ?_, he _ _ _ rfl ?_, fun port h => he _ _ _ rfl ?_, fun port h => he _ _ _ rfl ?_,
    fun l h => he _ _ _ rfl (doK283Rx_trippedBy l.isLt h hd), ⟨_, rfl, fun l hl => dck_clkMon s hl⟩⟩
  · rw [doHostTrip, if_pos rfl]
    exact bAssert_trippedBy rfl (.inr (by decide)) (live_of_dev (hostAccess_dev s) hd)
  · exact bRise_trippedBy rfl (.inr (by decide)) (live_of_dev (safeRow_dev ..) hd)
  · rw [doEnFall, if_pos h]
    exact bRise_trippedBy rfl (.inr (by decide)) (live_of_dev (kept_wake (kept_same .dev rfl s) _ _ _ rfl) hd)
  · rw [doSingleChLimit, if_pos h]
    exact bRise_trippedBy rfl (.inr (by decide)) hd
  · rw [doSafeStopTimeout, if_pos h]
    exact bAssert_trippedBy rfl (.inr (by decide)) hd
  · exact bRise_trippedBy rfl (.inr (by decide)) (live_of_dev (safeRow_dev ..) hd)
  · exact bRise_trippedBy rfl (.inr (by decide)) (live_of_dev (safeRow_dev ..) hd)
  · rw [doWzTrip, if_neg (by simp [h])]
    refine bAssert_trippedBy ?_ (.inr (by lia)) hd
    have := port.isLt
    simp [isWdogOrSs]
    lia
  · rw [doWzLink, if_pos h]
    refine bRise_trippedBy ?_ (.inr (by lia)) hd
    have := port.isLt
    simp [isWdogOrSs]
    lia

end Sys2Proof.Protect
end

section
-- One proof after another: the check compiles the whole text in one process, and memory is short.
set_option Elab.async false
/-! Chapter 8: desaturation and the requests for a safe stop (R209, R220, R221, R226, R346). -/

namespace Sys2Proof.Protect

open Sys2Proof Sys2Proof.Machine Sys2Proof.Laws Sys2Proof.Conversion Sys2Proof.Rules Sys2Proof.Control Sys2Proof.Commits Sys2Proof.Links
  Sys2Proof.Metering

/-! Desaturation. -/

section
variable {p : Nat} {s : State}

/-- The pin of pair p reads beyond its threshold. -/
noncomputable def pinSet (p : Nat) (s : State) : State := modPair p (fun x => { x with dsatPin := true }) s

theorem blankingOf_none (h : blankingOf s p = none) : (pair s p).blanking = false := by
  cases hb : (pair s p).blanking with
  | false => rfl
  | true => simp [blankingOf, hb] at h

theorem blankingOf_running (h : (pair s p).blanking = true) : blankingOf s p = some (pair s p).pendingX := by simp [blankingOf, h]

theorem doDsatCrossing_off (hu : dsatUsed s p = true) (h : pairIsOn s p = false) : doDsatCrossing p s = pinSet p s := by
  unfold doDsatCrossing
  rw [hu, h]
  rfl

theorem doDsatCrossing_blanked (hu : dsatUsed s p = true) (ho : pairIsOn s p = true) (h : (pair s p).blanking = true) :
    doDsatCrossing p s = modPair p (fun x => { x with pendingX := x.pendingX.or (some (s.time.sec, s.time.ns)) }) (pinSet p s) := by
  unfold doDsatCrossing
  rw [hu, ho, h]
  rfl

theorem doDsatCrossing_trips (hu : dsatUsed s p = true) (ho : pairIsOn s p = true) (h : blankingOf s p = none) :
    doDsatCrossing p s = bAssert p none (pinSet p s) := by
  unfold doDsatCrossing
  rw [hu, ho, blankingOf_none h, h]
  rfl

/-- A crossing that does not trip leaves the pair's pin, and in blanking its first stamp. -/
theorem dsatCrossing_quiet (hu : dsatUsed s p = true) (h : pairIsOn s p = false ∨ (pair s p).blanking = true) :
    let t := doDsatCrossing p s
    (pair t p).dsatPin = true
    ∧ (pairIsOn s p = true → (pair t p).pendingX = (pair s p).pendingX.or (some (s.time.sec, s.time.ns)))
    ∧ (pairIsOn s p = false → pair t p = { pair s p with dsatPin := true })
    ∧ (∀ q, q ≠ p → pair t q = pair s q) ∧ unchangedBut [.mod] s t := by
  have k := (kept_unchangedBut [.mod] s).toKeptDev.toKept
  have h0 : unchangedBut [.mod] s (pinSet p s) := kept_modPair k _ _ _ (unchangedBut_refl _ s)
  dsimp only
  cases ho : pairIsOn s p with
  | false =>
    rw [doDsatCrossing_off hu ho]
    refine ⟨?_, fun h => by simp at h, fun _ => ?_, fun q hq => pair_modPair_ne _ _ hq, h0⟩
    · rw [pinSet, pair_modPair_self]
    · rw [pinSet, pair_modPair_self]
  | true =>
    have hb : (pair s p).blanking = true := h.resolve_left (by simp [ho])
    rw [doDsatCrossing_blanked hu ho hb]
    refine ⟨?_, fun _ => ?_, fun h => by simp at h, fun q hq => ?_, kept_modPair k _ _ _ h0⟩
    · rw [pair_modPair_self, pinSet, pair_modPair_self]
    · rw [pair_modPair_self, pinSet, pair_modPair_self]
    · rw [pair_modPair_ne _ _ hq, pinSet, pair_modPair_ne _ _ hq]

/-- The state with the blanking of pair p at its end and its pin read as b. -/
noncomputable def blankEnded (p : Nat) (b : Bool) (s : State) : State :=
  modGorse (fun g => { g with snapBlank := tdel g.snapBlank p })
    (modPair p (fun y => { y with blanking := false, pendingX := none, dsatPin := b }) s)

theorem undrop_dev (s : State) : (undrop s).dev = s.dev := holds_if (P := fun t => t.dev = s.dev) (fun _ => rfl) (fun _ => rfl)

theorem doBlankingEnd_beyond {x : Option (Nat × Nat)} (h : blankingOf s p = some x) (hu : dsatUsed s p = true) :
    ∃ t, doBlankingEnd p true s = bAssert p x t ∧ t.dev = s.dev := by
  unfold doBlankingEnd
  rw [h]
  dsimp only
  rw [hu]
  refine ⟨_, if_pos rfl, ?_⟩
  exact holds_if (P := fun t => t.dev = s.dev) (fun _ => undrop_dev _) (fun _ => rfl)

theorem doBlankingEnd_clear (h : (pair s p).blanking = true) : doBlankingEnd p false s =
    if (pair s p).pendingX.isSome then cntSat aBlankPendCnt 1 (blankEnded p false s) else blankEnded p false s := by
  unfold doBlankingEnd
  rw [blankingOf_running h]
  dsimp only
  rw [Bool.false_and, if_neg Bool.false_ne_true, h, Bool.and_true]
  rfl

theorem pair_of_mod' {s t : State} (h : t.mod = s.mod) (k : Nat) : pair t k = pair s k := by rw [pair, h, pair]

theorem blankEnded_spec (b : Bool) : (pair (blankEnded p b s) p).blanking = false ∧ (pair (blankEnded p b s) p).pendingX = none
    ∧ (pair (blankEnded p b s) p).dsatPin = b ∧ (∀ q, q ≠ p → pair (blankEnded p b s) q = pair s q)
    ∧ ∀ a, rd (blankEnded p b s) a = rd s a := by
  have h : ∀ q, pair (blankEnded p b s) q = pair (modPair p (fun y => { y with blanking := false, pendingX := none, dsatPin := b }) s) q :=
    fun q => pair_of_mod' rfl q
  refine ⟨?_, ?_, ?_, fun q hq => (h q).trans (pair_modPair_ne _ _ hq), fun _ => rfl⟩
  all_goals rw [h, pair_modPair_self]

theorem blankingEnd_clear (h : (pair s p).blanking = true) : let t := doBlankingEnd p false s
    (pair t p).blanking = false ∧ (pair t p).pendingX = none ∧ (pair t p).dsatPin = false
    ∧ rd t aBlankPendCnt = (if (pair s p).pendingX.isSome then satInc (rd s aBlankPendCnt) 1 else rd s aBlankPendCnt)
    ∧ (∀ q, q ≠ p → pair t q = pair s q) ∧ regsBut (fun a => a = aBlankPendCnt) s t
    ∧ unchangedBut [.regs, .events, .mod, .gorse] s t := by
  have k := (kept_unchangedBut [.regs, .events, .mod, .gorse] s).toKeptDev.toKept
  obtain ⟨h1, h2, h3, h4, h5⟩ := blankEnded_spec (p := p) (s := s) false
  have h6 : unchangedBut [.regs, .events, .mod, .gorse] s (blankEnded p false s) :=
    kept_modGorse (k.mono (by decide)) _ _ (kept_modPair (k.mono (by decide)) _ _ _ (unchangedBut_refl _ s))
  have hp : ∀ q, pair (cntSat aBlankPendCnt 1 (blankEnded p false s)) q = pair (blankEnded p false s) q := fun q => pair_of_mod' rfl q
  dsimp only
  rw [doBlankingEnd_clear h]
  split
  · rw [hp]
    refine ⟨h1, h2, h3, ?_, fun q hq => (hp q).trans (h4 q hq), fun a ha _ => ?_, kept_cntSat (k.mono (by decide)) _ _ _ h6⟩
    · rw [rd_cntSat, if_pos rfl, h5]
    · rw [rd_cntSat, if_neg ha, h5]
  · exact ⟨h1, h2, h3, h5 _, h4, fun a _ _ => h5 a, h6⟩

end

/-- Settles O31: a crossing by whether its pair is on and in blanking, and the end of blanking by its sample. -/
theorem desaturation : Obligations.Desaturation := by
  refine ⟨fun p s h => ?_, fun p s hu h => ?_, fun p s hu ho hb hd => ?_, fun p s hb hu hd => ?_, fun p s h => ⟨_, rfl, blankingEnd_clear h⟩⟩
  · exact congrArg Host.Outcome.next (if_pos (by rw [h]; rfl))
  · obtain ⟨h1, h2, h3, h4, h5⟩ := dsatCrossing_quiet hu h
    exact ⟨_, rfl, h1, h5, h2, h3, h4⟩
  · refine ⟨_, congrArg Host.Outcome.next (doDsatCrossing_trips hu ho hb), ?_⟩
    exact bAssert_trippedBy (by have := p.isLt; simp [isWdogOrSs]; lia) (.inl (by lia)) hd
  · obtain ⟨x, hx⟩ := Option.isSome_iff_exists.mp hb
    obtain ⟨t, ht, htd⟩ := doBlankingEnd_beyond hx hu
    refine ⟨_, congrArg Host.Outcome.next ht, ?_⟩
    exact bAssert_trippedBy (by have := p.isLt; simp [isWdogOrSs]; lia) (.inl (by lia)) (live_of_dev htd hd)

/-! Requests for a safe stop. -/

/-- An interrupt event sets its bit of SRC_STATUS. -/
theorem rd_vecRaise_status (v r : Nat) (s : State) (hv : v < 64) (hr : r < 4) : rd (vecRaise v s) (aSrcStatus r) = rd s (aSrcStatus r) := by
  unfold vecRaise aSrcStatus
  simp only [rd_modHost, rd_modTime]
  split
  · rfl
  · rw [rd_wr_ne _ _ (by lia), rd_wr_ne _ _ (by lia), rd_wr_ne _ _ (by lia)]

theorem bit_irq {n : Nat} (hn : n < 128) (s : State) : bit (rd (irq n s) (aSrcStatus (n / 32))) (n % 32) = true := by
  unfold irq
  extract_lets r b old s1 v
  have hr : r < 4 := by lia
  have hb : b < 32 := Nat.mod_lt _ (by decide)
  have h1 : bit (rd s1 (aSrcStatus r)) b = true := by
    unfold s1
    rw [rd_orWord_ne _ _ (by unfold aSvc aSrcStatus; lia), rd_orWord, if_pos rfl, bit_or, bit_wd _ hb, Nat.testBit_two_pow_self,
      Bool.or_true]
  have hv : v < 64 := Nat.mod_lt _ (by decide)
  show bit (rd _ (aSrcStatus r)) b = true
  split
  · split
    · rw [rd_orWord_ne _ _ (by unfold aStampOvr aSrcStatus; lia)]
      exact h1
    · split
      · exact h1
      · rw [rd_vecRaise_status _ _ _ hv hr]
        exact h1
  · exact h1

/-- The host interface of a state with the requests and responses of the fabric left out. -/
theorem irq_hostCore {n : Nat} (hn : n < 128) (s : State) : hostCore (irq n s).host = hostCore s.host :=
  kb_irq (keptB_host s).toKeptR n s hn rfl

theorem hostCore_svcSeq {h k : HostIf} (e : hostCore h = hostCore k) : h.svcSeq = k.svcSeq ∧ h.hostExpired = k.hostExpired
    ∧ h.svcExpired = k.svcExpired := by
  simpa [hostCore] using congrArg (fun x : HostIf => (x.svcSeq, x.hostExpired, x.svcExpired)) e

section
variable {n : Nat} {s : State}

/-- A request in TRIPPED or SAFE-STOP is only logged. -/
theorem bAssert_logged (hn : n = 186 ∨ n = 187) (hd : s.dev = .tripped ∨ s.dev = .safeStop) : bAssert n none s = logEv 3 n s :=
  if_pos ⟨hn, hd⟩

theorem unchangedBut_trans {l : List Part} {s t u : State} (h : unchangedBut l s t) (h' : unchangedBut l t u) : unchangedBut l s u := by
  intro p hp
  have h1 := h p hp
  have h2 := h' p hp
  cases p <;> exact Eq.trans h2 h1

theorem logEv_frame {l : List Part} (h : Part.host ∈ l) (code arg : Nat) (s : State) : unchangedBut l s (logEv code arg s) := by
  intro p hp
  cases p
  case host => exact absurd h hp
  all_goals rfl

/-- What a request that requests nothing leaves: the state, or a log entry. -/
theorem request_idle {v : Word} (hn : n = 186 ∨ n = 187) (h : v ≠ wd 0x5353 ∨ s.dev = .tripped ∨ s.dev = .safeStop) :
    let t := if v = wd 0x5353 then bAssert n none s else s
    t = s ∨ t = logEv 3 n s := by
  by_cases hv : v = wd 0x5353
  · right
    exact (if_pos hv).trans (bAssert_logged hn (h.resolve_left (fun hne => hne hv)))
  · exact .inl (if_neg hv)

theorem svcAccess_latch (s : State) : (svcAccess s).gorse.latch = s.gorse.latch :=
  holds_if (P := fun t => t.gorse.latch = s.gorse.latch) (fun _ => rfl) (fun _ => rfl)

theorem svcAccess_svcSeq (s : State) : (svcAccess s).host.svcSeq = s.host.svcSeq :=
  holds_if (P := fun t => t.host.svcSeq = s.host.svcSeq) (fun _ => rfl) (fun _ => rfl)

theorem hostSafeStop_stops {v : Word} (hv : v = wd 0x5353) (hd : s.dev = .run) (ha : tmOf s 0 186 = 0) (hb : tmOf s 1 186 = 0) :
    (doHostSafeStop v (hostAccess s)).dev = .safeStop ∧ (doHostSafeStop v (hostAccess s)).gorse.latch.testBit 186 = true := by
  rw [doHostSafeStop, if_pos hv]
  exact bAssert_stop rfl ((hostAccess_dev s).trans hd) ((tmOf_congr (hostAccess_damask s) 0 186).trans ha)
    ((tmOf_congr (hostAccess_damask s) 1 186).trans hb)

theorem hostSafeStop_idle {v : Word} (h : v ≠ wd 0x5353 ∨ s.dev = .tripped ∨ s.dev = .safeStop) :
    let t := doHostSafeStop v (hostAccess s)
    t.dev = s.dev ∧ t.gorse.latch = s.gorse.latch ∧ unchangedBut [.gorse, .host] s t := by
  have hf := unchangedBut_hostAccess s
  have e : doHostSafeStop v (hostAccess s) = hostAccess s ∨ doHostSafeStop v (hostAccess s) = logEv 3 186 (hostAccess s) :=
    request_idle (.inl rfl) (by rw [hostAccess_dev]; exact h)
  dsimp only
  rcases e with e | e <;> rw [e]
  · exact ⟨hostAccess_dev s, hostAccess_latch s, hf⟩
  · exact ⟨hostAccess_dev s, hostAccess_latch s, unchangedBut_trans hf (logEv_frame (by decide) _ _ _)⟩

/-- The effect of SAFE_STOP before its interrupt. -/
noncomputable def stopAsked (v : Word) (s : State) : State := if v = wd 0x5353 then bAssert 187 none s else s

theorem safeStop_eq (v : Word) (s : State) : svcCommand (doSafeStop v) s = svcDone (irq 7 (stopAsked v (svcAccess s))) := rfl

theorem svcDone_keeps (s : State) : (svcDone s).dev = s.dev ∧ (svcDone s).gorse = s.gorse ∧ (svcDone s).regs = s.regs
    ∧ (svcDone s).host.svcSeq = s.host.svcSeq + 1 := ⟨rfl, rfl, rfl, rfl⟩

theorem irq_gorse' (n : Nat) (s : State) : (irq n s).gorse = s.gorse := kept_irq (kept_same .gorse rfl s) n s rfl

theorem safeStop_stops {v : Word} (hv : v = wd 0x5353) (hd : s.dev = .run) (ha : tmOf s 0 187 = 0) (hb : tmOf s 1 187 = 0) :
    let t := svcCommand (doSafeStop v) s
    t.dev = .safeStop ∧ t.gorse.latch.testBit 187 = true ∧ bit (rd t (aSrcStatus 0)) 7 = true := by
  obtain ⟨h1, h2⟩ := bAssert_stop (n := 187) (s := svcAccess s) rfl ((svcAccess_dev s).trans hd)
    ((tmOf_congr (svcAccess_damask s) 0 187).trans ha) ((tmOf_congr (svcAccess_damask s) 1 187).trans hb)
  have e : stopAsked v (svcAccess s) = bAssert 187 none (svcAccess s) := if_pos hv
  obtain ⟨g1, g2, g3, -⟩ := svcDone_keeps (irq 7 (stopAsked v (svcAccess s)))
  dsimp only
  rw [safeStop_eq, g1, g2, rd_of_regs g3, irq_dev, irq_gorse', e]
  exact ⟨h1, h2, bit_irq (by decide) _⟩

theorem safeStop_idle {v : Word} (h : v ≠ wd 0x5353 ∨ s.dev = .tripped ∨ s.dev = .safeStop) :
    let t := svcCommand (doSafeStop v) s
    t.dev = s.dev ∧ t.gorse.latch = s.gorse.latch ∧ bit (rd t (aSrcStatus 0)) 7 = true ∧ t.host.svcSeq = s.host.svcSeq + 1
    ∧ unchangedBut [.regs, .events, .gorse, .time, .host] s t := by
  have e : stopAsked v (svcAccess s) = svcAccess s ∨ stopAsked v (svcAccess s) = logEv 3 187 (svcAccess s) :=
    request_idle (.inr rfl) (by rw [svcAccess_dev]; exact h)
  have hd : (stopAsked v (svcAccess s)).dev = s.dev := by rcases e with e | e <;> rw [e] <;> exact svcAccess_dev s
  have hl : (stopAsked v (svcAccess s)).gorse.latch = s.gorse.latch := by rcases e with e | e <;> rw [e] <;> exact svcAccess_latch s
  have hq : (stopAsked v (svcAccess s)).host.svcSeq = s.host.svcSeq := by rcases e with e | e <;> rw [e] <;> exact svcAccess_svcSeq s
  have hf : unchangedBut [.regs, .events, .gorse, .time, .host] s (stopAsked v (svcAccess s)) := by
    have h0 := kept_svcAccess ((kept_unchangedBut [.regs, .events, .gorse, .time, .host] s).toKeptDev.toKept.mono (by decide)) s
      (unchangedBut_refl _ s)
    rcases e with e | e <;> rw [e]
    · exact h0
    · exact unchangedBut_trans h0 (logEv_frame (by decide) _ _ _)
  obtain ⟨g1, g2, g3, g4⟩ := svcDone_keeps (irq 7 (stopAsked v (svcAccess s)))
  dsimp only
  rw [safeStop_eq, g1, g2, rd_of_regs g3, g4, irq_dev, irq_gorse', (hostCore_svcSeq (irq_hostCore (by decide) _)).1]
  refine ⟨hd, hl, bit_irq (by decide) _, congrArg (· + 1) hq, ?_⟩
  have k := (kept_unchangedBut [.regs, .events, .gorse, .time, .host] s).toKeptDev.toKept
  exact kept_modHost (k.mono (by decide)) _ _ (kept_irq (k.mono (by decide)) 7 _ hf)

/-- The source of a watchdog. -/
noncomputable def wdogSrc (svc : Bool) : Nat := if svc then 184 else 183

/-- The watchdog has expired. -/
noncomputable def wdogOver (svc : Bool) (s : State) : State :=
  logEv 7 (if svc then 2 else 1) (modHost (fun h => if svc then { h with svcExpired := true } else { h with hostExpired := true }) s)

theorem doWatchdogExpire_eq {svc : Bool} (hr : wdogRuns s svc = true) (hp : wdogPast s svc 2 = true)
    (he : (if svc then s.host.svcExpired else s.host.hostExpired) = false) :
    doWatchdogExpire svc s = bRise (wdogSrc svc) (wdogOver svc s) := by
  unfold doWatchdogExpire
  rw [hr, hp, he]
  rfl

theorem wdogOver_expired (svc : Bool) (s : State) :
    (if svc then (wdogOver svc s).host.svcExpired else (wdogOver svc s).host.hostExpired) = true := by
  cases svc <;> rfl

theorem bRise_hostCore (n : Nat) (s : State) : hostCore (bRise n s).host = hostCore s.host :=
  kb_bAssert (keptB_host s) n none (setLive n true s) rfl

end

/-- Settles O32: a request is logged or reaches the fabric, which from RUN brings SAFE-STOP. -/
theorem safeStopRequests : Obligations.SafeStopRequests := by
  refine ⟨fun v s hv hd ha hb => ⟨_, rfl, hostSafeStop_stops hv hd ha hb⟩, fun v s h => ⟨_, rfl, hostSafeStop_idle h⟩,
    fun v s hv hd ha hb => ⟨_, rfl, safeStop_stops hv hd ha hb⟩, fun v s h => ⟨_, rfl, safeStop_idle h⟩,
    fun svc s hd hr hp he ha hb => ⟨_, congrArg Host.Outcome.next (doWatchdogExpire_eq hr hp he), ?_⟩⟩
  obtain ⟨h1, h2⟩ := bAssert_stop (n := wdogSrc svc) (s := setLive (wdogSrc svc) true (wdogOver svc s)) (by cases svc <;> rfl) hd ha hb
  obtain ⟨-, hh, hs⟩ := hostCore_svcSeq (bRise_hostCore (wdogSrc svc) (wdogOver svc s))
  refine ⟨h1, h2, ?_⟩
  rw [hh, hs]
  exact wdogOver_expired svc s

end Sys2Proof.Protect
end

section
-- One proof after another: the check compiles the whole text in one process, and memory is short.
set_option Elab.async false
/-! Chapter 8: the safe-stop sequence (R402, R403) and filtered sources (R208, R212). -/

namespace Sys2Proof.Protect

open Sys2Proof Sys2Proof.Machine Sys2Proof.Laws Sys2Proof.Conversion Sys2Proof.Rules Sys2Proof.Control Sys2Proof.Commits Sys2Proof.Links

/-! The sequence. -/

/-- The step at the head has acted: the next one is armed at the boundary. -/
noncomputable def stepActs (g : Gorse) : Gorse := { g with ssArmed := false, ssReady := false }

/-- The step at the head has ended. -/
noncomputable def stepEnds (rest : List SsStep) (g : Gorse) : Gorse :=
  { g with ssSteps := rest, ssStep := g.ssStep + 1, ssWaiting := false, ssArmed := false, ssReady := false }

section
variable {s : State}

theorem ssPop_more {x y : SsStep} {r : List SsStep} (h : s.gorse.ssSteps = x :: y :: r) :
    ssPop s = modGorse (stepEnds (y :: r)) s := by
  unfold ssPop
  rw [h]
  rfl

theorem ssPop_last {x : SsStep} (h : s.gorse.ssSteps = [x]) : ssPop s = ssEnd (modGorse (stepEnds []) s) := by
  unfold ssPop
  rw [h]
  rfl

theorem ssEnd_gorse (s : State) : (ssEnd s).gorse = ssClear s.gorse := by
  unfold ssEnd
  extract_lets s1
  have h1 : Holds (samePart .gorse s1) (clearEnables s1) := kept_clearEnables (kept_same .gorse rfl s1) s1 rfl
  have h2 := kept_asyncSet (kept_same .gorse rfl s1) 256 _ h1
  have h3 := kept_applySafe (kept_same .gorse rfl s1) _ h2
  exact kept_settleBlank (kept_same .gorse rfl s1) _ h3

theorem ssEnd_en (s : State) : (ssEnd s).mod.en = 0 := by
  unfold ssEnd
  extract_lets s1
  have k := (keptB_en (clearEnables s1)).toKeptR
  have h := kb_settleBlank k _ (kb_applySafe k _ (kb_asyncSet k 256 _ (Nat.and_self _)))
  have h' : (settleBlank (applySafe (asyncSet 256 (clearEnables s1)))).mod.en &&& (clearEnables s1).mod.en
      = (settleBlank (applySafe (asyncSet 256 (clearEnables s1)))).mod.en := h
  rw [clearEnables_en, Nat.and_zero] at h'
  exact h'.symm

/-- A sequence that has ended. -/
theorem ssEnd_spec (hd : s.dev = .safeStop) : (ssEnd s).mod.en = 0 ∧ (ssEnd s).gorse.ssRunning = false
    ∧ (ssEnd s).gorse.ssSteps = [] ∧ gatesLow (ssEnd s) ∧ (ssEnd s).dev = .safeStop := by
  have hg := ssEnd_gorse s
  have hdev : (ssEnd s).dev = .safeStop := (ssEnd_dev s).trans hd
  have hr : (ssEnd s).gorse.ssRunning = false := by
    rw [hg]
    rfl
  refine ⟨ssEnd_en s, hr, ?_, Whole.gatesLow_of_outputsLive ?_, hdev⟩
  · rw [hg]
    rfl
  · rw [outputsLive, hdev, hr]
    rfl

theorem ssPop_ended {x : SsStep} (hd : s.dev = .safeStop) (h : s.gorse.ssSteps = [x]) : (ssPop s).mod.en = 0
    ∧ (ssPop s).gorse.ssRunning = false ∧ (ssPop s).gorse.ssSteps = [] ∧ gatesLow (ssPop s) ∧ (ssPop s).dev = .safeStop := by
  rw [ssPop_last h]
  exact ssEnd_spec (s := modGorse (stepEnds []) s) hd

/-- The step at the head acts where the sequence runs and its boundary has come. -/
theorem doSsStep_wait {cg us : Nat} {r : List SsStep} (h1 : s.gorse.ssRunning = true) (h2 : s.gorse.ssReady = true)
    (h3 : s.gorse.ssWaiting = false) (h : s.gorse.ssSteps = .wait cg us :: r) :
    doSsStep s = modGorse (fun q => { q with ssWaiting := true }) (modGorse stepActs s) := by
  unfold doSsStep
  dsimp only
  rw [h1, h2, h3, h]
  rfl

theorem doSsStep_disable {cg m : Nat} {r : List SsStep} (h1 : s.gorse.ssRunning = true) (h2 : s.gorse.ssReady = true)
    (h3 : s.gorse.ssWaiting = false) (h : s.gorse.ssSteps = .disable cg m :: r) :
    doSsStep s = ssPop (modMod (fun q => { q with en := q.en &&& (0xFFFF ^^^ (m &&& 0xFFFF)) }) (modGorse stepActs s)) := by
  unfold doSsStep
  dsimp only
  rw [h1, h2, h3, h]
  rfl

/-- A RAMP step at its boundary: its ramp joins those that run. -/
noncomputable def rampJoins (r : Ramp) (q : Gorse) : Gorse := { q with ramps := q.ramps ++ [r], ssWaiting := true }

theorem doSsStep_ramp {cg us : Nat} {slots : List (Nat × Nat)} {r : List SsStep} (h1 : s.gorse.ssRunning = true)
    (h2 : s.gorse.ssReady = true) (h3 : s.gorse.ssWaiting = false) (h : s.gorse.ssSteps = .ramp cg slots us :: r) :
    doSsStep s = rampDone (modGorse (rampJoins { slots := slots, b0 := (group s cg).bAt, len := 400 * us }) (modGorse stepActs s)) := by
  unfold doSsStep
  dsimp only
  rw [h1, h2, h3, h]
  rfl

/-- A ramp that has just begun has slots that have not reached zero. -/
theorem rampDone_begun {slots : List (Nat × Nat)} {b0 len : Nat} (hs : slots ≠ []) :
    rampDone (modGorse (rampJoins { slots := slots, b0 := b0, len := len }) s)
      = modGorse (rampJoins { slots := slots, b0 := b0, len := len }) s := by
  have h : (modGorse (rampJoins { slots := slots, b0 := b0, len := len }) s).gorse.ramps.all
      (fun r => !r.live || r.slots.all r.zeroed.contains) = false := by
    show (s.gorse.ramps ++ [_]).all _ = false
    rw [List.all_append]
    cases slots with
    | nil => exact absurd rfl hs
    | cons x xs => simp
  unfold rampDone
  split
  · rw [h]
    rfl
  · rfl

theorem doSsWaitEnd_eq {cg us : Nat} {r : List SsStep} (hw : s.gorse.ssWaiting = true) (h : s.gorse.ssSteps = .wait cg us :: r) :
    doSsWaitEnd s = ssPop s := by
  unfold doSsWaitEnd
  rw [hw, h]

theorem modGorse_frame (f : Gorse → Gorse) (s : State) : unchangedBut [.gorse] s (modGorse f s) :=
  kept_modGorse (keptBut _ s) f s (unchangedBut_refl _ s)

end

/-- Settles O33, by the step at the head of the sequence. -/
theorem safeStopSequence : Obligations.SafeStopSequence := by
  refine ⟨fun cg us r s h1 h2 h3 h => ⟨_, congrArg Host.Outcome.next (doSsStep_wait h1 h2 h3 h), rfl, ?_⟩,
    fun cg m x r s h1 h2 h3 h => ⟨_, congrArg Host.Outcome.next ((doSsStep_disable h1 h2 h3 h).trans (ssPop_more h)), rfl, rfl, rfl, h1, ?_⟩,
    fun cg us slots r s h1 h2 h3 h hs =>
      ⟨_, congrArg Host.Outcome.next ((doSsStep_ramp h1 h2 h3 h).trans (rampDone_begun hs)), rfl, ?_⟩,
    fun cg m s hd h1 h2 h3 h => ⟨_, congrArg Host.Outcome.next (doSsStep_disable h1 h2 h3 h), ?_⟩,
    fun cg us s hd hw h => ⟨_, congrArg Host.Outcome.next (doSsWaitEnd_eq hw h), ?_⟩,
    fun cg us x r s hw h => ⟨_, congrArg Host.Outcome.next ((doSsWaitEnd_eq hw h).trans (ssPop_more h)), rfl, modGorse_frame _ s⟩⟩
  · exact unchangedBut_trans (modGorse_frame stepActs s) (modGorse_frame _ _)
  · have k := keptBut [.mod, .gorse] s
    exact kept_modGorse (k.mono (by decide)) _ _ (kept_modMod (k.mono (by decide)) _ _
      (fun _ => and_mask _ _) (kept_modGorse (k.mono (by decide)) _ _ (unchangedBut_refl _ s)))
  · exact unchangedBut_trans (modGorse_frame stepActs s) (modGorse_frame _ _)
  · obtain ⟨e1, e2, e3, e4, e5⟩ := ssPop_ended
      (s := modMod (fun q => { q with en := q.en &&& (0xFFFF ^^^ (m &&& 0xFFFF)) }) (modGorse stepActs s)) hd h
    exact ⟨e1, e2, e3, e4, e5.trans hd.symm⟩
  · obtain ⟨e1, e2, e3, e4, e5⟩ := ssPop_ended hd h
    exact ⟨e1, e2, e3, e4, e5.trans hd.symm⟩

end Sys2Proof.Protect
end

section
-- One proof after another: the check compiles the whole text in one process, and memory is short.
set_option Elab.async false
/-! Chapter 8: filtered sources of kind C (R208, R212, R236). -/

namespace Sys2Proof.Protect

open Sys2Proof Sys2Proof.Machine Sys2Proof.Laws Sys2Proof.Conversion Sys2Proof.Rules Sys2Proof.Control Sys2Proof.Commits Sys2Proof.Links

/-! A trip record (R226, R236). -/

/-- A trip record of source n has been written at the head of the ring, and nothing is latched by it. -/
structure Recorded (n : Nat) (s t : State) : Prop where
  latch : t.gorse.latch = s.gorse.latch
  seq : t.gorse.recSeq = s.gorse.recSeq + 1
  head : t.gorse.recHead = (s.gorse.recHead + 1) % 32
  used : t.gorse.recUsed.testBit s.gorse.recHead = true
  word : fld (recWord t s.gorse.recHead 0) 16 8 = n

/-- What the beginning of a record leaves of the ring. -/
noncomputable def ringOf (g : Gorse) : Nat × Nat × Nat := (g.latch, g.recSeq, g.recHead)

theorem ringOf_snap (s : State) : ringOf (snap s).gorse = ringOf s.gorse :=
  holds_if (P := fun t => ringOf t.gorse = ringOf s.gorse) (fun _ => rfl) (fun _ => rfl)

theorem gorseStick_gorse (b : Nat) (s : State) : (gorseStick b s).gorse = s.gorse := kept_gorseStick (kept_same .gorse rfl s) b s rfl

theorem ringOf_xchk (n : Nat) (s : State) : ringOf (xchk n s).gorse = ringOf s.gorse := by
  unfold xchk
  extract_lets va vb
  split
  · rw [gorseStick_gorse]
    rfl
  · rfl

/-- The first word of a record shows its source. -/
theorem source_of_word {n seq layer action : Nat} (hn : n < 256) :
    fld (wd (seq % 65536 + 65536 * n + 2 ^ 24 * layer + 2 ^ 27 * action)) 16 8 = n := by
  rw [fld, wd, BitVec.toNat_ofNat, natFld]
  omega

theorem record_spec {n : Nat} (hn : n < 256) (layer action links pairs : Nat) (blank : Option (Nat × Nat)) (s0 : State) :
    Recorded n s0 (record n layer action links pairs blank s0) := by
  unfold record
  extract_lets s fresh s1 r same sec ns w0 w3 w5 w6 ws s2 s3 s4 s5
  have h1 : ringOf s1.gorse = ringOf s0.gorse := by
    refine (?_ : ringOf s1.gorse = ringOf s.gorse).trans (ringOf_snap s0)
    exact holds_if (P := fun t => ringOf t.gorse = ringOf s.gorse) (fun _ => rfl) (fun _ => rfl)
  have h2 : s2.gorse = s1.gorse := kb_onlyIf (P := samePart .gorse s1) _ _ _ (fun t h => (gorseStick_gorse 6 t).trans h) rfl
  have hr : r = s0.gorse.recHead := congrArg (fun x => x.2.2) h1
  have hl : s1.gorse.latch = s0.gorse.latch := congrArg (fun x => x.1) h1
  have hq : s1.gorse.recSeq = s0.gorse.recSeq := congrArg (fun x => x.2.1) h1
  have h4 : Recorded n s0 s4 := by
    refine holds_forEach (P := Recorded n s0) _ (fun q t h => ?_) _ s3 ?_
    · have e := tget_tset_ne dZeroW t.gorse.recs (recWord t q 3 ||| wd (2 ^ 19)) (j := 8 * s0.gorse.recHead + 0) (k := 8 * q + 3) (by lia)
      exact ⟨h.latch, h.seq, h.head, h.used, (congrArg (fun w => fld w 16 8) e).trans h.word⟩
    · have hs : s2.gorse.recSeq = s0.gorse.recSeq := by rw [h2, hq]
      refine ⟨?_, congrArg (· + 1) hs, by rw [← hr]; rfl, ?_, ?_⟩
      · show s2.gorse.latch = _
        rw [h2, hl]
      · show (s2.gorse.recUsed ||| 2 ^ r).testBit s0.gorse.recHead = true
        rw [← hr, Nat.testBit_or, Nat.testBit_two_pow_self, Bool.or_true]
      · have hw : recWord s3 s0.gorse.recHead 0 = wd w0 := by
          rw [← hr]
          show tget dZeroW (tsetRun dZeroW s2.gorse.recs (8 * r) ws) (8 * r + 0) = _
          rw [tget_tsetRun, if_pos (Nat.le_add_right _ _), Nat.add_sub_cancel_left]
          rfl
        rw [hw]
        exact source_of_word hn
  have h6 : (wake 5 0 (recTrigger 2 (irq 1 s5))).gorse = s4.gorse :=
    kept_wake (kept_same .gorse rfl s4) 5 0 _ (kept_recTrigger (kept_same .gorse rfl s4) 2 _ (kept_irq (kept_same .gorse rfl s4) 1 _ rfl))
  obtain ⟨e1, e2, e3, e4, e5⟩ := h4
  have hw : recWord (wake 5 0 (recTrigger 2 (irq 1 s5))) s0.gorse.recHead 0 = recWord s4 s0.gorse.recHead 0 := by
    rw [recWord, h6, recWord]
  exact ⟨by rw [h6, e1], by rw [h6, e2], by rw [h6, e3], by rw [h6, e4], by rw [hw, e5]⟩

/-- A source that only asks for its record. -/
theorem fabric_notify {n va vb : Nat} {s : State} (hL : fabricLatches false va vb s = false) (hN : asksFor .notify va vb s = true) :
    ∃ layer action links pairs, fabric n false va vb false none s = record n layer action links pairs none (snap s) := by
  unfold fabric
  extract_lets t acts has k3 bsTrip wantTrip wantSs live bl bp latching latched v action links pairs s1 s2 s3
  have hdam : t.damask = s.damask := kept_snap (kept_same .damask rfl s) s rfl
  have hhas : ∀ c, has c = asksFor c va vb s := fun c => asksFor_congr va vb hdam c
  have hall : asksFor .trip va vb s = false ∧ asksFor .safeStop va vb s = false ∧ asksFor .block va vb s = false := by
    unfold fabricLatches at hL
    simpa [and_assoc] using hL
  obtain ⟨hT, hS, hB⟩ := hall
  have eL : latching = false := by
    show (false || has .trip || has .safeStop || has .block) = false
    rw [hhas, hhas, hhas, hT, hS, hB]
    rfl
  have eT : wantTrip = false := by
    show (false && !isWdogOrSs n && !k3 || has .trip) = false
    rw [hhas, hT]
    rfl
  have eS : wantSs = false := by
    show ((false && isWdogOrSs n) || has .safeStop) = false
    rw [hhas, hS]
    rfl
  have e3 : s3 = s1 := by
    have e : (has .block || k3) = false := by
      rw [hhas, hB]
      rfl
    show (if has .block || k3 then blockAct bl bp s2 else s2) = s1
    rw [e, if_neg Bool.false_ne_true]
    show (if latching then _ else s1) = s1
    rw [eL, if_neg Bool.false_ne_true]
  rw [if_neg (by rw [hhas, hN]; simp), eT, eS, if_neg Bool.false_ne_true, if_neg Bool.false_ne_true, e3]
  refine ⟨layerOf false (va != 0) (vb != 0), action, links, pairs, ?_⟩
  show (if ((latching && !latched) || (has .notify && !false)) = true then _ else _) = _
  rw [hhas, hN, Bool.not_false, Bool.and_true, Bool.or_true, if_pos rfl]

/-! A filtered source (R208). -/

theorem testBit_setBit (v n k : Nat) (b : Bool) : (setBit v n b).testBit k = if k = n then b else v.testBit k := by
  unfold setBit
  by_cases hk : k = n
  · subst hk
    rw [if_pos rfl]
    split
    · next h => simpa using h
    · next h =>
      rw [Nat.testBit_xor, Nat.testBit_two_pow_self]
      cases hb : v.testBit k <;> cases b <;> simp_all
  · rw [if_neg hk]
    split
    · rfl
    · rw [Nat.testBit_xor, Nat.testBit_two_pow, decide_eq_false (Ne.symm hk), Bool.xor_false]

section
variable {n : Nat} {a b : Bool} {s : State}

/-- SRC_LIVE of a measured condition follows its filters. -/
noncomputable def condLive (n : Nat) (a b : Bool) (s : State) : State := if measCond n then setLive n (a || b) s else s

/-- The inputs of both channels. -/
noncomputable def inputs (n : Nat) (a b : Bool) (g : Gorse) : Gorse := { g with inA := setBit g.inA n a, inB := setBit g.inB n b }

/-- The state with the source's level at both channels taken in, and the cross-check of its cycle. -/
noncomputable def levelTaken (n : Nat) (a b : Bool) (s : State) : State := xchk n (modGorse (inputs n a b) (condLive n a b s))

theorem srcLive_setLive {n : Nat} (h : measCond n = true) (b : Bool) (s : State) : srcLive (setLive n b s) n = b := by
  have hr : 212 ≤ n ∧ n < 244 := by simpa [measCond] using h
  unfold srcLive
  rw [if_neg (by lia), if_neg (by lia), if_neg (by lia), if_neg (by lia), if_neg (by lia), if_neg (by lia),
    if_neg (by lia), if_neg (by lia), if_neg (by lia), if_neg (by lia), if_neg (by lia)]
  exact (testBit_setBit s.gorse.live n n b).trans (if_pos rfl)

/-- The source may assert: it has no level to show, or its level is live. -/
theorem srcLive_condLive (h : (a = false ∧ b = false) ∨ measCond n = true ∨ srcLive s n = true) :
    ((a || b) && !srcLive (condLive n a b s) n) = false := by
  unfold condLive
  by_cases hm : measCond n = true
  · rw [if_pos hm, srcLive_setLive hm]
    cases a <;> cases b <;> rfl
  · rw [if_neg hm]
    rcases h with ⟨rfl, rfl⟩ | h | h
    · rfl
    · exact absurd h hm
    · rw [h, Bool.not_true, Bool.and_false]

theorem doCSourceFiltered_eq (hc : isC n = true) (hm : srcMasked s n = false)
    (h : (a = false ∧ b = false) ∨ measCond n = true ∨ srcLive s n = true) : doCSourceFiltered n a b s =
      if a || b then fabric n false (if s.gorse.voteA then (if a then tmOf s 0 n else 0) else 0)
        (if s.gorse.voteB then (if b then tmOf s 1 n else 0) else 0) (notified s n) none (levelTaken n a b s)
      else levelTaken n a b s := by
  unfold doCSourceFiltered
  rw [hc, hm, if_neg (by decide)]
  dsimp only
  rw [show ((a || b) && !srcLive (if measCond n then setLive n (a || b) s else s) n) = false from srcLive_condLive h,
    if_neg Bool.false_ne_true]
  rfl

theorem condLive_inputs (n : Nat) (a b : Bool) (s : State) :
    (condLive n a b s).gorse.inA = s.gorse.inA ∧ (condLive n a b s).gorse.inB = s.gorse.inB :=
  ⟨holds_if (P := fun t => t.gorse.inA = s.gorse.inA) (fun _ => rfl) (fun _ => rfl),
    holds_if (P := fun t => t.gorse.inB = s.gorse.inB) (fun _ => rfl) (fun _ => rfl)⟩

theorem gorseCore_inputs {g h : Gorse} (e : gorseCore g = gorseCore h) : g.inA = h.inA ∧ g.inB = h.inB := by
  simpa [gorseCore] using congrArg (fun x : Gorse => (x.inA, x.inB)) e

/-- The inputs of the channels after the source's level is taken in. -/
theorem levelTaken_inputs (n : Nat) (a b : Bool) (s : State) : (levelTaken n a b s).gorse.inA = setBit s.gorse.inA n a
    ∧ (levelTaken n a b s).gorse.inB = setBit s.gorse.inB n b := by
  have h := kb_xchk (keptB_gorse (modGorse (inputs n a b) (condLive n a b s))).toKeptR n _ rfl
  obtain ⟨hA, hB⟩ := gorseCore_inputs h
  obtain ⟨cA, cB⟩ := condLive_inputs n a b s
  exact ⟨hA.trans (congrArg (setBit · n a) cA), hB.trans (congrArg (setBit · n b) cB)⟩

theorem cSource_inputs (hc : isC n = true) (hm : srcMasked s n = false)
    (h : (a = false ∧ b = false) ∨ measCond n = true ∨ srcLive s n = true) : let t := doCSourceFiltered n a b s
    t.gorse.inA.testBit n = a ∧ t.gorse.inB.testBit n = b
    ∧ ∀ k, k ≠ n → t.gorse.inA.testBit k = s.gorse.inA.testBit k ∧ t.gorse.inB.testBit k = s.gorse.inB.testBit k := by
  have hin : (doCSourceFiltered n a b s).gorse.inA = setBit s.gorse.inA n a
      ∧ (doCSourceFiltered n a b s).gorse.inB = setBit s.gorse.inB n b := by
    obtain ⟨hA, hB⟩ := levelTaken_inputs n a b s
    rw [doCSourceFiltered_eq hc hm h]
    split
    · obtain ⟨fA, fB⟩ := gorseCore_inputs (kb_fabric (keptB_gorse (levelTaken n a b s)) n false
        (if s.gorse.voteA then (if a then tmOf s 0 n else 0) else 0) (if s.gorse.voteB then (if b then tmOf s 1 n else 0) else 0)
        (notified s n) none _ rfl)
      exact ⟨fA.trans hA, fB.trans hB⟩
    · exact ⟨hA, hB⟩
  obtain ⟨hA, hB⟩ := hin
  dsimp only
  rw [hA, hB]
  simp only [testBit_setBit, if_true]
  exact ⟨trivial, trivial, fun k hk => by rw [if_neg hk, if_neg hk]; exact ⟨rfl, rfl⟩⟩

theorem levelTaken_same (p : Part) (hp : partMask [.regs, .events, .gorse, .time, .host] &&& partBit p = 0) :
    samePart p s (levelTaken n a b s) := by
  have k := kept_same p hp s
  have h0 : Holds (samePart p s) s := unchangedBut_refl [] s p (by simp)
  have h1 : Holds (samePart p s) (condLive n a b s) := holds_if (fun _ => kept_setLive (k.mono (by decide)) _ _ _ h0) (fun _ => h0)
  exact kept_xchk k n _ (kept_modGorse (k.mono (by decide)) _ _ h1)

theorem fabric_asks (n va vb : Nat) (s : State) : wantsTrip n false va vb s = asksFor .trip va vb s := rfl

theorem mem_asksFor {c : ActClass} {va vb : Nat} {s : State}
    (h : (∃ d ∈ actsOf s 0 va, d.cls = c) ∨ ∃ d ∈ actsOf s 1 vb, d.cls = c) : asksFor c va vb s = true := by
  unfold asksFor
  rw [List.any_eq_true]
  rcases h with ⟨d, hd, rfl⟩ | ⟨d, hd, rfl⟩
  · exact ⟨d, List.mem_append_left _ hd, beq_self_eq_true _⟩
  · exact ⟨d, List.mem_append_right _ hd, beq_self_eq_true _⟩

/-- A channel that votes and maps the source to TRIP. -/
theorem cSource_trips (hc : isC n = true) (hm : srcMasked s n = false) (hl : measCond n = true ∨ srcLive s n = true)
    (hd : s.dev = .run ∨ s.dev = .safeStop)
    (h : (s.gorse.voteA = true ∧ ∃ d ∈ actsOf s 0 (tmOf s 0 n), d.cls = .trip)
      ∨ (s.gorse.voteB = true ∧ ∃ d ∈ actsOf s 1 (tmOf s 1 n), d.cls = .trip)) :
    let t := doCSourceFiltered n true true s
    t.dev = .tripped ∧ t.gorse.latch.testBit n = true ∧ t.mod.en = 0 := by
  have hdam : (levelTaken n true true s).damask = s.damask := levelTaken_same .damask rfl
  have hdev : (levelTaken n true true s).dev = s.dev := levelTaken_same .dev rfl
  rw [doCSourceFiltered_eq hc hm (.inr hl)]
  refine fabric_wantsTrip n false _ _ _ none _ ?_ (live_of_dev hdev hd)
  refine (fabric_asks ..).trans ((asksFor_congr _ _ hdam _).trans (mem_asksFor ?_))
  rcases h with ⟨hv, h⟩ | ⟨hv, h⟩
  · rw [hv]
    exact .inl h
  · rw [hv]
    exact .inr h

theorem asksFor_notify {v : Nat} {s : State} (hne : actsOf s 0 v ≠ []) (h : ∀ d ∈ actsOf s 0 v, d.cls = .notify) :
    asksFor .notify v 0 s = true ∧ fabricLatches false v 0 s = false := by
  have hno : ∀ c, c ≠ .notify → asksFor c v 0 s = false := fun c hc => by
    unfold asksFor
    rw [List.any_eq_false]
    intro d hd
    rw [show actsOf s 1 0 = [] from rfl, List.append_nil] at hd
    rw [h d hd]
    simpa using Ne.symm hc
  refine ⟨?_, ?_⟩
  · obtain ⟨d, hd⟩ := List.exists_mem_of_ne_nil _ hne
    exact mem_asksFor (.inl ⟨d, hd, h d hd⟩)
  · rw [fabricLatches, hno _ (by decide), hno _ (by decide), hno _ (by decide)]
    rfl

/-- Channel A alone votes and maps the source to NOTIFY. -/
theorem cSource_notifies (hn : n < 256) (hc : isC n = true) (hm : srcMasked s n = false) (hl : measCond n = true ∨ srcLive s n = true)
    (hA : s.gorse.voteA = true) (hB : s.gorse.voteB = false) (hin : s.gorse.inA.testBit n = false)
    (hne : actsOf s 0 (tmOf s 0 n) ≠ []) (h : ∀ d ∈ actsOf s 0 (tmOf s 0 n), d.cls = .notify) :
    let t := doCSourceFiltered n true true s
    t.dev = s.dev ∧ t.mod = s.mod ∧ Recorded n s t := by
  have hdam : (levelTaken n true true s).damask = s.damask := levelTaken_same .damask rfl
  have hdev : (levelTaken n true true s).dev = s.dev := levelTaken_same .dev rfl
  have hmod : (levelTaken n true true s).mod = s.mod := levelTaken_same .mod rfl
  have hagain : notified s n = false := by rw [notified, hA, hB, hin]; rfl
  obtain ⟨hN, hL⟩ := asksFor_notify (s := levelTaken n true true s) (v := tmOf s 0 n)
    (by rw [actsOf_congr hdam]; exact hne) (by rw [actsOf_congr hdam]; exact h)
  obtain ⟨layer, action, links, pairs, e⟩ := fabric_notify (n := n) hL hN
  rw [doCSourceFiltered_eq hc hm (.inr hl), hA, hB, hagain]
  have e' : (if (true || true) = true then fabric n false (if true = true then (if true = true then tmOf s 0 n else 0) else 0)
      (if false = true then (if true = true then tmOf s 1 n else 0) else 0) false none (levelTaken n true true s)
      else levelTaken n true true s) = record n layer action links pairs none (snap (levelTaken n true true s)) := e
  rw [e']
  have hring : ringOf (snap (levelTaken n true true s)).gorse = ringOf s.gorse := by
    rw [ringOf_snap, levelTaken, ringOf_xchk]
    exact holds_if (P := fun t => ringOf (inputs n true true t.gorse) = ringOf s.gorse) (fun _ => rfl) (fun _ => rfl)
  obtain ⟨r1, r2, r3, r4, r5⟩ := record_spec hn layer action links pairs none (snap (levelTaken n true true s))
  have hl : (snap (levelTaken n true true s)).gorse.latch = s.gorse.latch := congrArg (fun x => x.1) hring
  have hq : (snap (levelTaken n true true s)).gorse.recSeq = s.gorse.recSeq := congrArg (fun x => x.2.1) hring
  have hh : (snap (levelTaken n true true s)).gorse.recHead = s.gorse.recHead := congrArg (fun x => x.2.2) hring
  rw [hl] at r1
  rw [hq] at r2
  rw [hh] at r3 r4 r5
  refine ⟨?_, ?_, r1, r2, r3, r4, r5⟩
  · exact kept_record (kept_same .dev rfl s) _ _ _ _ _ _ _ (kept_snap (kept_same .dev rfl s) _ hdev)
  · exact kept_record (kept_same .mod rfl s) _ _ _ _ _ _ _ (kept_snap (kept_same .mod rfl s) _ hmod)

/-- A source that does not reach the channels. -/
theorem cSource_ignored (h : isC n = false ∨ srcMasked s n = true
    ∨ ((a = true ∨ b = true) ∧ measCond n = false ∧ srcLive s n = false)) : doCSourceFiltered n a b s = s := by
  unfold doCSourceFiltered
  rcases h with h | h | ⟨hab, hm, hl⟩
  · rw [h]
    rfl
  · rw [h, Bool.or_true]
    rfl
  · split
    · rfl
    · dsimp only
      rw [hm, if_neg Bool.false_ne_true, hl]
      exact if_pos (by rcases hab with h | h <;> simp [h])

end

/-- Settles O34: the inputs, then the answer of the fabric by the classes that a voting channel maps. -/
theorem filteredSource : Obligations.FilteredSource := by
  refine ⟨fun n a b s hc hm h => ⟨_, rfl, cSource_inputs hc hm h⟩, fun n a b s h => congrArg Host.Outcome.next (cSource_ignored h),
    fun n s hc hm hl hd h => ⟨_, rfl, cSource_trips hc hm hl hd h⟩, fun n s hc hm hl hA hB hin hne h => ⟨_, rfl, ?_⟩⟩
  obtain ⟨h1, h2, r1, r2, r3, r4, r5⟩ := cSource_notifies n.isLt hc hm hl hA hB hin hne h
  exact ⟨h1, r1, h2, r2, r3, r4, r5⟩

end Sys2Proof.Protect
end

section
-- One proof after another: the check compiles the whole text in one process, and memory is short.
set_option Elab.async false
/-! Chapter 12: interrupt vectors and watchdogs (R343, R344, R346). -/

namespace Sys2Proof.Hosting

open Sys2Proof Sys2Proof.Machine Sys2Proof.Laws Sys2Proof.Conversion Sys2Proof.Rules Sys2Proof.Protect

/-! Vectors. -/

/-- What decides whether a vector's source is set, the engines that take a latency, and MSI-X. -/
noncomputable def SameWaits (s t : State) : Prop :=
  regsBut (fun _ => False) s t ∧ (∀ r, r < 4 → rd t (aSrcStatus r) = rd s (aSrcStatus r)) ∧ t.therm.hists = s.therm.hists
  ∧ t.host.msixOn = s.host.msixOn

theorem sameWaits_refl (s : State) : SameWaits s s := ⟨fun _ _ _ => rfl, fun _ _ => rfl, rfl, rfl⟩

theorem vecWaits_congr {s t : State} (h : SameWaits s t) (v : Nat) : vecWaits t v = vecWaits s v := by
  unfold vecWaits
  rw [Bool.eq_iff_iff, List.any_eq_true, List.any_eq_true]
  refine exists_congr fun n => and_congr_right fun hn => ?_
  have hn' : n < 118 := List.mem_range.mp hn
  rw [h.2.1 _ (by lia), h.1 (aSrcEn (n / 32)) id (by unfold intReg aSrcEn; lia), h.1 (aSrcRoute n) id (by unfold intReg aSrcRoute; lia)]

/-- One step for each vector of a list, each of which changes the pending bit of its own vector alone. -/
theorem vecs_spec {s : State} (f : Nat → State → State) (g : Nat → Bool → Bool)
    (hf : ∀ v t, v < 64 → SameWaits s t → SameWaits s (f v t)
      ∧ ∀ j, j < 64 → (f v t).host.vecPend.testBit j = if j = v then g v (t.host.vecPend.testBit v) else t.host.vecPend.testBit j)
    (l : List Nat) (hn : l.Nodup) (hl : ∀ v ∈ l, v < 64) (u : State) (hu : SameWaits s u) : SameWaits s (forEach l f u)
      ∧ ∀ j, j < 64 → (forEach l f u).host.vecPend.testBit j
        = if j ∈ l then g j (u.host.vecPend.testBit j) else u.host.vecPend.testBit j := by
  refine forEach_inv f (fun d t => SameWaits s t ∧ ∀ j, j < 64 → t.host.vecPend.testBit j
    = if j ∈ d then g j (u.host.vecPend.testBit j) else u.host.vecPend.testBit j) l hn u ⟨hu, fun _ _ => rfl⟩ fun d v t hv hm ht => ?_
  obtain ⟨hs, hp⟩ := hf v t (hl v hm) ht.1
  refine ⟨hs, fun j hj => (hp j hj).trans ?_⟩
  by_cases h : j = v
  · simp [h, ht.2 v (hl v hm), hv]
  · simp [h, ht.2 j hj]

theorem vecRaise_host (v : Nat) (s : State) : (vecRaise v s).host.vecPend = s.host.vecPend ||| 2 ^ v
    ∧ (vecRaise v s).host.msixOn = s.host.msixOn := by
  unfold vecRaise
  extract_lets held s1 s2 sends
  have h : s1.host = s.host := holds_if (P := fun t => t.host = s.host) (fun _ => rfl) fun _ => rfl
  exact ⟨(congrArg (fun x : HostIf => x.vecPend ||| 2 ^ v) h :), (congrArg (fun x : HostIf => x.msixOn) h :)⟩

theorem sameWaits_vecRaise {s t : State} {v : Nat} (hv : v < 64) (h : SameWaits s t) : SameWaits s (vecRaise v t) :=
  ⟨regsBut_trans h.1 fun a _ hi => rd_vecRaise t v a hv hi, fun r hr => (rd_vecRaise_status v r t hv hr).trans (h.2.1 r hr),
    (congrArg Therm.hists (vecRaise_therm t v)).trans h.2.2.1, (vecRaise_host v t).2.trans h.2.2.2⟩

theorem histFeed_of_calm {s : State} (h : ∀ p ∈ s.therm.hists, p.2.accepting = false) (src i : Nat) (v : Int) :
    histFeed src i v s = s := by
  rw [histFeed, List.filter_eq_nil_iff.mpr fun p hp => by simp [h p hp]]
  rfl

/-- A vector's episode that ends, before a source that is still set makes it pending again. -/
noncomputable def episodeEnd (v : Nat) (s : State) : State :=
  modHost (fun h => { h with vecPend := h.vecPend &&& (2 ^ 64 - 1 - 2 ^ v), pba := h.pba &&& (2 ^ 64 - 1 - 2 ^ v) })
    (modTime (fun t => { t with stampHeld := t.stampHeld &&& (2 ^ 64 - 1 - 2 ^ v) }) s)

theorem vecPend_episodeEnd {v j : Nat} (hv : v < 64) (hj : j < 64) (s : State) :
    (episodeEnd v s).host.vecPend.testBit j = (s.host.vecPend.testBit j && !decide (j = v)) := by
  have h : 2 ^ 64 - 1 - 2 ^ v = 2 ^ 64 - (2 ^ v + 1) := by lia
  have e : (episodeEnd v s).host.vecPend = s.host.vecPend &&& (2 ^ 64 - (2 ^ v + 1)) := congrArg (s.host.vecPend &&& ·) h
  rw [e, Nat.testBit_and, Nat.testBit_two_pow_sub_succ (Nat.pow_lt_pow_right (by decide) hv), Nat.testBit_two_pow]
  simp [hj, eq_comm]

theorem vecAckOne_spec {s t : State} (hc : ∀ p ∈ s.therm.hists, p.2.accepting = false) {v : Nat} (hv : v < 64) (h : SameWaits s t) :
    SameWaits s (vecAckOne v t) ∧ ∀ j, j < 64 → (vecAckOne v t).host.vecPend.testBit j
      = if j = v then t.host.vecPend.testBit v && vecWaits s v else t.host.vecPend.testBit j := by
  have he : SameWaits s (episodeEnd v t) := h
  have hfeed : (if t.host.vecPend.testBit v = true then histFeed 4 v (stampAge t v) t else t) = t :=
    ite_elim (P := fun u => u = t) (fun _ => histFeed_of_calm (fun p hp => hc p (h.2.2.1 ▸ hp)) _ _ _) fun _ => rfl
  have e : vecAckOne v t = if (t.host.vecPend.testBit v && vecWaits s v) = true then vecRaise v (episodeEnd v t) else episodeEnd v t := by
    rw [← vecWaits_congr he v]
    unfold vecAckOne
    extract_lets was s0 s1 s2
    have h0 : s0 = t := hfeed
    have h2 : s2 = episodeEnd v t := by unfold s2 s1; rw [h0]; rfl
    rw [h2]
  rw [e]
  split
  · next hw =>
    refine ⟨sameWaits_vecRaise hv he, fun j hj => ?_⟩
    rw [(vecRaise_host _ _).1, Nat.testBit_or, vecPend_episodeEnd hv hj, Nat.testBit_two_pow, hw]
    rcases eq_or_ne j v with rfl | hjv
    · simp
    · simp [hjv, hjv.symm]
  · next hw =>
    refine ⟨he, fun j hj => ?_⟩
    rw [vecPend_episodeEnd hv hj, Bool.eq_false_iff.mpr hw]
    by_cases hjv : j = v <;> simp [hjv]

theorem msixOne_spec {s t : State} {v : Nat} (hv : v < 64) (h : SameWaits s t) :
    let u := if (!t.host.vecPend.testBit v && vecWaits t v) = true then vecRaise v t else vecSend v t
    SameWaits s u ∧ ∀ j, j < 64 → u.host.vecPend.testBit j
      = if j = v then t.host.vecPend.testBit v || vecWaits s v else t.host.vecPend.testBit j := by
  dsimp only
  rw [vecWaits_congr h v]
  split
  · next hw =>
    refine ⟨sameWaits_vecRaise hv h, fun j _ => ?_⟩
    rw [(vecRaise_host _ _).1, Nat.testBit_or, Nat.testBit_two_pow]
    rcases eq_or_ne j v with rfl | hjv
    · simp_all
    · simp [hjv, hjv.symm]
  · next hw =>
    have hs : SameWaits s (vecSend v t) ∧ (vecSend v t).host.vecPend = t.host.vecPend :=
      holds_if (P := fun u => SameWaits s u ∧ u.host.vecPend = t.host.vecPend) (fun _ => ⟨h, rfl⟩) fun _ => ⟨h, rfl⟩
    refine ⟨hs.1, fun j _ => ?_⟩
    rw [hs.2]
    rcases eq_or_ne j v with rfl | hjv
    · cases hp : t.host.vecPend.testBit j <;> simp_all
    · simp [hjv]

/-! Watchdogs. -/

theorem hostRestart_host (s : State) : (hostRestart s).host = { s.host with hostKickAt := s.tick, hostExpired := false } :=
  kept_setLive (kept_same .host rfl _) _ _ _ rfl

theorem svcRestart_host (s : State) : (svcRestart s).host = { s.host with svcKickAt := s.tick, svcExpired := false } :=
  kept_setLive (kept_same .host rfl _) _ _ _ rfl

theorem mem_ackList (hi : Bool) (v : Word) {j : Nat} (hj : j < 64) :
    j ∈ (bitsOf 32 v.toNat).map (· + 32 * b2n hi) ↔ j / 32 = b2n hi ∧ bit v (j % 32) = true := by
  rw [List.mem_map, bit, BitVec.getLsbD]
  constructor
  · rintro ⟨b, hb, rfl⟩
    obtain ⟨hb, ht⟩ := (mem_bitsOf ..).mp hb
    rw [Nat.add_mul_mod_self_left, Nat.mod_eq_of_lt hb]
    exact ⟨by lia, ht⟩
  · exact fun h => ⟨j % 32, (mem_bitsOf ..).mpr ⟨Nat.mod_lt _ (by decide), h.2⟩, by lia⟩

theorem vecAck_spec (hi : Bool) (v : Word) (s : State) (hc : ∀ p ∈ s.therm.hists, p.2.accepting = false) :
    let t := doVecAck hi v (hostAccess s)
    (∀ j, j < 64 → t.host.vecPend.testBit j
      = (s.host.vecPend.testBit j && (!(decide (j / 32 = b2n hi) && bit v (j % 32)) || vecWaits s j)))
    ∧ regsBut (fun _ => False) s t := by
  have hu : SameWaits s (hostAccess s) ∧ (hostAccess s).host.vecPend = s.host.vecPend :=
    holds_if (P := fun u => SameWaits s u ∧ u.host.vecPend = s.host.vecPend) (fun _ => ⟨sameWaits_refl s, rfl⟩) fun _ =>
      ⟨⟨fun _ _ _ => rfl, fun _ _ => rfl, rfl, (congrArg (fun x : HostIf => x.msixOn) (hostRestart_host s) :)⟩,
        (congrArg (fun x : HostIf => x.vecPend) (hostRestart_host s) :)⟩
  have hlt : ∀ b ∈ (bitsOf 32 v.toNat).map (· + 32 * b2n hi), b < 64 := fun b hb => by
    obtain ⟨c, hc, rfl⟩ := List.mem_map.mp hb
    have := ((mem_bitsOf ..).mp hc).1
    cases hi <;> simp [b2n] <;> lia
  obtain ⟨hr, h⟩ := vecs_spec vecAckOne (fun v p => p && vecWaits s v) (fun _ _ hv ht => vecAckOne_spec hc hv ht) _
    ((nodup_bitsOf 32 v.toNat).map (add_left_injective _)) hlt (hostAccess s) hu.1
  have e : doVecAck hi v (hostAccess s) = forEach ((bitsOf 32 v.toNat).map (· + 32 * b2n hi)) vecAckOne (hostAccess s) := by
    rw [forEach, List.foldl_map]
    rfl
  refine e ▸ ⟨fun j hj => (h j hj).trans ?_, hr.1⟩
  rw [hu.2]
  by_cases hm : j / 32 = b2n hi ∧ bit v (j % 32) = true
  · rw [if_pos ((mem_ackList hi v hj).mpr hm)]
    simp [hm]
  · rw [if_neg fun h => hm ((mem_ackList hi v hj).mp h)]
    have : (decide (j / 32 = b2n hi) && bit v (j % 32)) = false := by simpa using hm
    simp [this]

theorem hostKick_host {v : Word} {s : State} (h : v = keyKick ∨ bit (rd s aHostWdogCfg) 14 = false) :
    (doHostWdogKick v (hostAccess s)).host = { s.host with hostKickAt := s.tick, hostExpired := false } := by
  cases hb : bit (rd s aHostWdogCfg) 14
  · have ha : hostAccess s = hostRestart s := if_neg (Bool.eq_false_iff.mp hb)
    have hb' : bit (rd (hostRestart s) aHostWdogCfg) 14 = false := hb
    rw [ha, doHostWdogKick, if_neg (by simp [hb']), hostRestart_host]
  · have ha : hostAccess s = s := if_pos hb
    rw [ha, doHostWdogKick, if_pos ⟨h.resolve_right (by simp [hb]), hb⟩, hostRestart_host]

theorem svcKick_host {v : Word} {s : State} (h : v = keyKick ∨ bit (rd s aSvcWdogCfg) 14 = false) :
    (svcCommand (doSvcWdogKick v) s).host = { s.host with svcKickAt := s.tick, svcExpired := false, svcSeq := s.host.svcSeq + 1 } := by
  refine congrArg (fun x : HostIf => { x with svcSeq := x.svcSeq + 1 })
    (?_ : (doSvcWdogKick v (svcAccess s)).host = { s.host with svcKickAt := s.tick, svcExpired := false })
  cases hb : bit (rd s aSvcWdogCfg) 14
  · have ha : svcAccess s = svcRestart s := if_neg (Bool.eq_false_iff.mp hb)
    have hb' : bit (rd (svcRestart s) aSvcWdogCfg) 14 = false := hb
    rw [ha, doSvcWdogKick, if_neg (by simp [hb']), svcRestart_host]
  · have ha : svcAccess s = s := if_pos hb
    rw [ha, doSvcWdogKick, if_pos ⟨h.resolve_right (by simp [hb]), hb⟩, svcRestart_host]

/-- Settles O58. -/
theorem vectorsAndWatchdogs : Obligations.VectorsAndWatchdogs := by
  refine ⟨fun hi v s hc => ⟨_, rfl, vecAck_spec hi v s hc⟩, fun s => ⟨_, rfl, ?_⟩,
    fun svc s => ⟨fun h => congrArg Host.Outcome.next (if_neg (Bool.eq_false_iff.mp h)), fun h => ⟨irq 5 s,
      congrArg Host.Outcome.next (if_pos h), bit_irq (n := 5) (by decide) s, fun a _ hi => rd_irq s 5 a (by decide) hi⟩⟩,
    fun v s h => ⟨_, rfl, ?_, exec_unchangedBut (.hostWdogKick v) s _ rfl⟩,
    fun v s hv h => congrArg Host.Outcome.next ?_, fun s h => ⟨_, rfl, ?_, exec_unchangedBut (.svcWdogKick _) s _ rfl⟩,
    fun v s h => ⟨_, rfl, ?_, exec_unchangedBut (.svcWdogKick v) s _ rfl⟩, fun v s hv h => congrArg Host.Outcome.next ?_⟩
  · obtain ⟨hr, h⟩ := vecs_spec (s := modHost (fun h => { h with msixOn := true }) s) _ (fun v p => p || vecWaits s v) (fun _ _ hv ht => msixOne_spec hv ht) (List.range 64)
      List.nodup_range (fun _ => List.mem_range.mp) _ (sameWaits_refl _)
    exact ⟨hr.2.2.2, fun j hj => (h j hj).trans (if_pos (List.mem_range.mpr hj)), hr.1⟩
  · exact hostKick_host h
  · rw [hostAccess, if_pos h, doHostWdogKick, if_neg fun hk => hv hk.1]
  · exact svcKick_host (.inl rfl)
  · exact svcKick_host (.inr h)
  · rw [svcCommand, svcAccess, if_pos h, doSvcWdogKick, if_neg fun hk => hv hk.1]

end Sys2Proof.Hosting
end

section
-- One proof after another: the check compiles the whole text in one process, and memory is short.
set_option Elab.async false
/-! Chapter 10: the time counter and the servo by command (R266, R268, R272). -/

namespace Sys2Proof.Times

open Sys2Proof Sys2Proof.Machine Sys2Proof.Laws Sys2Proof.Conversion Sys2Proof.Rules Sys2Proof.Control Sys2Proof.Clocks

/-- The time engine but for the stamps held. -/
noncomputable def SameTime (s t : State) : Prop := ∃ h, t.time = { s.time with stampHeld := h }

section
variable (s : State)

theorem vecRaise_time (v : Nat) : (vecRaise v s).time = { s.time with stampHeld := s.time.stampHeld ||| 2 ^ v } := by
  unfold vecRaise
  extract_lets held s1 s2 sends
  have h : s1.time = s.time := holds_if (P := fun t => t.time = s.time) (fun _ => rfl) fun _ => rfl
  exact (congrArg (fun x : TimeEng => { x with stampHeld := x.stampHeld ||| 2 ^ v }) h :)

theorem sameTime_refl : SameTime s s := ⟨_, rfl⟩

theorem sameTime_irq (n : Nat) : SameTime s (irq n s) := by
  unfold irq
  extract_lets r b old s1 v
  have h : SameTime s s1 := ⟨_, rfl⟩
  exact holds_if (P := SameTime s) (fun _ => holds_if (fun _ => h) fun _ => holds_if (fun _ => h) fun _ => ⟨_, vecRaise_time s1 v⟩)
    fun _ => h

theorem sameTime_stick (a m : Nat) (src : Option Nat) : SameTime s (stick a m src s) := by
  cases src with
  | none => exact ⟨_, rfl⟩
  | some n => exact holds_if (P := SameTime s) (fun _ => ⟨_, rfl⟩) fun _ => sameTime_irq (orWord a (wd m) s) n

/-- A note of the clamp rule leaves its own words and the time. -/
theorem clampSeen_spec (a : Nat) (v : Word) :
    regsBut (clampNote (blockOf a).1) s (clampSeen a v s) ∧ SameTime s (clampSeen a v s) := by
  refine holds_if (P := fun t => regsBut (clampNote (blockOf a).1) s t ∧ SameTime s t)
    (fun _ => ⟨regsBut_refl s _, sameTime_refl s⟩) fun _ => ⟨fun b hb hi => ?_, ?_⟩
  · refine (rd_irq _ 6 b (by decide) hi).trans
      ((rd_stick_ne _ _ _ (by rintro _ ⟨rfl⟩; decide) hi fun h => hb (.inr (.inl h))).trans ?_)
    exact (rd_wr_ne _ _ fun h => hb (.inl h)).trans ((rd_cntSat ..).trans (if_neg fun h => hb (.inr (.inr h))))
  · unfold noteClamp
    extract_lets b s1
    obtain ⟨h1, e1⟩ := sameTime_irq (globalStick 3 s1) 6
    obtain ⟨h2, e2⟩ := sameTime_stick s1 aGlobalSticky (2 ^ 3) (some 117)
    exact ⟨h1, e1.trans (congrArg (fun x : TimeEng => { x with stampHeld := h1 }) e2 :)⟩

theorem timeStick_src : ∀ n, some 104 = some n → n < 128 := by rintro _ ⟨rfl⟩; decide

theorem not_intReg_time {a : Nat} (h : 0x50000 ≤ a) (h' : a < 0x50800) : ¬ intReg a := by
  unfold intReg
  lia

/-- The counter at a value, before STEPPED sets. -/
noncomputable def counterAt (v last : Nat) (s : State) : State :=
  modTime (fun t => { t with sec := v / 1000000000, ns := v % 1000000000, stepUntil := max t.stepUntil last }) s

/-- A step of the counter to a value: STEPPED sets, and the fraction stays. -/
theorem stepTo_spec (v : Nat) : (stepTo v s).time.sec = v / 1000000000 ∧ (stepTo v s).time.ns = v % 1000000000
    ∧ (stepTo v s).time.frac = s.time.frac ∧ bit (rd (stepTo v s) aTimeSticky) 0 = true
    ∧ regsBut (fun a => a = aTimeSticky) s (stepTo v s) := by
  obtain ⟨last, el⟩ : ∃ last, stepTo v s = timeStick 0 (counterAt v last s) := ⟨_, rfl⟩
  obtain ⟨h, e⟩ := sameTime_stick (counterAt v last s) aTimeSticky (2 ^ 0) (some 104)
  rw [el]
  exact ⟨(congrArg TimeEng.sec e :), (congrArg TimeEng.ns e :), (congrArg TimeEng.frac e :),
    bit_stick _ 0 _ timeStick_src (not_intReg_time (by decide) (by decide)) (by decide),
    regsBut_trans (regsBut_of_regs (t := counterAt v last s) s _ rfl) (regsBut_stick _ _ _ _ timeStick_src)⟩

/-- A relative step of the counter. -/
theorem counterStep_spec (d : Int) : let t := counterStep d s
    ((t.time.sec * 1000000000 + t.time.ns : Nat) : Int) = (((nowNs s : Nat) : Int) + d) % (2 ^ 48 * 1000000000)
    ∧ t.time.ns < 1000000000 ∧ t.time.frac = s.time.frac
    ∧ bit (rd t aTimeSticky) 0 = true ∧ regsBut (fun a => a = aTimeSticky) s t := by
  obtain ⟨h1, h2, h3⟩ := stepTo_spec s (((nowNs s : Int) + d) % (2 ^ 48 * 1000000000)).toNat
  refine ⟨?_, ?_, h3⟩
  · rw [counterStep, h1, h2, Nat.div_add_mod']
    exact Int.toNat_of_nonneg (Int.emod_nonneg _ (by decide))
  · exact h2 ▸ Nat.mod_lt _ (by decide)

theorem timeAdj_spec (v : Word) : let t := doTimeAdj v s
    ((t.time.sec * 1000000000 + t.time.ns : Nat) : Int) = (((s.time.sec * 1000000000 + s.time.ns : Nat) : Int) + max v.toInt (-2147483647)) % (2 ^ 48 * 1000000000)
    ∧ t.time.ns < 1000000000 ∧ t.time.frac = s.time.frac ∧ bit (rd t aTimeSticky) 0 = true
    ∧ regsBut (fun a => a = aTimeSticky ∨ clampNote 5 a) s t := by
  obtain ⟨hr, h, e⟩ := clampSeen_spec s 0x50028 v
  obtain ⟨h1, h2, h3, h4, h5⟩ := counterStep_spec (clampSeen 0x50028 v s) (max (sWord v) (-2147483647))
  have en : nowNs (clampSeen 0x50028 v s) = s.time.sec * 1000000000 + s.time.ns := (congrArg (fun x : TimeEng => x.sec * 1000000000 + x.ns) e :)
  exact ⟨h1.trans (by rw [en]; rfl), h2, h3.trans (congrArg TimeEng.frac e :), h4,
    regsBut_trans (regsBut_mono hr fun _ => .inr) (regsBut_mono h5 fun _ => .inl)⟩

theorem timeSet_spec (v : Word) : let t := doTimeSet v s
    t.time.sec = fld v 0 16 * 2 ^ 32 + (rd s aTimeSetLo).toNat ∧ t.time.ns = (rd s aTimeSetNs).toNat
    ∧ t.time.frac = 0 ∧ bit (rd t aTimeSticky) 0 = true ∧ regsBut (fun a => a = aTimeSticky ∨ a = aTimeSetHi) s t := by
  unfold doTimeSet
  extract_lets s1 sec ns
  obtain ⟨-, -, -, h4, h5⟩ := stepTo_spec s1 (sec * 1000000000 + ns)
  exact ⟨rfl, rfl, rfl, h4, regsBut_trans (regsBut_mono (regsBut_wr _ _ s) fun _ => .inr) (regsBut_mono h5 fun _ => .inl)⟩

theorem regsBut_setServo (x : ServoState) (A : Nat → Prop) : regsBut A s (setServo x s) := fun _ _ hi => rd_setServo s x hi

theorem addendWrite_spec (fine : Bool) (v : Word) (h : servoEn s = false) :
    rd (doAddendWrite fine v s) (if fine then aAddendFine else aAddend) = clampReg (if fine then aAddendFine else aAddend) v
    ∧ regsBut (fun b => (b = if fine then aAddendFine else aAddend) ∨ clampNote 5 b) s (doAddendWrite fine v s) := by
  rw [doAddendWrite, if_neg (Bool.eq_false_iff.mp h)]
  cases fine with
  | false => exact ⟨rd_wr_self .., regsBut_trans (regsBut_mono (clampSeen_spec s aAddend v).1 fun _ => .inr)
      (regsBut_mono (regsBut_wr _ _ _) fun _ => .inl)⟩
  | true => exact ⟨rd_wr_self .., regsBut_mono (regsBut_wr _ _ s) fun _ => .inl⟩

theorem timeCtrl_spec (v : Word) {t : State} (e : doTimeCtrlWrite v s = t) :
    rd t aTimeCtrl = clampReg aTimeCtrl v
    ∧ t.time.servo = (if (servoEn t && servoSrc t != 3) || s.time.servo == .refLost then s.time.servo else .freeRun)
    ∧ regsBut (fun a => a = aTimeCtrl) s t := by
  subst e
  unfold doTimeCtrlWrite
  extract_lets s1
  have hc : rd s1 aTimeCtrl = clampReg aTimeCtrl v := rd_wr_self ..
  have hr : regsBut (fun a => a = aTimeCtrl) s s1 := regsBut_wr _ _ s
  have hk : rd (setServo .freeRun s1) aTimeCtrl = rd s1 aTimeCtrl := rd_setServo _ _ (not_intReg_time (by decide) (by decide))
  by_cases h : (servoEn s1 && servoSrc s1 != 3 || s1.time.servo == .refLost) = true
  · rw [if_pos h]
    exact ⟨hc, (if_pos h).symm, hr⟩
  · rw [if_neg h]
    have h' : ¬ (servoEn (setServo .freeRun s1) && servoSrc (setServo .freeRun s1) != 3 || s.time.servo == .refLost) = true := by
      rwa [servoEn, servoSrc, hk]
    exact ⟨hk.trans hc, (setServo_servo ..).trans (if_neg h').symm, regsBut_trans hr (regsBut_setServo s1 _ _)⟩

theorem refBack_servo : (refBack s).time.servo
    = if s.time.servo = .refLost ∧ (servoEn s = false ∨ servoSrc s = 3) then .freeRun else s.time.servo := by
  have h : rd (setClk 2 true s) aTimeCtrl = rd s aTimeCtrl := rd_setClk_ne s 2 true (by decide)
  unfold refBack
  extract_lets s1
  have e : servoEn s1 = servoEn s ∧ servoSrc s1 = servoSrc s := ⟨congrArg (bit · 0) h, congrArg (fld · 1 2) h⟩
  rw [e.1, e.2]
  split
  · next hc => exact (setServo_servo ..).trans (if_pos hc).symm
  · next hc => exact (if_neg hc).symm

end

/-- Settles O49: a step keeps the fraction and wraps at 2^48 s; the writes that the servo forbids set their flag alone. -/
theorem timeCommands : Obligations.TimeCommands := by
  refine ⟨⟨fun v s => ⟨doTimeAdj v (hostAccess s), rfl, ?_⟩, fun v s => ⟨doTimeSet v (hostAccess s), rfl, ?_⟩⟩,
    fun fine v s => ⟨fun h => ?_, fun h => ?_⟩, fun v s => ⟨doTimeCtrlWrite v (hostAccess s), rfl, ?_⟩, fun s h => ?_⟩
  · obtain ⟨g, h, e⟩ := hostAccess_eq s
    rw [e]
    exact timeAdj_spec { s with gorse := g, host := h } v
  · obtain ⟨g, h, e⟩ := hostAccess_eq s
    rw [e]
    exact timeSet_spec { s with gorse := g, host := h } v
  · have e : servoEn (hostAccess s) = true := (congrArg (bit · 0) (rd_hostAccess s aTimeCtrl)).trans h
    exact ⟨_, congrArg Host.Outcome.next (if_pos e), bit_stick (hostAccess s) 1 _ timeStick_src
      (not_intReg_time (by decide) (by decide)) (by decide),
      fun a ha hi => (regsBut_stick (hostAccess s) _ _ _ timeStick_src a ha hi).trans (rd_hostAccess s a)⟩
  · obtain ⟨g, x, e⟩ := hostAccess_eq s
    refine ⟨doAddendWrite fine v (hostAccess s), rfl, ?_⟩
    rw [e]
    exact addendWrite_spec { s with gorse := g, host := x } fine v h
  · obtain ⟨g, h, e⟩ := hostAccess_eq s
    rw [e]
    exact timeCtrl_spec { s with gorse := g, host := h } v rfl
  · refine ⟨_, congrArg Host.Outcome.next (if_neg (Bool.eq_false_iff.mp h)), ?_, refBack_clock s, refBack_servo s,
      fun a ha hi => rd_refBack_ne s hi ha⟩
    exact (clkBit_refBack s (by decide)).trans (if_pos rfl)

end Sys2Proof.Times
end

section
-- One proof after another: the check compiles the whole text in one process, and memory is short.
set_option Elab.async false
/-! Chapter 8: the brake chopper (R229, R230). -/

namespace Sys2Proof.Protect

open Sys2Proof Sys2Proof.Machine Sys2Proof.Laws

/-- BRK is high on the brake's comparator, whose channel is beyond the high threshold, and a BRK_CFG with EN = 0 waits. WC16_CFG
enables the comparator with neither side in use. -/
noncomputable def brakeEnding : State :=
  { regs := [(aBrkCfg, wd 1)]
    force := [(aWcCfg 16, wd 1)]
    gorse := { brk := true, brkCfgPend := some 0 }
    conv := { cmps := [(16, { above := true })] } }

theorem brakeEnding_edge : rd (doBrkTurnOff brakeEnding) aWcEdge = wd 0x10000 := by decide +kernel

/-- Refutes O36: with the EN = 0 that waited the comparator is judged by WC16_CFG again, and a side that this one does not use
drops its output, which sets WC_EDGE beside BRK_CFG and BRK_THR. -/
theorem not_enableEdgeAndBrake : ¬ Obligations.EnableEdgeAndBrake := by
  rintro ⟨-, -, -, h, -⟩
  obtain ⟨t, ht, -, -, -, -, -, -, hr⟩ := h brakeEnding rfl
  have h1 : rd t aWcEdge = rd brakeEnding aWcEdge := hr aWcEdge (by decide) (by unfold intReg aWcEdge; lia)
  rw [← Host.Outcome.next.inj ht] at h1
  exact absurd (brakeEnding_edge.symm.trans h1) (by decide)

end Sys2Proof.Protect
end

section
-- One proof after another: the check compiles the whole text in one process, and memory is short.
set_option Elab.async false
/-! Chapters 8 and 9: the ends of OFFSTATE_DIAG and CMP_SELFTEST (R231, R232). -/

namespace Sys2Proof.Protect

open Sys2Proof Sys2Proof.Machine Sys2Proof.Laws Sys2Proof.Conversion Sys2Proof.Rules Sys2Proof.Control Sys2Proof.Links

/-- A word of two-bit results reads back result by result. -/
theorem quads_spec {f : Nat → Nat} (hf : ∀ c, f c < 4) (n : Nat) : (List.range n).foldl (fun a c => a + f c * 4 ^ c) 0 < 4 ^ n
    ∧ ∀ c, c < n → (List.range n).foldl (fun a c => a + f c * 4 ^ c) 0 / 4 ^ c % 4 = f c := by
  induction n with
  | zero => exact ⟨Nat.one_pos, fun c h => absurd h (by lia)⟩
  | succ n ih =>
    rw [List.range_succ, List.foldl_append, List.foldl_cons, List.foldl_nil]
    generalize (List.range n).foldl (fun a c => a + f c * 4 ^ c) 0 = v at ih ⊢
    have h4 : f n * 4 ^ n ≤ 3 * 4 ^ n := Nat.mul_le_mul_right _ (Nat.le_of_lt_succ (hf n))
    refine ⟨by rw [Nat.pow_succ]; lia, fun c hc => ?_⟩
    rcases Nat.lt_succ_iff_lt_or_eq.mp hc with h | rfl
    · have e : f n * 4 ^ n = 4 ^ c * (4 * (f n * 4 ^ (n - c - 1))) := by
        rw [show 4 ^ n = 4 ^ c * (4 * 4 ^ (n - c - 1)) by rw [← Nat.pow_succ', ← Nat.pow_add]; congr 1; lia]
        ring
      rw [e, Nat.add_mul_div_left _ _ (Nat.pow_pos (by decide)), Nat.add_mul_mod_self_left, ih.2 c h]
    · rw [Nat.add_mul_div_right _ _ (Nat.pow_pos (by decide)), Nat.div_eq_of_lt ih.1, Nat.zero_add, Nat.mod_eq_of_lt (hf c)]

theorem natFld_two (n p : Nat) : natFld n (2 * p) 2 = n / 4 ^ p % 4 := by
  rw [natFld, Nat.shiftRight_eq_div_pow, Nat.pow_mul]
  rfl

theorem natFld_two_lt (n p : Nat) : natFld n (2 * p) 2 < 4 := Nat.mod_lt _ (by decide)

/-- The end of a slot changes the event words of the queue alone. -/
theorem regsBut_endSlot (i : Nat) (st : OpState) (res : List Word) (s : State) :
    regsBut (fun a => a = aOpqEvent) s (endSlot i st res s) := fun a ha hi =>
  (rd_irq (stick aOpqEvent (2 ^ i) none (modSlot i (fun x => { x with st := st, res := res, suspReq := false }) s)) 0 a
    (by decide) hi).trans (rd_stick_none_ne _ _ ha)

/-- A pair's two-bit result at the end of OFFSTATE_DIAG. -/
noncomputable def pairRes (r i : Nat) (s : State) (p : Nat) : Nat :=
  if !(diagPairs s i).testBit p then natFld (rd s aDiagPairRes).toNat (2 * p) 2
  else if (fld (rd s aDiagPairRef) 0 12).testBit p then 0 else natFld r (2 * p) 2

theorem pairRes_lt (r i : Nat) (s : State) (p : Nat) : pairRes r i s p < 4 :=
  ite_elim (P := (· < 4)) (fun _ => natFld_two_lt _ _) fun _ => ite_elim (P := (· < 4)) (fun _ => by decide) fun _ => natFld_two_lt _ _

/-- DIAG_PAIR_RES at the end of OFFSTATE_DIAG. -/
noncomputable def pairsShown (r i : Nat) (s : State) : State :=
  if diagClear s i then s else wr aDiagPairRes (wd ((List.range 12).foldl (fun a p => a + pairRes r i s p * 4 ^ p) 0)) s

theorem pairsShown_spec (r i : Nat) (s : State) {p : Nat} (hp : p < 12) :
    natFld (rd (pairsShown r i s) aDiagPairRes).toNat (2 * p) 2
      = if diagClear s i || !(diagPairs s i).testBit p then natFld (rd s aDiagPairRes).toNat (2 * p) 2
        else if (fld (rd s aDiagPairRef) 0 12).testBit p then 0 else natFld r (2 * p) 2 := by
  obtain ⟨h1, h2⟩ := quads_spec (pairRes_lt r i s) 12
  unfold pairsShown
  by_cases h : diagClear s i = true
  · rw [if_pos h, h, Bool.true_or, if_pos rfl]
  · rw [if_neg h, rd_wr_self, natFld_two, toNat_wd (Nat.lt_trans h1 (by decide)), h2 p hp, Bool.eq_false_iff.mpr h,
      Bool.false_or, pairRes]

theorem pairsShown_links (r i : Nat) (s : State) : (pairsShown r i s).links = s.links := by
  unfold pairsShown
  exact holds_if (P := fun t => t.links = s.links) (fun _ => rfl) fun _ => wr_links ..

/-- A link that has not answered shows it. -/
noncomputable def unanswered (x : Link) : Link := { x with diagWait := false, diagRpt := wd (0xFF * 2 ^ 24) }

/-- The links of a list that have not answered show it. -/
noncomputable def unansweredAll (ls : List Nat) (s : State) : State :=
  forEach ls (fun l s => if (link s l).diagWait then modLink l unanswered s else s) s

theorem link_unansweredAll {ls : List Nat} (h : ls.Nodup) (s : State) (l : Nat) : link (unansweredAll ls s) l
    = if l ∈ ls then (if (link s l).diagWait then unanswered (link s l) else link s l) else link s l :=
  forEach_get link _ (fun _ x => if x.diagWait then unanswered x else x) (fun i t => by split <;> simp [*])
    (fun i j t hj => by split <;> simp [link_modLink_ne _ _ hj]) ls h s l

theorem unansweredAll_regs (ls : List Nat) (s : State) : (unansweredAll ls s).regs = s.regs :=
  holds_forEach (P := fun t => t.regs = s.regs) (fun l s => if (link s l).diagWait then modLink l unanswered s else s)
    (fun _ _ h => holds_if (P := fun t => t.regs = s.regs) (fun _ => h) fun _ => h) ls s rfl

theorem offstateDone_eq {r i : Nat} {s : State} (h : runSlot s 0x05 = some i) : ∃ ans, doOffstateDiagDone r s =
    endSlot i .completed [0, wd (maskOf 12 (fun p => (diagPairs s i).testBit p && !(fld (rd s aDiagPairRef) 0 12).testBit p)),
      wd ans, wd (ans / 2 ^ 32)] (unansweredAll (bitsOf 36 (diagLinks s i)) (pairsShown r i s)) := by
  unfold doOffstateDiagDone
  split
  · next e => exact absurd (e.symm.trans h) (by simp)
  · next j e =>
    obtain rfl : j = i := Option.some.inj (e.symm.trans h)
    extract_lets ref named tested cur two all s1 ans s2
    have h1 : s1 = pairsShown r j s := rfl
    have h2 : s2 = unansweredAll (bitsOf 36 (diagLinks s j)) s1 := rfl
    refine ⟨ans, ?_⟩
    rw [h2, h1]

theorem offstateDone_links {r i : Nat} {s : State} (h : runSlot s 0x05 = some i) (l : Nat) : link (doOffstateDiagDone r s) l =
    if l ∈ bitsOf 36 (diagLinks s i) then (if (link s l).diagWait then unanswered (link s l) else link s l) else link s l := by
  obtain ⟨ans, e⟩ := offstateDone_eq (r := r) h
  rw [e, link_of_links (endSlot_links ..), link_unansweredAll (nodup_bitsOf _ _),
    link_of_links (pairsShown_links r i s)]

theorem offstateDone_rd {r i : Nat} {s : State} (h : runSlot s 0x05 = some i) :
    rd (doOffstateDiagDone r s) aDiagPairRes = rd (pairsShown r i s) aDiagPairRes := by
  obtain ⟨ans, e⟩ := offstateDone_eq (r := r) h
  rw [e, regsBut_endSlot _ _ _ _ _ (by decide) (by unfold intReg aDiagPairRes; lia)]
  exact rd_of_regs (unansweredAll_regs _ _) _

/-- A comparator's two-bit result at the end of CMP_SELFTEST. -/
noncomputable def cmpRes (r : Nat) (s : State) (c : Nat) : Nat :=
  if s.conv.stRefused.testBit c then 3 else if s.conv.stTested.testBit c then min 2 (natFld r (2 * c) 2)
  else natFld ((rd s (aCmpSt 0)).toNat + 2 ^ 32 * (rd s (aCmpSt 1)).toNat) (2 * c) 2

theorem cmpRes_lt (r : Nat) (s : State) (c : Nat) : cmpRes r s c < 4 :=
  ite_elim (P := (· < 4)) (fun _ => by decide) fun _ => ite_elim (P := (· < 4)) (fun _ => Nat.lt_succ_of_le ((Nat.min_le_left 2 _).trans (by decide))) fun _ => natFld_two_lt _ _

/-- CMP_SELFTEST's results shown. -/
noncomputable def cmpsShown (r : Nat) (s : State) : State :=
  modConv (fun q => { q with stTested := 0, stRefused := 0 })
    (wr (aCmpSt 1) (wd ((List.range 24).foldl (fun a c => a + cmpRes r s c * 4 ^ c) 0 / 2 ^ 32))
      (wr (aCmpSt 0) (wd ((List.range 24).foldl (fun a c => a + cmpRes r s c * 4 ^ c) 0)) s))

theorem cmpsShown_spec (r : Nat) (s : State) {c : Nat} (hc : c < 24) :
    ((rd (cmpsShown r s) (aCmpSt 0)).toNat + 2 ^ 32 * (rd (cmpsShown r s) (aCmpSt 1)).toNat) / 4 ^ c % 4 = cmpRes r s c := by
  obtain ⟨h1, h2⟩ := quads_spec (cmpRes_lt r s) 24
  unfold cmpsShown
  generalize (List.range 24).foldl (fun a c => a + cmpRes r s c * 4 ^ c) 0 = v at h1 h2
  rw [rd_modConv, rd_modConv, rd_wr_self, rd_wr_ne _ _ (by decide), rd_wr_self, toNat_wd (n := v / 2 ^ 32) (by lia), wd,
    BitVec.toNat_ofNat, Nat.mod_add_div, h2 c hc]

theorem cmpSelftestDone_eq {r i : Nat} {s : State} (h : runSlot s 0x06 = some i) :
    ∃ res, doCmpSelftestDone r s = endSlot i .completed res (cmpsShown r s) := by
  unfold doCmpSelftestDone
  rw [h]
  exact ⟨_, rfl⟩

/-- Settles O37, pair by pair, link by link and comparator by comparator. -/
theorem diagnosticsEnd : Obligations.DiagnosticsEnd := by
  refine ⟨fun r i s h => ⟨_, rfl, ?_, ?_, fun l hl hd hw => ?_, fun p hp => ?_, fun l hl => ?_⟩, fun r i s h => ⟨_, rfl, ?_⟩⟩
  · obtain ⟨ans, e⟩ := offstateDone_eq (r := r.toNat) h
    rw [e, slot_endSlot]
  · obtain ⟨ans, e⟩ := offstateDone_eq (r := r.toNat) h
    rw [e, slot_endSlot]
    rfl
  · rw [offstateDone_links h, if_pos ((mem_bitsOf _ _ _).mpr ⟨hl, hd⟩), if_pos hw]
    exact ⟨rfl, rfl⟩
  · rw [offstateDone_rd h, pairsShown_spec _ _ _ hp]
  · rw [offstateDone_links h]
    rcases hl with hl | hl
    · exact if_neg fun hm => absurd ((mem_bitsOf _ _ _).mp hm).2 (by simp [hl])
    · exact ite_elim (P := (· = link s l)) (fun _ => if_neg (by simp [hl])) fun _ => rfl
  · obtain ⟨res, e⟩ := cmpSelftestDone_eq (r := r.toNat) h
    have hk : ∀ k, k < 2 → rd (doCmpSelftestDone r.toNat s) (aCmpSt k) = rd (cmpsShown r.toNat s) (aCmpSt k) := fun k hk => by
      rw [e, regsBut_endSlot _ _ _ _ _ (by unfold aCmpSt aOpqEvent; lia) (by unfold intReg aCmpSt; lia)]
    have hc : (doCmpSelftestDone r.toNat s).conv = (cmpsShown r.toNat s).conv :=
      e ▸ kept_endSlot (kept_same .conv rfl _) i .completed res _ rfl
    refine ⟨?_, congrArg Conv.stTested hc, congrArg Conv.stRefused hc, fun c h24 => ?_⟩
    · rw [e, slot_endSlot]
    · dsimp only
      rw [hk 0 (by decide), hk 1 (by decide), cmpsShown_spec _ _ h24, cmpRes, natFld_two, natFld_two]

end Sys2Proof.Protect
end

section
-- One proof after another: the check compiles the whole text in one process, and memory is short.
set_option Elab.async false
/-! Chapter 12: actions of the operation queue (R349, R353 to R355, R361). -/

namespace Sys2Proof.Hosting

open Sys2Proof Sys2Proof.Machine Sys2Proof.Laws Sys2Proof.Conversion Sys2Proof.Rules Sys2Proof.Control Sys2Proof.Links Sys2Proof.Protect

/-- Slot i reads x after the change, and every other slot stays. -/
noncomputable def SlotSet (i : Nat) (x : Slot) (s t : State) : Prop := slot t i = x ∧ ∀ j, j ≠ i → slot t j = slot s j

theorem slotSet_pre {i : Nat} {x : Slot} {s u t : State} (e : slot u = slot s) (h : SlotSet i x u t) : SlotSet i x s t :=
  ⟨h.1, fun j hj => (h.2 j hj).trans (congrFun e j)⟩

theorem slotSet_post {i : Nat} {x : Slot} {s u t : State} (h : SlotSet i x s t) (e : u.host.slots = t.host.slots) : SlotSet i x s u :=
  ⟨(slot_of_slots e i).trans h.1, fun j hj => (slot_of_slots e j).trans (h.2 j hj)⟩

theorem slot_hostAccess (s : State) : slot (hostAccess s) = slot s :=
  have h : (hostAccess s).host.slots = s.host.slots :=
    holds_if (P := fun t => t.host.slots = s.host.slots) (fun _ => rfl) fun _ => rfl
  funext fun i => slot_of_slots h i

theorem slot_svcAccess (s : State) : slot (svcAccess s) = slot s :=
  have h : (svcAccess s).host.slots = s.host.slots :=
    holds_if (P := fun t => t.host.slots = s.host.slots) (fun _ => rfl) fun _ => rfl
  funext fun i => slot_of_slots h i

section
variable {i : Nat} {x : Slot} {u : State}

theorem slotSet_modSlot (f : Slot → Slot) (hx : slot u i = x) : SlotSet i (f x) u (modSlot i f u) :=
  ⟨(slot_modSlot_self ..).trans (congrArg f hx), fun _ hj => slot_modSlot_ne _ _ hj⟩

theorem slotSet_endSlot (st : OpState) (res : List Word) (hx : slot u i = x) :
    SlotSet i { x with st := st, res := res, suspReq := false } u (endSlot i st res u) :=
  slotSet_post (slotSet_modSlot _ hx) (slots_endSlot ..)

theorem bit_opEvent (hi : i < 16) (u : State) : bit (rd (opEvent i u) aOpqEvent) i = true := by
  rw [opEvent, rd_irq _ 0 _ (by decide) (by unfold intReg aOpqEvent; lia), bit_stick_none _ _ _ (by lia)]

theorem slotSet_suspendSlot (hx : slot u i = x) : SlotSet i { x with st := .suspended, suspReq := false } u (suspendSlot i u) :=
  slotSet_post (slotSet_modSlot _ hx) (slots_irq (by decide) _)

/-! SUSPEND and RESUME. -/

theorem opSuspend_queued (hx : slot u i = x) (h1 : suspendable x.op = true) (h2 : x.st = .queued) :
    opSuspend i u = suspendSlot i u := by
  unfold opSuspend
  simp only [hx, h1, h2]
  rfl

theorem opSuspend_running (hx : slot u i = x) (h1 : suspendable x.op = true) (h3 : x.op ≠ 3 ∨ opArbitrated u i = false)
    (h2 : x.st = .running) : opSuspend i u = modSlot i (fun y => { y with suspReq := true }) u := by
  unfold opSuspend
  simp only [hx, h1, h2]
  exact (if_neg (by decide)).trans (if_neg (by rcases h3 with h | h <;> simp [h]))

theorem opSuspend_refused (hx : slot u i = x) (h : suspendable x.op = false ∨ (x.st ≠ .queued ∧ x.st ≠ .running)) :
    opSuspend i u = opqFlag 2 u := by
  unfold opSuspend
  simp only [hx]
  rcases h with h | ⟨h1, h2⟩
  · rw [h]
    rfl
  · split
    · rfl
    · split <;> simp_all

theorem opResume_unstarted (hx : slot u i = x) (h1 : x.st = .suspended) (h2 : x.started = false) :
    opResume i u = modSlot i (fun y => { y with st := .queued }) u := by
  unfold opResume
  simp only [hx, h1, h2]
  rfl

theorem opResume_started (hx : slot u i = x) (h1 : x.st = .suspended) (h2 : x.started = true) (h : x.op ≠ 2) :
    (opResume i u).host = (modSlot i (fun y => { y with st := .running }) u).host := by
  unfold opResume
  simp only [hx, h1, h2]
  refine (congrArg State.host (if_neg (by decide))).trans ?_
  split
  · exact absurd (by assumption) h
  · exact kept_swapResume (kept_same .host rfl _) _ rfl
  · exact kept_histResume (kept_same .host rfl _) _ _ rfl
  · rfl

theorem opResume_marked (hx : slot u i = x) (h1 : x.st = .running) (h2 : x.suspReq = true) (h : x.op ≠ 2) :
    opResume i u = modSlot i (fun y => { y with suspReq := false }) u := by
  unfold opResume
  simp only [hx, h1, h2]
  exact if_neg h

/-! CANCEL. -/

/-- A cancel counted in slot i. -/
noncomputable def cancelled (svc : Bool) (tick : Nat) (x : Slot) : Slot := { x with cancelSvc := svc, cancelAt := some tick }

theorem opCancel_same (svc : Bool) (hx : slot u i = x) (h : x.cancelAt = some u.tick) :
    opCancel i svc u = modSlot i (fun y => { y with cancelSvc := y.cancelSvc && svc }) u := by
  unfold opCancel
  simp only [hx]
  exact if_pos h

theorem opCancel_completed (svc : Bool) (hx : slot u i = x) (h : x.cancelAt ≠ some u.tick) (h1 : x.st = .completed) :
    opCancel i svc u = cancelLate i svc u := by
  unfold opCancel
  simp only [hx, h1]
  exact if_neg h

theorem opCancel_unstarted (svc : Bool) (hx : slot u i = x) (h : x.cancelAt ≠ some u.tick) (h1 : x.started = false)
    (h2 : x.st = .queued ∨ x.st = .suspended) :
    opCancel i svc u = endSlot i .cancelled [0, 0, 0, 0] (modSlot i (cancelled svc u.tick) u) := by
  unfold opCancel
  rcases h2 with h2 | h2 <;>
  · simp only [hx, h1, h2]
    exact if_neg h

theorem opUndo_slots {op : Nat} (h : op ∈ [1, 5, 6, 7, 8, 9, 10]) (i : Nat) (u : State) : (opUndo op i u).host = u.host := by
  fin_cases h
  · rfl
  · refine holds_forEach (P := samePart .host u) _ (fun l t ht => ?_) _ _ rfl
    exact holds_if (fun _ => ht) fun _ => ht
  · rfl
  · exact kept_histStop (kept_same .host rfl u) i u rfl
  · rfl
  · rfl
  · rfl

theorem opCancel_running (svc : Bool) (hx : slot u i = x) (h : x.cancelAt ≠ some u.tick) (h1 : x.started = true)
    (h2 : x.op ∈ [1, 5, 6, 7, 8, 9, 10]) (h3 : x.st = .running) :
    opCancel i svc u = endSlot i .cancelled [0, 0, 0, 0] (modSlot i (cancelled svc u.tick) (opUndo x.op i u)) := by
  have ha : opArbitrated u i = false := by
    unfold opArbitrated
    rw [hx]
    generalize x.op = op at h2
    fin_cases h2 <;> rfl
  have hr : cancelResults u i = [0, 0, 0, 0] := by
    unfold cancelResults
    rw [hx]
    generalize x.op = op at h2
    fin_cases h2 <;> rfl
  unfold opCancel
  simp only [hx, h1, h3, ha, hr]
  exact if_neg h

/-- The slot of a cancel that ends it. -/
theorem slotSet_cancelled (svc : Bool) {v : State} (n : Nat) (hx : slot u i = x) (hv : v.host = u.host) :
    SlotSet i { cancelled svc n x with st := .cancelled, res := [0, 0, 0, 0], suspReq := false } u
      (endSlot i .cancelled [0, 0, 0, 0] (modSlot i (cancelled svc n) v)) :=
  slotSet_pre (funext fun j => slot_of_slots (congrArg HostIf.slots hv) j)
    ⟨(slotSet_endSlot _ _ (slotSet_modSlot _ ((slot_of_slots (congrArg HostIf.slots hv) i).trans hx)).1).1,
      fun j hj => ((slotSet_endSlot .cancelled _ rfl).2 j hj).trans (slot_modSlot_ne _ _ hj)⟩

theorem slotSet_cancelLate (svc : Bool) (hx : slot u i = x) : ∃ y, SlotSet i y u (cancelLate i svc u)
    ∧ y.cancelLate = true ∧ y.st = x.st ∧ y.res = x.res := by
  refine ⟨_, slotSet_modSlot _ hx, ?_⟩
  cases h : x.cancelLate <;> simp [h]

end

/-- An action whose handle fits runs on the slot. -/
theorem withHandle_fits {h : Nat} {s : State} (f : Nat → State → State) (hf : (slot s (h % 16)).gen = h / 16) :
    withHandle h f (hostAccess s) = f (h % 16) (hostAccess s) :=
  if_pos ((congrArg Slot.gen (congrFun (slot_hostAccess s) _)).trans hf)

theorem withHandle_stale {h : Nat} {s : State} (f : Nat → State → State) (hf : ¬ (slot s (h % 16)).gen = h / 16) :
    let t := withHandle h f (hostAccess s)
    bit (rd t aOpqSticky) 1 = true ∧ (∀ j, slot t j = slot s j) ∧ regsBut (fun a => a = aOpqSticky) s t := by
  have e : withHandle h f (hostAccess s) = opqFlag 1 (hostAccess s) :=
    if_neg fun h' => hf ((congrArg Slot.gen (congrFun (slot_hostAccess s) _)).symm.trans h')
  dsimp only
  rw [e]
  exact ⟨bit_stick_none _ _ 1 (by decide), fun j => congrFun (slot_hostAccess s) j,
    fun a ha _ => (rd_stick_none_ne _ _ ha).trans (rd_hostAccess s a)⟩

/-- SVC_OP_CANCEL of a slot that waits. -/
theorem svcOpCancel_waiting {v : Word} {s : State} (hf : (slot s (fld v 0 16 % 16)).gen = fld v 0 16 / 16)
    (h : (slot s (fld v 0 16 % 16)).cancelAt ≠ some s.tick) (h1 : (slot s (fld v 0 16 % 16)).started = false)
    (h2 : (slot s (fld v 0 16 % 16)).st = .queued ∨ (slot s (fld v 0 16 % 16)).st = .suspended) :
    let i := fld v 0 16 % 16
    let t := svcCommand (doSvcOpCancel v) s
    SlotSet i { cancelled true s.tick (slot s i) with st := .cancelled, res := [0, 0, 0, 0], suspReq := false } s t
    ∧ bit (rd t (aSrcStatus 0)) 7 = true ∧ t.host.svcSeq = s.host.svcSeq + 1 := by
  have hs := slot_svcAccess s
  have hx := congrFun hs (fld v 0 16 % 16)
  have ht : (svcAccess s).tick = s.tick := svcAccess_tick s
  have e : doSvcOpCancel v (svcAccess s) = irq 7 (endSlot (fld v 0 16 % 16) .cancelled [0, 0, 0, 0]
      (modSlot (fld v 0 16 % 16) (cancelled true s.tick) (svcAccess s))) := by
    rw [doSvcOpCancel, if_pos ((congrArg Slot.gen hx).trans hf), opCancel_unstarted true hx (ht ▸ h) h1 h2, ht]
  have hq := (hostCore_svcSeq (irq_hostCore (n := 7) (by decide) (endSlot (fld v 0 16 % 16) .cancelled [0, 0, 0, 0]
      (modSlot (fld v 0 16 % 16) (cancelled true s.tick) (svcAccess s))))).1
  have hq' := (hostCore_svcSeq (irq_hostCore (n := 0) (by decide) (stick aOpqEvent (2 ^ (fld v 0 16 % 16)) none
    (modSlot (fld v 0 16 % 16) (fun y => { y with st := .cancelled, res := [0, 0, 0, 0], suspReq := false })
      (modSlot (fld v 0 16 % 16) (cancelled true s.tick) (svcAccess s)))))).1
  dsimp only
  rw [svcCommand, e]
  exact ⟨slotSet_pre hs (slotSet_post (slotSet_cancelled true s.tick hx rfl) (slots_irq (n := 7) (by decide) _)), bit_irq (by decide) _,
    congrArg (· + 1) (hq.trans (hq'.trans (svcAccess_svcSeq s)))⟩

/-- Settles O39, action by action. -/
theorem operationActions : Obligations.OperationActions := by
  have hs := slot_hostAccess
  have ht := hostAccess_tick
  refine ⟨fun h c s hc hf => ?_, fun h s hf h1 h2 => ?_, fun h s hf h1 h3 h2 => ?_, fun h s hf h1 => ?_, fun h s hf h1 h2 => ?_,
    fun h s hf h1 h2 h3 => ?_, fun h s hf h1 h2 h3 => ?_, fun h s hf h0 h1 h2 => ?_, fun h s hf h0 h1 h2 h3 => ?_,
    fun h s hf h0 h1 => ?_, fun h s hf h0 => ?_, fun v s hf h0 h1 h2 => ?_, fun v s hf => ?_, fun i s h1 h2 h3 => ?_,
    fun x y z i s h1 h2 => ?_⟩
  · rcases hc with rfl | rfl | rfl <;> exact ⟨_, rfl, withHandle_stale _ hf⟩
  · have hx := congrFun (hs s) (h.toNat % 16)
    refine ⟨_, congrArg Host.Outcome.next ((withHandle_fits opSuspend hf).trans (opSuspend_queued hx h1 h2)), ?_⟩
    obtain ⟨g1, g2⟩ := slotSet_pre (hs s) (slotSet_suspendSlot hx)
    exact ⟨g1, bit_opEvent (Nat.mod_lt _ (by decide)) _, g2⟩
  · have hx := congrFun (hs s) (h.toNat % 16)
    have ha : (slot s (h.toNat % 16)).op ≠ 3 ∨ opArbitrated (hostAccess s) (h.toNat % 16) = false := by
      refine h3.imp_right fun h3 => ?_
      simp only [opArbitrated, hx, hostAccess_damask, trainAll, link_hostAccess] at h3 ⊢
      exact h3
    exact ⟨_, congrArg Host.Outcome.next ((withHandle_fits opSuspend hf).trans (opSuspend_running hx h1 ha h2)),
      slotSet_pre (hs s) (slotSet_modSlot _ hx)⟩
  · exact ⟨_, congrArg Host.Outcome.next ((withHandle_fits opSuspend hf).trans
      (opSuspend_refused (congrFun (hs s) (h.toNat % 16)) h1)), bit_stick_none _ _ 2 (by decide), fun j => congrFun (hs s) j⟩
  · have hx := congrFun (hs s) (h.toNat % 16)
    exact ⟨_, congrArg Host.Outcome.next ((withHandle_fits opResume hf).trans (opResume_unstarted hx h1 h2)),
      slotSet_pre (hs s) (slotSet_modSlot _ hx)⟩
  · have hx := congrFun (hs s) (h.toNat % 16)
    exact ⟨_, congrArg Host.Outcome.next (withHandle_fits opResume hf),
      slotSet_pre (hs s) (slotSet_post (slotSet_modSlot _ hx) (congrArg HostIf.slots (opResume_started hx h1 h2 h3)))⟩
  · have hx := congrFun (hs s) (h.toNat % 16)
    obtain ⟨g1, g2⟩ := slotSet_pre (hs s) (slotSet_modSlot (fun y => { y with suspReq := false }) hx)
    exact ⟨_, congrArg Host.Outcome.next ((withHandle_fits opResume hf).trans (opResume_marked hx h1 h2 h3)), g1, g2,
      kept_modSlot ((kept_unchangedBut [.gorse, .host] s).toKeptDev.toKept.mono (by decide)) _ _ _ (Metering.unchangedBut_hostAccess s)⟩
  · have hx := congrFun (hs s) (h.toNat % 16)
    obtain ⟨g1, g2⟩ := slotSet_pre (hs s) (slotSet_cancelled false s.tick hx rfl)
    refine ⟨_, congrArg Host.Outcome.next ((withHandle_fits (opCancel · false) hf).trans
      (opCancel_unstarted false hx (ht s ▸ h0) h1 h2)), ?_⟩
    rw [ht]
    exact ⟨g1, bit_opEvent (Nat.mod_lt _ (by decide)) _, g2⟩
  · have hx := congrFun (hs s) (h.toNat % 16)
    obtain ⟨g1, g2⟩ := slotSet_pre (hs s) (slotSet_cancelled false (hostAccess s).tick hx (opUndo_slots h2 _ _))
    exact ⟨_, congrArg Host.Outcome.next ((withHandle_fits (opCancel · false) hf).trans
      (opCancel_running false hx (ht s ▸ h0) h1 h2 h3)), congrArg Slot.st g1, congrArg Slot.res g1, g2⟩
  · have hx := congrFun (hs s) (h.toNat % 16)
    obtain ⟨y, g, g1, g2, g3⟩ := slotSet_cancelLate false hx
    obtain ⟨k1, k2⟩ := slotSet_pre (hs s) g
    exact ⟨_, congrArg Host.Outcome.next ((withHandle_fits (opCancel · false) hf).trans
      (opCancel_completed false hx (ht s ▸ h0) h1)), k1 ▸ g1, k1 ▸ g2.trans h1, k1 ▸ g3, k2⟩
  · have hx := congrFun (hs s) (h.toNat % 16)
    refine ⟨_, congrArg Host.Outcome.next ((withHandle_fits (opCancel · false) hf).trans (opCancel_same false hx (ht s ▸ h0))), ?_⟩
    obtain ⟨g1, g2⟩ := slotSet_pre (hs s) (slotSet_modSlot (fun y => { y with cancelSvc := y.cancelSvc && false }) hx)
    exact ⟨g1.trans (by simp), g2⟩
  · obtain ⟨⟨g1, g2⟩, g3, g4⟩ := svcOpCancel_waiting hf h0 h1 h2
    exact ⟨_, rfl, g1, g3, g4, g2⟩
  · have e : doSvcOpCancel v (svcAccess s) = irq 7 (stick (aSvc 0x10) 1 none (svcAccess s)) := by
      rw [doSvcOpCancel, if_neg (by rw [slot_svcAccess]; exact hf)]
    refine ⟨_, congrArg (fun t => Host.Outcome.next (svcDone t)) e, ?_, fun j => ?_⟩
    · rw [rd_of_regs (svcDone_keeps _).2.2.1, rd_irq _ 7 _ (by decide) (by unfold intReg aSvc; lia)]
      exact bit_stick_none _ _ 0 (by decide)
    · exact (slot_of_slots (slots_irq (n := 7) (by decide) _) j).trans (congrFun (slot_svcAccess s) j)
  · have hp : opAtPoint s i = true := by
      unfold opAtPoint
      generalize (slot s i).op = op at h1
      fin_cases h1 <;> rfl
    have e : doOpSuspensionPoint i s = suspendSlot i (if (slot s i).op = 7 then histStop i s else s) := by
      rw [doOpSuspensionPoint, h2, h3, hp]
      exact if_pos rfl
    have hh : (if (slot s i).op = 7 then histStop i s else s).host = s.host :=
      holds_if (P := samePart .host s) (fun _ => kept_histStop (kept_same .host rfl s) i s rfl) fun _ => rfl
    have hj := fun j => slot_of_slots (congrArg HostIf.slots hh) j
    exact ⟨_, congrArg Host.Outcome.next e, slotSet_pre (funext hj) (slotSet_suspendSlot (hj i))⟩
  · refine ⟨_, rfl, ?_⟩
    rw [doMramScrubDone, h1]
    dsimp only
    rw [if_pos h2]
    exact slotSet_endSlot _ _ rfl

end Sys2Proof.Hosting
end

section
-- One proof after another: the check compiles the whole text in one process, and memory is short.
set_option Elab.async false
/-! Chapter 9: SELF_CAL and UCAL_SAVE (R249, R253). -/

namespace Sys2Proof.Converters

open Sys2Proof Sys2Proof.Machine Sys2Proof.Laws Sys2Proof.Conversion Sys2Proof.Rules Sys2Proof.Links Sys2Proof.Protect Sys2Proof.Bytes

/-! The commit step of SELF_CAL (R249). -/

theorem maskOf_one : ∀ c : Fin 16, maskOf 16 (fun n => [c].any (fun x => x.val == n)) = 2 ^ c.val := by decide

/-- A converter's own factors replaced. -/
noncomputable def ownFactors (f : CalFactors) (s : State) : State :=
  wr (aCal f.conv 0) (wd (unsgn 24 f.ofs)) (wr (aCal f.conv 4) (wd f.gain) (wr (aCal f.conv 8) f.stage s))

/-- The state at a commit step, before the slot ends. -/
noncomputable def committed (done : Nat) (s : State) : State :=
  calAbandon (modConv (fun c => { c with calValid := c.calValid ||| done }) s)

section
variable {f : CalFactors} {i : Nat} {s : State}

/-- The results of a commit step that found one converter's factors. -/
noncomputable def commitRes (done : Nat) (s : State) : List Word :=
  [0, wd (done + 65536 * s.conv.calRefused), wd (s.conv.calMask &&& (0xFFFF ^^^ done)), 0]

theorem selfCalCommit_eq (hr : runSlot s 0x01 = some i) (hw : s.conv.calWait = false) (hm : s.conv.calMask.testBit f.conv = true) :
    doSelfCalCommit [f] s = if calPasses f then
        endSlot i .completed (commitRes (2 ^ f.conv.val) s) (committed (2 ^ f.conv.val) (ownFactors f s))
      else endSlot i .completed (commitRes 0 s) (committed 0 s) := by
  unfold doSelfCalCommit
  rw [hr]
  dsimp only
  rw [hw]
  cases hp : calPasses f with
  | false =>
    have hg : [f].filter (fun f => s.conv.calMask.testBit f.conv && calPasses f) = [] := by simp [hp]
    have h1 : maskOf 16 (fun n => ([] : List CalFactors).any (fun x => x.conv.val == n)) = 0 := by decide
    rw [hg, h1, if_neg Bool.false_ne_true, if_neg Bool.false_ne_true]
    rfl
  | true =>
    have hg : [f].filter (fun f => s.conv.calMask.testBit f.conv && calPasses f) = [f] := by simp [hp, hm]
    have h1 : maskOf 16 (fun n => [f].any (fun x => x.conv.val == n)) = 2 ^ f.conv.val := maskOf_one f.conv
    rw [hg, h1, if_neg Bool.false_ne_true, if_pos rfl]
    rfl

theorem ownFactors_rd (f : CalFactors) (s : State) : (rd (ownFactors f s) (aCal f.conv 0) = wd (unsgn 24 f.ofs)
    ∧ rd (ownFactors f s) (aCal f.conv 4) = wd f.gain ∧ rd (ownFactors f s) (aCal f.conv 8) = f.stage)
    ∧ regsBut (fun a => ∃ o, o < 12 ∧ a = aCal f.conv o) s (ownFactors f s) := by
  have hne : ∀ {a b}, a ≠ b → aCal f.conv a ≠ aCal f.conv b := fun h e => h (Nat.add_left_cancel e)
  refine ⟨⟨rd_wr_self .., ?_, ?_⟩, fun a ha _ => ?_⟩
  · exact (rd_wr_ne _ _ (hne (by decide))).trans (rd_wr_self ..)
  · exact (rd_wr_ne _ _ (hne (by decide))).trans ((rd_wr_ne _ _ (hne (by decide))).trans (rd_wr_self ..))
  · have h : ∀ o, o < 12 → a ≠ aCal f.conv o := fun o ho e => ha ⟨o, ho, e⟩
    exact (rd_wr_ne _ _ (h 0 (by decide))).trans ((rd_wr_ne _ _ (h 4 (by decide))).trans (rd_wr_ne _ _ (h 8 (by decide))))

theorem not_intReg_cal (f : CalFactors) {o : Nat} (ho : o < 16) : ¬ intReg (aCal f.conv o) :=
  not_intReg_of_between (by unfold aCal; lia) (by have := f.conv.isLt; unfold aCal; lia)

/-- What an end of the slot after a commit step leaves. -/
theorem endSlot_committed (i : Nat) (res : List Word) (done : Nat) (s : State) : let t := endSlot i .completed res (committed done s)
    ((slot t i).st = .completed ∧ (slot t i).res = res) ∧ t.conv = (committed done s).conv ∧ regsBut (fun a => a = aOpqEvent) s t := by
  have h := slot_endSlot i .completed res (committed done s)
  exact ⟨⟨congrArg Slot.st h, congrArg Slot.res h⟩, kept_endSlot (kept_same .conv rfl _) i _ res _ rfl,
    regsBut_trans (regsBut_of_regs s (t := committed done s) _ rfl) (regsBut_endSlot i _ res _)⟩

theorem selfCalCommit_passed (f : CalFactors) (i : Nat) (res : List Word) (s : State) :
    let t := endSlot i .completed res (committed (2 ^ f.conv.val) (ownFactors f s))
    (rd t (aCal f.conv 0) = wd (unsgn 24 f.ofs) ∧ rd t (aCal f.conv 4) = wd f.gain ∧ rd t (aCal f.conv 8) = f.stage
      ∧ t.conv.calValid.testBit f.conv = true)
    ∧ regsBut (fun a => a = aOpqEvent ∨ ∃ o, o < 12 ∧ a = aCal f.conv o) s t := by
  obtain ⟨-, h2, h3⟩ := endSlot_committed i res (2 ^ f.conv.val) (ownFactors f s)
  obtain ⟨⟨g1, g2, g3⟩, g4⟩ := ownFactors_rd f s
  have hk := fun o (ho : o < 16) => h3 (aCal f.conv o) (by have := f.conv.isLt; unfold aCal aOpqEvent; lia) (not_intReg_cal f ho)
  refine ⟨⟨(hk 0 (by decide)).trans g1, (hk 4 (by decide)).trans g2, (hk 8 (by decide)).trans g3, ?_⟩,
    regsBut_trans (regsBut_mono g4 fun _ => .inr) (regsBut_mono h3 fun _ => .inl)⟩
  have hv : (committed (2 ^ f.conv.val) (ownFactors f s)).conv.calValid = s.conv.calValid ||| 2 ^ f.conv.val := rfl
  rw [h2, hv, Nat.testBit_or, Nat.testBit_two_pow_self, Bool.or_true]

end

/-! The user calibration (R253). -/

theorem crc32Shift_lt (n c : Nat) (hc : c < 2 ^ 32) : crc32Shift n c < 2 ^ 32 := by
  induction n generalizing c with
  | zero => exact hc
  | succ n ih =>
    have hs : c >>> 1 < 2 ^ 32 := Nat.lt_of_le_of_lt (Nat.shiftRight_le c 1) hc
    exact ih _ (ite_elim (P := (· < 2 ^ 32)) (fun _ => Nat.xor_lt_two_pow hs (by decide)) fun _ => hs)

theorem crc32_lt (l : List Byte) : crc32 l < 2 ^ 32 := by
  suffices h : ∀ c, c < 2 ^ 32 → l.foldl (fun c b => crc32Shift 8 (c ^^^ b.toNat)) c < 2 ^ 32 from
    Nat.xor_lt_two_pow (h 0xFFFFFFFF (by decide)) (by decide)
  induction l with
  | nil => exact fun c hc => hc
  | cons b l ih => exact fun c hc => ih _ (crc32Shift_lt 8 _ (Nat.xor_lt_two_pow hc (Nat.lt_trans b.isLt (by decide))))

theorem length_ucalBody (seq : Nat) (ws : List Word) : (ucalBody seq ws).length = 8 + 4 * ws.length := by
  rw [ucalBody, List.length_append, List.length_append, List.length_flatMap]
  simp [Nat.mul_comm]

theorem length_ucalWords (s : State) : (ucalWords s).length = 32 := rfl

theorem ucalValid_ucalBody (seq : Nat) (s : State) : ucalValid (ucalBody seq (ucalWords s)) = false := by
  rw [ucalValid, length_ucalBody, length_ucalWords]
  rfl

/-- A whole slot that its CRC-32 closes is valid and keeps its sequence number. -/
theorem ucalValid_close {seq : Nat} {ws : List Word} (h : ws.length = 32) :
    ucalValid (ucalClose (ucalBody seq ws)) = true ∧ ucalSeq (ucalClose (ucalBody seq ws)) = seq % 2 ^ 32 := by
  have hl : (ucalBody seq ws).length = 0x88 := by rw [length_ucalBody, h]
  have e : ucalClose (ucalBody seq ws) = ucalBody seq ws ++ leBytes 4 (crc32 (ucalBody seq ws)) := if_pos hl
  have hc := leAt_leBytes (ucalBody seq ws) [] 4 (crc32 (ucalBody seq ws))
  have hm := leAt_leBytes (leBytes 4 seq) (ws.flatMap (fun w => leBytes 4 w.toNat) ++ leBytes 4 (crc32 (ucalBody seq ws)))
    4 0x4C414355
  have hs := leAt_leBytes [] (leBytes 4 0x4C414355 ++ (ws.flatMap (fun w => leBytes 4 w.toNat)
    ++ leBytes 4 (crc32 (ucalBody seq ws)))) 4 seq
  have eb : leBytes 4 seq ++ (leBytes 4 0x4C414355 ++ (ws.flatMap (fun w => leBytes 4 w.toNat)
      ++ leBytes 4 (crc32 (ucalBody seq ws)))) = ucalClose (ucalBody seq ws) := by rw [e]; simp only [ucalBody, List.append_assoc]
  rw [List.append_nil, ← e, hl, Nat.mod_eq_of_lt (show _ < 256 ^ 4 from crc32_lt _)] at hc
  rw [eb, length_leBytes] at hm
  rw [List.nil_append, eb] at hs
  refine ⟨?_, hs⟩
  rw [ucalValid, hc, hm, e, List.take_left' hl, List.length_append, hl]
  simp

theorem ucalSlot_save (s : State) (h : s.conv.ucalBusy = false) : ∃ q, doUcalSave (wd 0x5543) s = { s with conv := q }
    ∧ q.ucalBusy = true ∧ q.ucalSlots.getD (ucalOlder s) [] = ucalBody ((ucalTop s + 1) % 2 ^ 32) (ucalWords s)
    ∧ q.ucalSlots.getD (1 - ucalOlder s) [] = ucalSlot s (1 - ucalOlder s) := by
  refine ⟨_, if_pos ⟨rfl, h⟩, rfl, ?_⟩
  have ho : ucalOlder s = 0 ∨ ucalOlder s = 1 := by
    exact ite_elim (P := fun k => k = 0 ∨ k = 1) (fun _ => .inl rfl) fun _ => ite_elim (P := fun k => k = 0 ∨ k = 1)
      (fun _ => .inr rfl) fun _ => ite_elim (P := fun k => k = 0 ∨ k = 1) (fun _ => .inl rfl) fun _ => .inr rfl
  rcases ho with ho | ho <;> rw [ho] <;> exact ⟨rfl, rfl⟩

/-- Settles O42: one converter's commit, and a slot that its closing CRC-32 makes valid. -/
theorem calibration : Obligations.Calibration := by
  refine ⟨fun f i s hr hw hm => ⟨_, rfl, ?_⟩, fun s h => ?_, fun v s h => ?_, fun s h => ?_⟩
  · rw [selfCalCommit_eq hr hw hm]
    cases hp : calPasses f with
    | true =>
      obtain ⟨⟨h1, h2⟩, h3, -⟩ := endSlot_committed i (commitRes (2 ^ f.conv.val) s) (2 ^ f.conv.val) (ownFactors f s)
      obtain ⟨h4, h5⟩ := selfCalCommit_passed f i (commitRes (2 ^ f.conv.val) s) s
      exact ⟨h1, congrArg Conv.calBusy h3, h2, fun _ => h4, fun h => absurd h (by decide), h5⟩
    | false =>
      obtain ⟨⟨h1, h2⟩, h3, h4⟩ := endSlot_committed i (commitRes 0 s) 0 s
      exact ⟨h1, congrArg Conv.calBusy h3, h2, fun h => absurd h (by decide),
        fun _ => ⟨(congrArg Conv.calValid h3).trans (Nat.or_zero _), fun o ho =>
          h4 _ (by have := f.conv.isLt; unfold aCal aOpqEvent; lia) (not_intReg_cal f ho)⟩, regsBut_mono h4 fun _ => .inl⟩
  · obtain ⟨g, x, e⟩ := hostAccess_eq s
    have hf : unchangedBut [.gorse, .conv, .host] s (doUcalSave (wd 0x5543) (hostAccess s)) :=
      exec_unchangedBut (.ucalSave (wd 0x5543)) s _ rfl
    refine ⟨doUcalSave (wd 0x5543) (hostAccess s), rfl, ?_⟩
    rw [e] at hf ⊢
    obtain ⟨q, eq, h1, h2, h3⟩ := ucalSlot_save { s with gorse := g, host := x } h
    rw [eq] at hf ⊢
    exact ⟨h1, h2, (congrArg ucalValid h2).trans (ucalValid_ucalBody _ s), h3, hf⟩
  · have hn : ¬ (v = wd 0x5543 ∧ (hostAccess s).conv.ucalBusy = false) := by
      rw [hostAccess_conv]
      rcases h with h | h
      · exact fun h' => h h'.1
      · exact fun h' => absurd (h.symm.trans h'.2) (by decide)
    exact ⟨_, congrArg Host.Outcome.next (if_neg hn), Metering.unchangedBut_hostAccess s⟩
  · have hk : ∀ k, (s.conv.ucalSlots.map ucalClose).getD k [] = ucalClose (ucalSlot s k) := fun k =>
      List.getD_map (l := s.conv.ucalSlots) (n := k) (d := []) ucalClose
    refine ⟨_, congrArg Host.Outcome.next (if_pos h), rfl, hk, fun k seq ws hl hb => ?_, kept_modConv (keptBut _ s) _ _ (unchangedBut_refl _ s)⟩
    have e := (hk k).trans (congrArg ucalClose hb)
    exact ⟨(congrArg ucalValid e).trans (ucalValid_close hl).1, (congrArg ucalSeq e).trans (ucalValid_close hl).2⟩

end Sys2Proof.Converters
end

section
-- One proof after another: the check compiles the whole text in one process, and memory is short.
set_option Elab.async false
/-! Chapter 9: window comparators, their captures and their readback (R255, R257, R261 to R263). -/

namespace Sys2Proof.Converters

open Sys2Proof Sys2Proof.Machine Sys2Proof.Laws Sys2Proof.Conversion Sys2Proof.Rules Sys2Proof.Control Sys2Proof.Clocks Sys2Proof.Times

section
variable (c : Nat) (s : State)

/-! Outputs. -/

theorem cmp_of_conv {s t : State} (h : t.conv = s.conv) (k : Nat) : Machine.cmp t k = Machine.cmp s k := by
  rw [Machine.cmp, h, Machine.cmp]

theorem wcOutput_cmps (out : Bool) : (wcOutput c out s).conv = s.conv := kept_wcOutput (kept_same .conv rfl s) c out s rfl

theorem wake_regs (cause wc : Nat) : (wake cause wc s).regs = s.regs := kept_wake (kept_same .regs rfl s) cause wc s rfl

theorem recTrigger_regs (m : Nat) : (recTrigger m s).regs = s.regs := kept_recTrigger (kept_same .regs rfl s) m s rfl

/-- A capture leaves the words below the capture units. -/
theorem rd_capture_edge (k : Nat) (hk : k < 8) (leaving : Bool) : rd (capture k c leaving s) aWcEdge = rd s aWcEdge := by
  have hn : ∀ o, aWcEdge ≠ aCap k o := fun o => by unfold aWcEdge aCap; lia
  unfold capture
  extract_lets old hi
  rw [rd_of_regs (recTrigger_regs ..), rd_irq _ _ _ (by lia) (by unfold intReg aWcEdge; lia), landNew, rd_landWord, if_neg (hn 8),
    rd_wr_ne _ _ (hn 4), rd_wr_ne _ _ (hn 0)]

/-- A change of output sets its flag. -/
theorem bit_wcOutput (hc : c < 24) (out : Bool) : bit (rd (wcOutput c out s) aWcEdge) c = true := by
  unfold wcOutput
  extract_lets w s1 s2 k s3
  have hi : ¬ intReg aWcEdge := by unfold intReg aWcEdge; lia
  have h2 : rd s2 aWcEdge = rd s1 aWcEdge :=
    ite_elim (P := fun t => rd t aWcEdge = rd s1 aWcEdge) (fun _ => rd_irq s1 _ _ (by lia) hi) fun _ => rfl
  have h3 : rd s3 aWcEdge = rd s2 aWcEdge :=
    ite_elim (P := fun t => rd t aWcEdge = rd s2 aWcEdge) (fun _ => rd_capture_edge _ _ _ (by lia) _) fun _ => rfl
  have h4 : rd (if (bit w 15 && out) = true then wake 2 c s3 else s3) aWcEdge = rd s3 aWcEdge :=
    ite_elim (P := fun t => rd t aWcEdge = rd s3 aWcEdge) (fun _ => rd_of_regs (wake_regs ..) _) fun _ => rfl
  rw [h4, h3, h2, bit_stick_none _ _ _ (by lia)]

/-- What a comparator that takes new values shows. -/
theorem wcSet_spec {c : Nat} (hc : c < 24) (a b : Bool) (s : State) : let t := wcSet c a b s
    ((cmp t c).above = a ∧ (cmp t c).below = b ∧ (cmp t c).settled = (cmp s c).settled)
    ∧ (((cmp s c).above || (cmp s c).below) ≠ (a || b) → bit (rd t aWcEdge) c = true)
    ∧ (((cmp s c).above || (cmp s c).below) = (a || b) → rd t aWcEdge = rd s aWcEdge)
    ∧ ∀ k, k ≠ c → cmp t k = cmp s k := by
  intro t
  obtain ⟨f, u, hf, hu, ht⟩ : ∃ f u, (∀ y : Cmp, (f y).above = a ∧ (f y).below = b ∧ (f y).settled = y.settled) ∧ modCmp c f s = u
    ∧ t = if ((cmp s c).above || (cmp s c).below) == (a || b) then u else wcOutput c (a || b) u :=
    ⟨_, _, fun _ => ⟨rfl, rfl, rfl⟩, rfl, rfl⟩
  have hk : t.conv = u.conv := by
    rw [ht]
    exact ite_elim (P := fun x : State => x.conv = u.conv) (fun _ => rfl) fun _ => wcOutput_cmps _ _ _
  have hcmp := cmp_of_conv hk
  refine ⟨?_, fun h => ?_, fun h => ?_, fun k hne => ?_⟩
  · rw [hcmp, ← hu, cmp_modCmp_self]
    exact hf _
  · rw [ht, if_neg (by simpa using h)]
    exact bit_wcOutput _ _ hc _
  · rw [ht, if_pos (by simpa using h), ← hu]
    rfl
  · rw [hcmp, ← hu, cmp_modCmp_ne _ _ hne]

/-- A crossing at an enabled and settled comparator, where its side is in use. -/
theorem wcCrossing_spec {c : Nat} (hc : c < 24) (x : Crossing) (s : State) (he : wcEnabled s c = true) (hs : (cmp s c).settled = true) :
    let t := doWcCrossing c x s
    let w := wcCfgOf s c
    let was := cmp s c
    let now := match x with
      | .aboveHigh => if bit w 2 then (true, false) else (was.above, was.below)
      | .belowHighHyst => (false, was.below)
      | .belowLow => if bit w 1 then (false, true) else (was.above, was.below)
      | .aboveLowHyst => (was.above, false)
    ((cmp t c).above = now.1 ∧ (cmp t c).below = now.2
      ∧ ((was.above || was.below) ≠ (now.1 || now.2) → bit (rd t aWcEdge) c = true)
      ∧ ((was.above || was.below) = (now.1 || now.2) → rd t aWcEdge = rd s aWcEdge))
    ∧ ∀ k, k ≠ c → cmp t k = cmp s k := by
  have hset : ∀ a b, ((cmp (wcSet c a b s) c).above = a ∧ (cmp (wcSet c a b s) c).below = b
      ∧ (((cmp s c).above || (cmp s c).below) ≠ (a || b) → bit (rd (wcSet c a b s) aWcEdge) c = true)
      ∧ (((cmp s c).above || (cmp s c).below) = (a || b) → rd (wcSet c a b s) aWcEdge = rd s aWcEdge))
      ∧ ∀ k, k ≠ c → cmp (wcSet c a b s) k = cmp s k := fun a b => by
    obtain ⟨⟨h1, h2, -⟩, h3, h4, h5⟩ := wcSet_spec hc a b s
    exact ⟨⟨h1, h2, h3, h4⟩, h5⟩
  have hd : doWcCrossing c x s = match x with
      | .aboveHigh => if bit (wcCfgOf s c) 2 then wcSet c true false s else s
      | .belowHighHyst => wcSet c false (cmp s c).below s
      | .belowLow => if bit (wcCfgOf s c) 1 then wcSet c false true s else s
      | .aboveLowHyst => wcSet c (cmp s c).above false s := if_pos (by rw [he, hs]; rfl)
  dsimp only
  rw [hd]
  cases x with
  | aboveHigh =>
    by_cases h : bit (wcCfgOf s c) 2 = true
    · dsimp only
      rw [if_pos h, if_pos h]
      exact hset _ _
    · dsimp only
      rw [if_neg h, if_neg h]
      exact ⟨⟨rfl, rfl, fun h => absurd rfl h, fun _ => rfl⟩, fun _ _ => rfl⟩
  | belowHighHyst => exact hset _ _
  | belowLow =>
    by_cases h : bit (wcCfgOf s c) 1 = true
    · dsimp only
      rw [if_pos h, if_pos h]
      exact hset _ _
    · dsimp only
      rw [if_neg h, if_neg h]
      exact ⟨⟨rfl, rfl, fun h => absurd rfl h, fun _ => rfl⟩, fun _ _ => rfl⟩
  | aboveLowHyst => exact hset _ _

/-- The first evaluation of an enabled comparator. -/
theorem wcSettled_spec {c : Nat} (hc : c < 24) (uV : Int) (s : State) (he : wcEnabled s c = true) (hs : (cmp s c).settled = false) :
    let t := doWcSettled c uV s
    (cmp t c).settled = true
    ∧ (let w := wcCfgOf s c
       let h : Int := 8000 * (fld w 3 5 : Nat)
       (cmp t c).above = (bit w 2 && decide (wcLevel c (wcHigh s c) - h / 2 < 8 * uV))
       ∧ (cmp t c).below = (bit w 1 && decide (8 * uV < wcLevel c (wcLow s c) + h / 2) && !(cmp t c).above))
    ∧ ∀ k, k ≠ c → cmp t k = cmp s k := by
  intro t
  have ht : t = doWcSettled c uV s := rfl
  unfold doWcSettled at ht
  rw [he, hs, if_pos (by rfl)] at ht
  extract_lets w u vh vl h above below band s1 at ht
  obtain ⟨s2, h2, hk⟩ : ∃ s2, t = wcSet c above below s2 ∧ s2.conv = s1.conv :=
    ⟨_, ht, ite_elim (P := fun x : State => x.conv = s1.conv) (fun _ => rfl) fun _ => rfl⟩
  obtain ⟨⟨g1, g2, g3⟩, -, -, g4⟩ := wcSet_spec hc above below s2
  have hcmp := cmp_of_conv hk
  rw [h2]
  refine ⟨g3.trans ((congrArg Cmp.settled ((hcmp c).trans (cmp_modCmp_self ..)))), ⟨g1, ?_⟩, fun k hne =>
    (g4 k hne).trans ((hcmp k).trans (cmp_modCmp_ne _ _ hne))⟩
  rw [g1]
  exact g2

/-! Captures (R262). -/

theorem lanes_all (w : Word) : lanes w 0 4 = w := by
  simp [lanes, natFld, wd, Nat.mod_eq_of_lt w.isLt]

theorem capRead_spec (k : Fin 8) (s : State) (h : eventNow s (aCap k 8) = none) : ∃ t, exec (.capRead .host k) s = .next t
    ∧ t.host.result = .data (rd s (aCap k 8)) ∧ rd t (aCap k 8) = putFld (rd s (aCap k 8)) 22 1 0
    ∧ regsBut (fun a => a = aCap k 8) s t := by
  have hk := k.isLt
  have hm : ∀ t, readMarks .host (aCap k 8) t = t := fun t => by
    rw [readMarks, hit_outside (by unfold aCap; lia), hit_outside (by unfold aCap; lia)]
    rfl
  have hb : blockOf (aCap k 8) = (11, 0x1C0000) ∧ (regInfo (aCap k 8)).acc = .w1c ∧ rcBits (aCap k 8) = wd (2 ^ 22)
      ∧ is64Low (aCap k 8) = false ∧ isCaptured (aCap k 8) = false := by
    clear h hm hk
    revert k
    decide
  obtain ⟨b1, b2, b3, b4, b5⟩ := hb
  generalize ha : aCap k 8 = a at *
  have hr : a = 0x1C0808 + 16 * k.val := by rw [← ha]; unfold aCap; lia
  have hv : regView s a = none := by
    unfold regView
    extract_lets b o
    have h1 : b.1 = 11 := congrArg Prod.fst b1
    have h2 : o = 0x808 + 16 * k.val := by
      have : b.2 = 0x1C0000 := congrArg Prod.snd b1
      lia
    clear_value o b
    rw [h1]
    change viewConv s o = none
    rw [viewConv, if_neg (by lia), if_neg (by lia), if_neg (by lia), if_neg (by lia), if_neg (by lia)]
  have hd : captured .host a s = none := by rw [captured, b5]; rfl
  have hl : readLive a s = rd s a := by
    simp [readLive, h, readWord, hv, b2]
  have hc : captures .host a s = s := by
    rw [captures, if_neg (by unfold aTimeNs; lia), b4]
    rfl
  have hw : readReg .host a s = wr a (putFld (rd s a) 22 1 0) s := by
    have hp : rd s a &&& ~~~wd (2 ^ 22) = putFld (rd s a) 22 1 0 := by simp [putFld, wd]
    simp [readReg, hc, hd, hm, b3, wd, afterRead, h, ← hp]
  refine ⟨_, rfl, ?_⟩
  rw [doCapRead, ifaceRead, ha, hostRead, if_neg (by lia), if_neg (by lia), if_neg (by lia)]
  simp only [show a % 4 = 0 by lia, Nat.sub_zero, lanes_all, readData, hd, hw, Option.getD_none, hl]
  exact ⟨rfl, rd_wr_self .., fun b hb _ => rd_wr_ne _ _ hb⟩

/-! The threshold readback (R263). -/

theorem wcCode_lt (s : State) (c : Nat) (hi : Bool) : (if hi then wcHigh s c else wcLow s c) < 1024 := by
  have h : ∀ w lo, fld w lo 10 < 1024 := fun _ _ => Nat.mod_lt _ (by decide)
  exact ite_elim (P := (· < 1024)) (fun _ => ite_elim (P := (· < 1024)) (fun _ => h _ _) fun _ => h _ _)
    fun _ => ite_elim (P := (· < 1024)) (fun _ => h _ _) fun _ => h _ _

/-- The fields of RB_RESULT: code, threshold, and the bits BUSY and DONE. -/
theorem rbWord_spec {x y z : Nat} (hx : x < 65536) (hy : y < 1024) (hz : z < 4) : let w := wd (x + 65536 * y + 2 ^ 28 * z)
    fld w 0 16 = x ∧ fld w 16 10 = y ∧ bit w 28 = z.testBit 0 ∧ bit w 29 = z.testBit 1 := by
  have hl : x + 65536 * y < 2 ^ 28 := by lia
  have hw : x + 65536 * y + 2 ^ 28 * z < 2 ^ 32 := by lia
  have e : x + 65536 * y + 2 ^ 28 * z = x + 65536 * (y + 1024 * (4 * z)) := by ring
  have hb : ∀ k, k < 4 → bit (wd (x + 65536 * y + 2 ^ 28 * z)) (k + 28) = z.testBit k := fun k hk => by
    rw [bit_wd _ (by lia), Nat.testBit_add, Nat.add_mul_div_left _ _ (by decide), Nat.div_eq_of_lt hl, Nat.zero_add]
  refine ⟨?_, ?_, hb 0 (by decide), hb 1 (by decide)⟩
  · rw [fld_wd hw, Nat.pow_zero, Nat.div_one, e]
    exact (Nat.add_mul_mod_self_left ..).trans (Nat.mod_eq_of_lt hx)
  · rw [fld_wd hw, e]
    exact (congrArg (· % 1024) ((Nat.add_mul_div_left _ _ (by decide)).trans (by rw [Nat.div_eq_of_lt hx, Nat.zero_add]))).trans
      ((Nat.add_mul_mod_self_left ..).trans (Nat.mod_eq_of_lt hy))

theorem rbCtrl_taken {v : Word} {s : State} (h1 : convInService s = false) (h2 : s.conv.calBusy.testBit (fld v 8 4) = false)
    (h3 : s.conv.rbConv = none) : let t := doRbCtrl v s
    t.conv = { s.conv with rbConv := some (fld v 8 4), rbCmp := min (fld v 0 5) 23 }
    ∧ (let c := min (fld v 0 5) 23
       fld (rd t aRbResult) 16 10 = (if bit v 5 then wcHigh s c else wcLow s c))
    ∧ bit (rd t aRbResult) 28 = true ∧ bit (rd t aRbResult) 29 = false := by
  have hc := wcCode_lt s (min (fld v 0 5) 23) (bit v 5)
  have ht : doRbCtrl v s = wr aRbResult (wd (65536 * (if bit v 5 then wcHigh s (min (fld v 0 5) 23)
        else wcLow s (min (fld v 0 5) 23)) + 2 ^ 28))
      (modConv (fun q => { q with rbConv := some (fld v 8 4), rbCmp := min (fld v 0 5) 23 }) (clampSeen 0x1C0014 v s)) :=
    if_neg (by rw [h1, h2, h3]; decide)
  have hk : (clampSeen 0x1C0014 v s).conv = s.conv := kept_clampSeen (kept_same .conv rfl s) _ _ _ rfl
  dsimp only
  rw [ht, rd_wr_self]
  generalize (if bit v 5 then wcHigh s (min (fld v 0 5) 23) else wcLow s (min (fld v 0 5) 23)) = code at hc
  obtain ⟨-, h4, h5, h6⟩ := rbWord_spec (x := 0) (z := 1) (by decide) hc (by decide)
  rw [Nat.zero_add, Nat.mul_one] at h4 h5 h6
  exact ⟨(congrArg (fun q : Conv => { q with rbConv := some (fld v 8 4), rbCmp := min (fld v 0 5) 23 }) hk :), h4, h5, h6⟩

theorem rbCtrl_refused {v : Word} {s : State} (h : convInService s = true ∨ s.conv.calBusy.testBit (fld v 8 4) = true
    ∨ s.conv.rbConv ≠ none) : doRbCtrl v s = convStick 1 s ∧ bit (rd (convStick 1 s) aConvSticky) 1 = true
    ∧ (convStick 1 s).conv = s.conv ∧ regsBut (fun a => a = aConvSticky) s (convStick 1 s) := by
  have hc : (convInService s || s.conv.calBusy.testBit (fld v 8 4) || s.conv.rbConv.isSome) = true := by
    rw [← Option.isSome_iff_ne_none] at h
    rw [Bool.or_eq_true, Bool.or_eq_true]
    exact or_assoc.mpr h
  exact ⟨if_pos hc, bit_stick s 1 _ (by rintro _ ⟨rfl⟩; decide) (not_intReg_of_between (by decide) (by decide)) (by decide),
    kept_convStick (kept_same .conv rfl s) 1 s rfl, regsBut_stick s _ _ _ (by rintro _ ⟨rfl⟩; decide)⟩

theorem readbackDone_spec {n : Nat} {s : State} (levels : List Int) (h : s.conv.rbConv = some n) : let t := doReadbackDone levels s
    t.conv = { s.conv with rbConv := none } ∧ fld (rd t aRbResult) 0 16 = unsgn 16 (rbCode s n s.conv.rbCmp levels)
    ∧ fld (rd t aRbResult) 16 10 = fld (rd s aRbResult) 16 10 ∧ bit (rd t aRbResult) 28 = false
    ∧ bit (rd t aRbResult) 29 = true ∧ regsBut (fun a => a = aRbResult) s t := by
  have hu : unsgn 16 (rbCode s n s.conv.rbCmp levels) < 65536 :=
    (Int.toNat_lt (Int.emod_nonneg _ (by decide))).mpr (Int.emod_lt_of_pos _ (by decide))
  obtain ⟨h1, h2, h3, h4⟩ := rbWord_spec (z := 2) hu (y := fld (rd s aRbResult) 16 10) (Nat.mod_lt _ (by decide)) (by decide)
  rw [show 2 ^ 28 * 2 = 2 ^ 29 from rfl] at h1 h2 h3 h4
  have e : doReadbackDone levels s = wr aRbResult (wd (unsgn 16 (rbCode s n s.conv.rbCmp levels)
      + 65536 * fld (rd s aRbResult) 16 10 + 2 ^ 29)) (modConv (fun q => { q with rbConv := none }) s) := by
    rw [doReadbackDone, h]
  dsimp only
  rw [e, rd_wr_self]
  exact ⟨rfl, h1, h2, h3, h4, fun a ha _ => rd_wr_ne _ _ ha⟩

end

/-- Settles O43, row by row. -/
theorem comparators : Obligations.Comparators := by
  refine ⟨fun c x s h => congrArg Host.Outcome.next (if_neg (by rcases h with h | h <;> simp [h])),
    fun c x s he hs => ⟨_, rfl, wcCrossing_spec c.isLt x s he hs⟩, fun c uV s he hs => ⟨_, rfl, wcSettled_spec c.isLt uV s he hs⟩,
    capRead_spec, fun v s h => ⟨doRbCtrl v (hostAccess s), rfl, ?_⟩, fun v s h1 h2 h3 => ?_, fun levels n s h => ⟨_, rfl, readbackDone_spec levels h⟩⟩
  · have e := rbCtrl_refused (s := hostAccess s) (v := v) (by rw [convInService, hostAccess_mod, hostAccess_conv]; exact h)
    rw [e.1]
    exact ⟨e.2.1, e.2.2.1.trans (hostAccess_conv s), fun a ha hi => (e.2.2.2 a ha hi).trans (rd_hostAccess s a)⟩
  · obtain ⟨g, x, e⟩ := hostAccess_eq s
    refine ⟨doRbCtrl v (hostAccess s), rfl, ?_⟩
    rw [e]
    exact rbCtrl_taken (s := { s with gorse := g, host := x }) h1 h2 h3

end Sys2Proof.Converters
end

section
-- One proof after another: the check compiles the whole text in one process, and memory is short.
set_option Elab.async false
/-! Chapter 2: the key hash and the boot read (R60, R61, R80); DRAM through BAR2 (R65, R336). -/

namespace Sys2Proof.Dram

open Sys2Proof Sys2Proof.Machine Sys2Proof.Laws Sys2Proof.Conversion Sys2Proof.Rules Sys2Proof.Control

section
variable (s : State)

/-- A byte of DRAM after a list of bytes is put there. -/
theorem tget_dramPut (o : Nat) (l : List Byte) (a : Nat) : tget dZeroB (dramPut o l s).dram a
    = if o ≤ a ∧ a < o + l.length ∧ a < dramSize then l.getD (a - o) 0 else tget dZeroB s.dram a := by
  rw [dramPut_dram, tget_tsetRun]
  by_cases h : o ≤ a
  · rw [if_pos h, List.getElem?_take]
    by_cases hs : a < dramSize
    · rw [if_pos (by lia)]
      by_cases hl : a < o + l.length
      · rw [if_pos ⟨h, hl, hs⟩, List.getElem?_eq_getElem (by lia), List.getD_eq_getElem _ _ (by lia)]
        rfl
      · rw [if_neg (by lia), List.getElem?_eq_none (by lia)]
        rfl
    · rw [if_neg (by lia), if_neg (by lia)]
      rfl
  · rw [if_neg h, if_neg fun h' => h h'.1]

theorem getD_dramAt (o n k : Nat) (h : k < n) : (dramAt s o n).getD k 0 = tget dZeroB s.dram (o + k) := by
  unfold dramAt
  induction n generalizing o k with
  | zero => exact absurd h (Nat.not_lt_zero _)
  | succ n ih =>
    cases k with
    | zero => rfl
    | succ k =>
      have e : o + 1 + k = o + (k + 1) := by lia
      exact (ih (o + 1) k (by lia)).trans (congrArg _ e)

/-! BAR2. -/

theorem dmkFlag_dram (b : Nat) : (dmkFlag b s).dram = s.dram := rfl

theorem rd_dmkFlag_ne {a : Nat} (b : Nat) (h : a ≠ aDmkFlags) : rd (dmkFlag b s) a = rd s a := rd_stick_none_ne s _ h

theorem drop_range {off edge len a : Nat} (h : off < edge) :
    edge ≤ a ∧ a < edge + (len - (edge - off)) ↔ edge ≤ a ∧ a < off + len := by lia

theorem drop_index {off edge a : Nat} (h : off < edge) (h' : edge ≤ a) : edge - off + (a - edge) = a - off := by lia

theorem bar2Write_spec (off : Nat) (data : List Byte) : let t := doBar2Write off data s
    let edge := s.damask.stagingMib * 2 ^ 20
    (∀ a, tget dZeroB t.dram a =
        if off ≤ a ∧ a < off + data.length ∧ a < dramSize ∧ ¬(stagingLocked s = true ∧ a < edge)
        then data.getD (a - off) 0 else tget dZeroB s.dram a)
    ∧ (stagingLocked s = true → off < edge → data ≠ [] → bit (rd t aDmkFlags) 0 = true)
    ∧ regsBut (fun a => a = aDmkFlags) s t := by
  unfold doBar2Write
  generalize he : s.damask.stagingMib * 2 ^ 20 = edge
  dsimp only
  by_cases h : stagingLocked s = true ∧ off < edge ∧ data ≠ []
  · obtain ⟨h1, h2, h3⟩ := h
    rw [if_pos (by simp [h1, h2, h3])]
    refine ⟨fun a => ?_, fun _ _ _ => bit_stick_none _ _ 0 (by decide),
      fun a ha _ => (rd_dmkFlag_ne _ 0 ha).trans (rd_dramPut _ _ _ _)⟩
    rw [dmkFlag_dram, tget_dramPut, List.length_drop]
    by_cases hc : edge ≤ a ∧ a < edge + (data.length - (edge - off)) ∧ a < dramSize
    · obtain ⟨r1, r2⟩ := (drop_range h2).mp ⟨hc.1, hc.2.1⟩
      rw [if_pos hc, if_pos ⟨(Nat.le_of_lt h2).trans hc.1, r2, hc.2.2, fun h => absurd h.2 (Nat.not_lt.mpr hc.1)⟩,
        List.getD_eq_getElem?_getD, List.getElem?_drop, drop_index h2 hc.1, List.getD_eq_getElem?_getD]
    · have hn : ¬(off ≤ a ∧ a < off + data.length ∧ a < dramSize ∧ ¬(stagingLocked s = true ∧ a < edge)) := fun h => by
        have he : edge ≤ a := Nat.le_of_not_lt fun hl => h.2.2.2 ⟨h1, hl⟩
        exact hc ⟨he, ((drop_range h2).mpr ⟨he, h.2.1⟩).2, h.2.2.1⟩
      rw [if_neg hc, if_neg hn]
  · rw [if_neg (by
      simp only [Bool.and_eq_true, decide_eq_true_eq, Bool.not_eq_true', List.isEmpty_eq_false_iff]
      exact fun h' => h ⟨h'.1.1, h'.1.2, h'.2⟩)]
    refine ⟨fun a => ?_, fun h1 h2 h3 => absurd ⟨h1, h2, h3⟩ h, fun a _ _ => rd_dramPut _ _ _ a⟩
    rw [tget_dramPut]
    by_cases hc : off ≤ a ∧ a < off + data.length ∧ a < dramSize
    · have hne : data ≠ [] := by
        rintro rfl
        exact absurd (Nat.lt_of_le_of_lt hc.1 hc.2.1) (Nat.lt_irrefl _)
      rw [if_pos hc, if_pos ⟨hc.1, hc.2.1, hc.2.2, fun hl => h ⟨hl.1, Nat.lt_of_le_of_lt hc.1 hl.2, hne⟩⟩]
    · rw [if_neg hc, if_neg fun h => hc ⟨h.1, h.2.1, h.2.2.1⟩]

theorem result_of_core {h k : HostIf} (e : hostCore h = hostCore k) : h.result = k.result := by
  simpa [hostCore] using congrArg HostIf.result e

theorem globalStick_spec {b : Nat} (hb : b < 32) : bit (rd (globalStick b s) aGlobalSticky) b = true
    ∧ regsBut (fun a => a = aGlobalSticky) s (globalStick b s) ∧ (globalStick b s).dram = s.dram
    ∧ (globalStick b s).host.result = s.host.result :=
  ⟨bit_stick s b _ (by rintro _ ⟨rfl⟩; decide) (by unfold intReg aGlobalSticky; lia) hb,
    regsBut_stick s _ _ _ (by rintro _ ⟨rfl⟩; decide), kept_globalStick (kept_same .dram rfl s) b s rfl,
    result_of_core (holds_if (P := fun t => hostCore t.host = hostCore s.host) (fun _ => rfl) fun _ =>
      Protect.irq_hostCore (by decide) _)⟩

theorem bar2Read_spec (off len : Nat) (ecc : Ecc) : let t := doBar2Read off len ecc s
    t.dram = s.dram
    ∧ (let bytes := dramAt s off (min len (dramSize - off))
       (∀ n, n < min len (dramSize - off) → bytes.getD n 0 = tget dZeroB s.dram (off + n))
       ∧ (ecc ≠ .uncorrectable → t.host.result = .bytes bytes)
       ∧ (ecc = .clean → t.regs = s.regs)
       ∧ (ecc = .corrected → rd t aDramCeCnt = satInc (rd s aDramCeCnt) 1 ∧ bit (rd t aGlobalSticky) 1 = true)
       ∧ (ecc = .uncorrectable → t.host.result = .poisoned ∧ rd t aDramCeCnt = rd s aDramCeCnt
           ∧ bit (rd t aGlobalSticky) 2 = true))
    ∧ regsBut (fun a => a = aDramCeCnt ∨ a = aGlobalSticky) s t := by
  unfold doBar2Read
  have hb := getD_dramAt s off (min len (dramSize - off))
  generalize dramAt s off (min len (dramSize - off)) = bytes at hb ⊢
  generalize min len (dramSize - off) = n at hb ⊢
  have hn : ¬ intReg aDramCeCnt := by unfold intReg aDramCeCnt; lia
  cases ecc with
  | clean => exact ⟨rfl, ⟨hb, fun _ => rfl, fun _ => rfl, nofun, nofun⟩, fun _ _ _ => rfl⟩
  | corrected =>
    obtain ⟨g1, g2, g3, g4⟩ := globalStick_spec (cntSat aDramCeCnt 1 (setResult (.bytes bytes) s)) (b := 1) (by decide)
    refine ⟨g3, ⟨hb, fun _ => g4, nofun, fun _ => ⟨?_, g1⟩, nofun⟩, fun a ha hi => ?_⟩
    · exact (g2 _ (by decide) hn).trans ((rd_cntSat ..).trans (if_pos rfl))
    · exact (g2 a (fun h => ha (.inr h)) hi).trans ((rd_cntSat ..).trans (if_neg fun h => ha (.inl h)))
  | uncorrectable =>
    obtain ⟨g1, g2, g3, g4⟩ := globalStick_spec (setResult .poisoned s) (b := 2) (by decide)
    exact ⟨g3, ⟨hb, fun h => absurd rfl h, nofun, nofun, fun _ => ⟨g4, g2 _ (by decide) hn, g1⟩⟩,
      fun a ha hi => g2 a (fun h => ha (.inr h)) hi⟩

/-! The boot read. -/

theorem qspiRead_dram {img : List Byte} (h : s.damask.qspiBusy = true) (hl : s.damask.load = none) (hd : s.dev = .configWait)
    (hi : img.length ≤ 0x1800000) (a : Nat) : tget dZeroB (doQspiReadDone true img s).dram a
      = if a < img.length then img.getD a 0 else tget dZeroB s.dram a := by
  have e : doQspiReadDone true img s = loadStart none 0 0 false (dramPut 0 (img.take 0x1800000)
      (modDamask (fun d => { d with qspiBusy := false }) s)) := by
    unfold doQspiReadDone
    rw [h, hl, hd, if_pos (by rfl), if_neg (by decide)]
  have hk : (doQspiReadDone true img s).dram = (dramPut 0 img (modDamask (fun d => { d with qspiBusy := false }) s)).dram := by
    rw [e, List.take_of_length_le hi]
    exact kept_loadStart (kept_same .dram rfl _) none 0 0 false _ rfl
  rw [hk, tget_dramPut, Nat.zero_add, Nat.sub_zero, modDamask_dram]
  refine if_congr ⟨fun h => h.2.1, fun h => ⟨Nat.zero_le _, h, Nat.lt_of_lt_of_le h (hi.trans (by decide))⟩⟩ rfl rfl

theorem bootFail_unsupported : bootFail 0x18 s = modDamask (fun d => { d with bootCode := 0x18, qspiBusy := false }) s :=
  congrArg (modDamask · s) (funext fun _ => if_neg fun h => h.2.2 rfl)

theorem qspiRead_unsupported (img : List Byte) (h : s.damask.qspiBusy = true) (hl : s.damask.load = none) (hd : s.dev = .configWait) :
    doQspiReadDone false img s = modDamask (fun d => { d with bootCode := 0x18, qspiBusy := false }) s := by
  unfold doQspiReadDone
  rw [h, hl, hd, bootFail_unsupported, if_pos (by rfl), if_pos (by rfl)]

/-! The key hash. -/

/-- The eight words that KEY_PROG takes. -/
noncomputable def keyWords (s : State) : List Word := (List.range 8).map (tget dZeroW s.damask.keyWr)

theorem doKeyProg_key : doKeyProg (wd 0x4B48) s =
    if s.dev = .configWait ∧ s.damask.otpKey = none ∧ ∃ w ∈ keyWords s, w ≠ 0 then
      modDamask (fun d => { d with otpKey := some (keyWords s), keyBusy := true, keyFail := false }) s
    else modDamask (fun d => { d with keyFail := true }) s := by
  have hc : (s.dev == .configWait && s.damask.otpKey.isNone && !((keyWords s).all (· == 0))) = true
      ↔ s.dev = .configWait ∧ s.damask.otpKey = none ∧ ∃ w ∈ keyWords s, w ≠ 0 := by simp [and_assoc]
  unfold doKeyProg
  rw [if_neg (fun h => h rfl)]
  exact if_congr hc rfl rfl

end

/-- Settles O45: the key hash, the boot read, and BAR2 byte by byte. -/
theorem keyBootAndDram : Obligations.KeyBootAndDram := by
  refine ⟨⟨⟨fun s h1 h2 h3 => ?_, fun s h => ?_, fun v s h => ?_⟩, fun ok s h => ?_, fun img s h hl hd => ?_,
    fun img s h hl hd hi => ⟨_, rfl, qspiRead_dram s h hl hd hi⟩⟩, fun off data s => ⟨_, rfl, bar2Write_spec s off.toNat data⟩,
    fun off len ecc s => ⟨_, rfl, bar2Read_spec s off.toNat len ecc⟩⟩
  · refine ⟨_, rfl, ?_⟩
    rw [doKeyProg_key, keyWords, hostAccess_damask, hostAccess_dev, if_pos ⟨h1, h2, h3⟩, modDamask_damask, hostAccess_damask]
  · refine ⟨_, rfl, ?_⟩
    rw [doKeyProg_key, keyWords, hostAccess_damask, hostAccess_dev, if_neg, modDamask_damask, hostAccess_damask]
    rintro ⟨h1, h2, w, hw, hne⟩
    rcases h with h | h | h
    · exact h h1
    · exact h h2
    · exact hne (h w hw)
  · exact ⟨_, congrArg Host.Outcome.next (if_pos h), hostAccess_damask s⟩
  · exact ⟨_, congrArg Host.Outcome.next (if_pos h), rfl, rfl, rfl, kept_modDamask (Links.keptBut _ s) _ _ (unchangedBut_refl _ s)⟩
  · exact ⟨_, congrArg Host.Outcome.next (qspiRead_unsupported s img h hl hd), rfl, rfl,
      kept_modDamask (Links.keptBut _ s) _ _ (unchangedBut_refl _ s)⟩

end Sys2Proof.Dram
end

section
-- One proof after another: the check compiles the whole text in one process, and memory is short.
set_option Elab.async false
/-! Chapters 0 and 12: register writes (R12, R13, R15, R27, R335, R340) and transactions of the service port (R338 to R341, R404). -/

namespace Sys2Proof.Ports

open Sys2Proof Sys2Proof.Machine Sys2Proof.Laws Sys2Proof.Conversion Sys2Proof.Rules Sys2Proof.Control Sys2Proof.Bytes Sys2Proof.Times

section
variable (s : State)

/-! Refused and plain writes. -/

theorem accessErr_spec : let t := accessErr s
    rd t aAccessErrCnt = satInc (rd s aAccessErrCnt) 1 ∧ bit (rd t aGlobalSticky) 0 = true
    ∧ regsBut (fun a => a = aAccessErrCnt ∨ a = aGlobalSticky) s t ∧ unchangedBut [.regs, .events, .time, .host] s t := by
  obtain ⟨g1, g2, -, -⟩ := Dram.globalStick_spec (cntSat aAccessErrCnt 1 s) (b := 0) (by decide)
  refine ⟨?_, g1, fun a ha hi => ?_, kept_accessErr (kept_unchangedBut [.regs, .events, .time, .host] s).toKeptDev.toKept s
    (unchangedBut_refl _ s)⟩
  · exact (g2 _ (by decide) (by unfold intReg aAccessErrCnt; lia)).trans ((rd_cntSat ..).trans (if_pos rfl))
  · exact (g2 a (fun h => ha (.inr h)) hi).trans ((rd_cntSat ..).trans (if_neg fun h => ha (.inl h)))

theorem plainWrite_ro {a : Nat} (v : Word) (h : (regInfo a).acc = .ro) : plainWrite a v s = s := by rw [plainWrite, h]

theorem plainWrite_w1c {a : Nat} (v : Word) (h : (regInfo a).acc = .w1c) : plainWrite a v s = clearBits a v s := by
  rw [plainWrite, h]

theorem plainWrite_rw {a : Nat} (v : Word) (h : (regInfo a).acc = .rw) :
    plainWrite a v s = wr a (clampState s a v) (clampSeen a v s) := by rw [plainWrite, h]

theorem plainWrite_rws {a : Nat} (v : Word) (h : (regInfo a).acc = .rws) : plainWrite a v s = stageWrite a v s := by
  rw [plainWrite, h]

theorem hostWrite_whole {a : Nat} (v : Word) (ha : a < 0x400000) (h4 : a % 4 = 0) :
    hostWrite a 4 15 v s = hostWriteAt a v (hostAccess s) := by
  rw [hostWrite, if_neg (by lia), if_pos ⟨rfl, h4, rfl⟩]

/-! Staged writes. -/

theorem stage_spec (a : Nat) (v : Word) : rd (stage a v s) a = v ∧ a ∈ (stage a v s).dirty ∧ (stage a v s).force = s.force
    ∧ ∀ b, b ≠ a → rd (stage a v s) b = rd s b := by
  refine ⟨rd_wr_self .., ?_, rfl, fun b hb => rd_wr_ne _ _ hb⟩
  exact ite_elim (P := fun l : List Nat => a ∈ l) (fun h => List.contains_iff_mem.mp h)
    fun _ => List.mem_append_right _ (List.mem_singleton.mpr rfl)

theorem stageWrite_eq (a : Nat) (v : Word) :
    ∃ f, stageWrite a v s = f (stage a (clampState s a v) (clampSeen a v s)) ∧ (f = id ∨ ∃ g k, f = modGroup g k) := by
  unfold stageWrite
  extract_lets s1
  refine ite_elim (P := fun t : State => ∃ f : State → State, t = f s1 ∧ (f = id ∨ ∃ g k, f = modGroup g k)) (fun _ => ?_)
    fun _ => ⟨id, rfl, .inl rfl⟩
  split
  · exact ⟨modGroup _ _, rfl, .inr ⟨_, _, rfl⟩⟩
  · exact ⟨id, rfl, .inl rfl⟩

/-- A staged write: the word by the clamp rule, and nothing in force. -/
theorem stageWrite_spec (a : Nat) (v : Word) : let t := stageWrite a v s
    rd t a = clampState s a v ∧ a ∈ t.dirty ∧ t.force = s.force ∧ regsBut (fun b => b = a ∨ clampNote (blockOf a).1 b) s t := by
  obtain ⟨f, e, hf⟩ := stageWrite_eq s a v
  obtain ⟨h1, h2, h3, h4⟩ := stage_spec (clampSeen a v s) a (clampState s a v)
  have h5 : (stage a (clampState s a v) (clampSeen a v s)).force = s.force :=
    h3.trans (kept_clampSeen (kept_same .force rfl s) a v s rfl)
  have h6 : regsBut (fun b => b = a ∨ clampNote (blockOf a).1 b) s (stage a (clampState s a v) (clampSeen a v s)) := fun b hb hi =>
    (h4 b fun h => hb (.inl h)).trans ((clampSeen_spec s a v).1 b (fun h => hb (.inr h)) hi)
  generalize stage a (clampState s a v) (clampSeen a v s) = u at *
  dsimp only
  rw [e]
  rcases hf with rfl | ⟨g, k, rfl⟩
  · exact ⟨h1, h2, h5, h6⟩
  · exact ⟨h1, h2, h5, h6⟩

theorem blockOf_mod {a : Nat} (h : 0x100000 ≤ a) (h' : a < 0x180000) : blockOf a = (9, 0x100000) := by
  unfold blockOf
  iterate 12 rw [if_neg (by lia)]
  exact if_pos h'

theorem blockOf_ctrl {a : Nat} (h : 0x200000 ≤ a) (h' : a < 0x300000) : blockOf a = (14, 0x200000) := by
  unfold blockOf
  iterate 17 rw [if_neg (by lia)]
  exact if_pos h'

theorem range_of_ctrl {a : Nat} (h : (blockOf a).1 = 14) : 0x200000 ≤ a ∧ a < 0x300000 := by
  revert h
  unfold blockOf
  repeat' refine ite_elim (P := fun b : Nat × Nat => b.1 = 14 → 0x200000 ≤ a ∧ a < 0x300000) (fun _ => ?_) (fun _ => ?_)
  all_goals
    intro h
    simp at h
  lia

theorem hostWriteAt_mod {a : Nat} (v : Word) (h : 0x100000 ≤ a) (h' : a < 0x180000) (h1 : a ≠ aChgEn) (h2 : a ≠ aChgUpd) :
    hostWriteAt a v s = plainWrite a v s := by
  have hb := blockOf_mod h h'
  unfold hostWriteAt
  extract_lets b o
  have e1 : b.1 = 9 := congrArg Prod.fst hb
  have e2 : 0x100000 + o = a := (congrArg (fun p : Nat × Nat => 0x100000 + (a - p.2)) hb).trans (Nat.add_sub_cancel' h)
  clear_value b o
  rw [e1]
  change writeMod o v s = _
  rw [writeMod, if_neg fun hn => h1 (by rw [← e2, hn]; rfl), if_neg fun hn => h2 (by rw [← e2, hn]; rfl), e2]

/-- The access code of MU_STICKY. -/
theorem acc_muSticky {a : Nat} (hb : blockOf a = (14, 0x200000)) (ha : a = aMu ((a - 0x200000) / 0x10000) 0x0C) :
    (regInfo a).acc = .w1c := by
  unfold regInfo
  extract_lets b o
  have e1 : b.1 = 14 := congrArg Prod.fst hb
  have e2 : o % 0x10000 = 0x0C := by
    have : b.2 = 0x200000 := congrArg Prod.snd hb
    unfold aMu at ha
    lia
  clear_value b o
  rw [e1]
  change (infoCtrl (o % 0x10000)).acc = _
  rw [e2]
  rfl

/-- A write of CTRL but of MU_STICKY has no more than its plain effect. -/
theorem hostWriteAt_ctrl {a : Nat} (v : Word) (h : 0x200000 ≤ a) (h' : a < 0x300000) (ha : (regInfo a).acc ≠ .w1c) :
    hostWriteAt a v s = plainWrite a v s := by
  have hb := blockOf_ctrl h h'
  unfold hostWriteAt
  extract_lets b o
  have e1 : b.1 = 14 := congrArg Prod.fst hb
  clear_value b o
  rw [e1]
  exact if_neg fun hu => ha (acc_muSticky hb hu.1)

/-- A write of an RWS register of MOD or CTRL is a staged write. -/
theorem hostWriteAt_rws {a : Nat} (v : Word) (hr : 0x100000 ≤ a ∧ a < 0x180000 ∨ 0x200000 ≤ a ∧ a < 0x300000)
    (ha : (regInfo a).acc = .rws) (h1 : a ≠ aChgEn) (h2 : a ≠ aChgUpd) : hostWriteAt a v s = stageWrite a v s := by
  rw [← plainWrite_rws s v ha]
  rcases hr with ⟨h, h'⟩ | ⟨h, h'⟩
  · exact hostWriteAt_mod s v h h' h1 h2
  · exact hostWriteAt_ctrl s v h h' (by rw [ha]; decide)

/-- The registers of sticky bits, at which a host write clears. -/
noncomputable def stickies : List Nat := [aGlobalSticky, aDmkFlags, aOpqEvent, aOpqSticky, aTimeSticky, aModSticky, aGorseSticky,
  aConvSticky, aMeterSticky, aMonSticky, aThermSticky]

theorem hostWriteAt_w1c {a : Nat} (ha : a ∈ stickies) (v : Word) : hostWriteAt a v s = clearBits a v s := by
  have hw : ∀ b ∈ stickies, (regInfo b).acc = .w1c := by decide
  rw [← plainWrite_w1c s v (hw a ha)]
  fin_cases ha <;> rfl

/-- A reserved address, and a read-only register of CTRL, take no write. -/
theorem hostWriteAt_none {a : Nat} (v : Word) (h : (blockOf a).1 = 99 ∨ ((blockOf a).1 = 14 ∧ (regInfo a).acc = .ro)) :
    hostWriteAt a v s = s := by
  rcases h with h | ⟨h, ha⟩
  · unfold hostWriteAt
    extract_lets b o
    have e1 : b.1 = 99 := h
    clear_value b o
    rw [e1]
    rfl
  · obtain ⟨h1, h2⟩ := range_of_ctrl h
    exact (hostWriteAt_ctrl s v h1 h2 (by rw [ha]; decide)).trans (plainWrite_ro s v ha)

/-- A service write of SVC_SCRATCH k. -/
theorem svcWrite_scratch (k : Fin 4) (v : Word) : let t := svcWriteReg (aSvc (0x20 + 4 * k)) v s
    rd t (aSvc (0x20 + 4 * k)) = v ∧ t.host.svcSeq = s.host.svcSeq + 1 ∧ regsBut (fun a => a = aSvc (0x20 + 4 * k)) s t
    ∧ unchangedBut [.regs, .gorse, .host] s t := by
  have hk : svcWritable (aSvc (0x20 + 4 * k)) = true ∧ (regInfo (aSvc (0x20 + 4 * k))).acc = .rw
      ∧ (regInfo (aSvc (0x20 + 4 * k))).mask = 0xFFFFFFFF ∧ aSvc (0x20 + 4 * k) ≠ aSvc 0x04 ∧ aSvc (0x20 + 4 * k) ≠ aSvc 0x08
      ∧ aSvc (0x20 + 4 * k) ≠ aSvc 0x0C ∧ blockOf (aSvc (0x20 + 4 * k)) = (17, 0x400000) := by
    revert k
    decide
  obtain ⟨h1, h2, h3, h4, h5, h6, h7⟩ := hk
  generalize aSvc (0x20 + 4 * k) = a at *
  have hm : v &&& wd 0xFFFFFFFF = v := BitVec.and_allOnes
  have hc : clampState (svcAccess s) a v = v := by
    rw [clampState, clampReg, h7, h3]
    exact hm
  have hs : clampSeen a v (svcAccess s) = svcAccess s := if_pos (by rw [hc, h3, hm])
  have e : svcWriteReg a v s = svcDone (wr a v (svcAccess s)) := by
    rw [svcWriteReg, h1, if_pos rfl, svcWriteAt, if_neg h4, if_neg h5, if_neg h6, plainWrite_rw _ v h2, hc, hs]
  dsimp only
  rw [e]
  refine ⟨rd_wr_self .., congrArg (· + 1) (Protect.svcAccess_svcSeq s), fun b hb _ => (rd_wr_ne _ _ hb).trans (rd_svcAccess s b), ?_⟩
  have k0 := (kept_unchangedBut [.regs, .gorse, .host] s).toKeptDev.toKept
  exact kept_svcDone (k0.mono (by decide)) _ (kept_wr (k0.mono (by decide)) _ _ _
    (kept_svcAccess (k0.mono (by decide)) s (unchangedBut_refl _ s)))

end

/-- Settles O47, block by block. -/
theorem registerWrites : Obligations.RegisterWrites := by
  refine ⟨fun addr len be v s h1 h2 => ?_, fun addr v s => fun h4 hr ha h1 h2 => ?_, fun v s => ?_, fun v s a ha => ?_,
    fun addr v s => fun h4 hl hb => ?_, fun addr len be v s h => ?_, fun k len be v s => ?_⟩
  · have hb : ¬ (len = 4 ∧ addr.toNat % 4 = 0 ∧ be.toNat = 15) := fun h => by
      rcases h2 with h2 | h2 | h2
      · exact h2 h.1
      · exact h2 h.2.1
      · exact h2 (BitVec.eq_of_toNat_eq h.2.2)
    refine ⟨_, congrArg Host.Outcome.next ((if_neg (by lia)).trans (if_neg hb)), accessErr_spec s⟩
  · obtain ⟨g, x, e⟩ := hostAccess_eq s
    have h5 := hostWriteAt_rws (hostAccess s) v hr ha h1 h2
    refine ⟨_, congrArg Host.Outcome.next ((hostWrite_whole s v (by lia) h4).trans h5), ?_⟩
    rw [e]
    exact stageWrite_spec { s with gorse := g, host := x } addr.toNat v
  · obtain ⟨g, x, e⟩ := hostAccess_eq s
    have hw : hostWriteAt aChgEn v (hostAccess s) = modMod (fun m => { m with enStaged := fld v 0 16, enDirty := 0xFFFF }) (hostAccess s) := rfl
    refine ⟨_, congrArg Host.Outcome.next ((hostWrite_whole s v (by decide) (by decide)).trans hw), ?_, ?_⟩
    · rw [modMod_mod, hostAccess_mod]
    · exact kept_modMod ((kept_unchangedBut [.mod, .gorse, .host] s).toKeptDev.toKept.mono (by decide)) _ _ (fun _ => Nat.and_self _)
        (kept_hostAccess ((kept_unchangedBut [.mod, .gorse, .host] s).toKeptDev.toKept.mono (by decide)) s (unchangedBut_refl _ s))
  · have hr : a < 0x400000 ∧ a % 4 = 0 := by
      revert a
      decide
    have h24 : (BitVec.ofNat 24 a).toNat = a := by rw [BitVec.toNat_ofNat, Nat.mod_eq_of_lt (by lia)]
    have e : doRegisterWrite .host (BitVec.ofNat 24 a).toNat 4 (15 : BitVec 4).toNat v s = clearBits a v (hostAccess s) := by
      rw [h24]
      exact (hostWrite_whole s v hr.1 hr.2).trans (hostWriteAt_w1c (hostAccess s) ha v)
    have hev : eventSet (hostAccess s) a = eventSet s a := by
      rw [eventSet, eventNow, hostAccess_events, hostAccess_tick, eventSet, eventNow]
    refine ⟨_, congrArg Host.Outcome.next e, ?_, fun b hb => (rd_wr_ne _ _ hb).trans (rd_hostAccess s b), ?_⟩
    · rw [clearBits, clearWord, rd_wr_self, rd_hostAccess, hev]
    · exact kept_clearWord ((kept_unchangedBut [.regs, .gorse, .host] s).toKeptDev.toKept.mono (by decide)) _ _ _
        (kept_hostAccess ((kept_unchangedBut [.regs, .gorse, .host] s).toKeptDev.toKept.mono (by decide)) s (unchangedBut_refl _ s))
  · exact ⟨_, congrArg Host.Outcome.next ((hostWrite_whole s v hl h4).trans (hostWriteAt_none (hostAccess s) v hb)),
      Metering.unchangedBut_hostAccess s⟩
  · have e : svcWriteReg addr.toNat v s = svcAccess s := if_neg (by simp [h])
    exact congrArg Host.Outcome.next e
  · have h24 : (BitVec.ofNat 24 (aSvc (0x20 + 4 * k))).toNat = aSvc (0x20 + 4 * k) := by
      rw [BitVec.toNat_ofNat, Nat.mod_eq_of_lt (by have := k.isLt; unfold aSvc; lia)]
    exact ⟨_, congrArg Host.Outcome.next (congrArg (svcWriteReg · v s) h24), svcWrite_scratch s k v⟩

end Sys2Proof.Ports
end

section
-- One proof after another: the check compiles the whole text in one process, and memory is short.
set_option Elab.async false
/-! Chapter 12: transactions of the service port (R338 to R341, R404). -/

namespace Sys2Proof.Ports

open Sys2Proof Sys2Proof.Machine Sys2Proof.Laws Sys2Proof.Conversion Sys2Proof.Rules Sys2Proof.Control Sys2Proof.Bytes

theorem leNat_lt (l : List Byte) : leNat l < 256 ^ l.length := by
  induction l with
  | nil => exact Nat.one_pos
  | cons b l ih =>
    have hb := b.isLt
    rw [leNat, List.length_cons, Nat.pow_succ]
    omega

/-- ADDR of a transaction is a 24-bit address. -/
theorem toNat_svcAddr (out : List Byte) : (BitVec.ofNat 24 (svcAddr out)).toNat = svcAddr out := by
  have h : svcAddr out < 2 ^ 24 := by
    refine Nat.lt_of_lt_of_le (leNat_lt _) ((Nat.pow_le_pow_right (by decide) ?_).trans (by decide : 256 ^ 3 ≤ 2 ^ 24))
    rw [List.length_reverse]
    exact List.length_take_le ..
  rw [BitVec.toNat_ofNat, Nat.mod_eq_of_lt h]

section
variable (s : State)

theorem not_intReg_svc {o : Nat} (h : o < 0x30) : ¬ intReg (aSvc o) := by
  unfold intReg aSvc
  lia

theorem svcCrcErr_spec : let t := svcCrcErr s
    rd t (aSvc 0x14) = satInc (rd s (aSvc 0x14)) 1 ∧ bit (rd t (aSvc 0x10)) 1 = true ∧ t.host = s.host
    ∧ regsBut (fun a => a = aSvc 0x10 ∨ a = aSvc 0x14) s t ∧ unchangedBut [.regs, .events] s t := by
  have k0 := (kept_unchangedBut [.regs, .events] s).toKeptDev.toKept
  refine ⟨?_, bit_stick_none _ _ 1 (by decide), rfl, fun a ha _ => ?_, kept_orWord k0 _ _ _ (kept_cntSat k0 _ _ s (unchangedBut_refl _ s))⟩
  · exact (rd_stick_none_ne _ _ (by decide)).trans ((rd_cntSat ..).trans (if_pos rfl))
  · exact (rd_stick_none_ne _ _ fun h => ha (.inl h)).trans ((rd_cntSat ..).trans (if_neg fun h => ha (.inr h)))

/-- A transaction whose CRC fails: the count, the flag, and an answer. -/
theorem crcFailed_spec (l : List Byte) : let t := setSdo l (svcCrcErr s)
    rd t (aSvc 0x14) = satInc (rd s (aSvc 0x14)) 1 ∧ bit (rd t (aSvc 0x10)) 1 = true ∧ t.host = { s.host with sdo := l }
    ∧ regsBut (fun a => a = aSvc 0x10 ∨ a = aSvc 0x14) s t ∧ unchangedBut [.regs, .events, .host] s t := by
  obtain ⟨h1, h2, h3, h4, h5⟩ := svcCrcErr_spec s
  refine ⟨h1, h2, (congrArg (fun h : HostIf => { h with sdo := l }) h3 :), h4, ?_⟩
  exact kept_setSdo ((kept_unchangedBut [.regs, .events, .host] s).toKeptDev.toKept.mono (by decide)) l _
    fun p hp => h5 p fun hm => hp (by rcases List.mem_cons.mp hm with h | h <;> simp_all)

theorem svcAccess_svcStatus (k : Nat) : svcStatus (svcCrcErr s) k = k + 16 * (s.host.svcSeq % 16) := rfl

/-! Writes. -/

theorem spiWrite_bad {out : List Byte} (h0 : byteAt out 0 = 2) (hl : 10 ≤ out.length) (hc : svcWriteCrcGood out = false) :
    doSpiWrite out s = setSdo (sdoBytes out.length 9 [byt (2 + 16 * (s.host.svcSeq % 16))]) (svcCrcErr s) := by
  unfold doSpiWrite
  rw [hc, if_neg (by rintro (h | h); exacts [h h0, absurd hl (Nat.not_le.mpr h)]), if_pos (by rfl)]
  rfl

theorem spiWrite_good {out : List Byte} (h0 : byteAt out 0 = 2) (hl : 10 ≤ out.length) (hc : svcWriteCrcGood out = true) :
    let u := svcWriteReg (svcAddr out) (svcData out) s
    doSpiWrite out s = setSdo (sdoBytes out.length 9
      [byt ((if svcWritable (svcAddr out) then 1 else 8) + 16 * (u.host.svcSeq % 16))]) u := by
  unfold doSpiWrite
  rw [hc, if_neg (by rintro (h | h); exacts [h h0, absurd hl (Nat.not_le.mpr h)]), if_neg (by decide)]
  rfl

/-! Reads. -/

theorem spiRead_bad {out : List Byte} (h0 : byteAt out 0 = 3) (hl : 13 ≤ out.length) (hc : svcReadCrcGood out = false) :
    doSpiRead out s = setSdo (sdoBytes out.length 7 (svcReply 0 (2 + 16 * (s.host.svcSeq % 16)))) (svcCrcErr s) := by
  unfold doSpiRead
  rw [hc, if_neg (by rintro (h | h); exacts [h h0, absurd hl (Nat.not_le.mpr h)]), if_pos (by rfl)]
  rfl

theorem spiRead_good {out : List Byte} (h0 : byteAt out 0 = 3) (hl : 13 ≤ out.length) (hc : svcReadCrcGood out = true) :
    let u := svcReadAt (svcAddr out) s
    doSpiRead out s = setSdo (sdoBytes out.length 7 (if svcHolds (svcAddr out)
      then svcReply (readData .svc (svcAddr out) (svcAccess s)).toNat (1 + 16 * (u.host.svcSeq % 16))
      else svcReply 0 (4 + 16 * (u.host.svcSeq % 16)))) u := by
  unfold doSpiRead
  rw [hc, if_neg (by rintro (h | h); exacts [h h0, absurd hl (Nat.not_le.mpr h)]), if_neg (by decide)]
  dsimp only
  split <;> rfl

theorem badCommand_spec {cmd : Byte} (len : Nat) (h2 : cmd ≠ 2) (h3 : cmd ≠ 3) : let t := doSpiBadCommand cmd len s
    rd t (aSvc 0x18) = satInc (rd s (aSvc 0x18)) 1 ∧ t.host = { s.host with sdo := List.replicate len sdoHigh }
    ∧ regsBut (fun a => a = aSvc 0x18) s t ∧ unchangedBut [.regs, .events, .host] s t := by
  have e : doSpiBadCommand cmd len s = setSdo (List.replicate len sdoHigh) (cntSat (aSvc 0x18) 1 s) :=
    if_neg (by rintro (h | h); exacts [h2 h, h3 h])
  have k0 := (kept_unchangedBut [.regs, .events, .host] s).toKeptDev.toKept
  dsimp only
  rw [e]
  exact ⟨(rd_cntSat ..).trans (if_pos rfl), rfl, fun a ha _ => (rd_cntSat ..).trans (if_neg ha),
    kept_setSdo (k0.mono (by decide)) _ _ (kept_cntSat (k0.mono (by decide)) _ _ s (unchangedBut_refl _ s))⟩

/-- A transaction cut short performs nothing. -/
theorem spiAbort_eq {out : List Byte} (h : (byteAt out 0 = 2 ∧ out.length < 10) ∨ (byteAt out 0 = 3 ∧ out.length < 13)) :
    doSpiAbort out s = setSdo (if byteAt out 0 = 2 then List.replicate out.length sdoHigh
      else sdoBytes out.length 7 (svcPeek out s)) s := by
  unfold doSpiAbort
  rcases h with h | h
  · rw [if_pos h, if_pos h.1]
  · have hn : ¬ byteAt out 0 = 2 := by rw [h.1]; decide
    rw [if_neg fun h' => hn h'.1, if_pos h, if_neg hn]

end

/-- Settles O48, transaction by transaction. -/
theorem servicePort : Obligations.ServicePort := by
  refine ⟨fun out s h0 hl => ⟨fun hc => ⟨_, rfl, ?_⟩, fun hc => ⟨_, _, rfl, rfl, ?_⟩⟩,
    fun out s h0 hl => ⟨fun hc => ⟨_, rfl, ?_⟩, fun hc => ⟨_, _, rfl, rfl, ?_⟩⟩,
    fun cmd len s h2 h3 => ⟨_, rfl, badCommand_spec s len h2 h3⟩, fun out s h => ?_⟩
  · rw [spiWrite_bad s h0 hl hc]
    exact crcFailed_spec s _
  · rw [spiWrite_good s h0 hl hc, toNat_svcAddr]
    rfl
  · rw [spiRead_bad s h0 hl hc]
    exact crcFailed_spec s _
  · rw [spiRead_good s h0 hl hc, toNat_svcAddr]
    rfl
  · refine ⟨_, congrArg Host.Outcome.next (spiAbort_eq s h), rfl, ?_⟩
    exact kept_setSdo (kept_unchangedBut [.host] s).toKeptDev.toKept _ s (unchangedBut_refl _ s)

end Sys2Proof.Ports
end

section
-- One proof after another: the check compiles the whole text in one process, and memory is short.
set_option Elab.async false
/-! Chapter 11: Bracken's seconds, intervals, records and supply (R323, R325, R326, R329, R330). -/

namespace Sys2Proof.Metering

open Sys2Proof Sys2Proof.Machine Sys2Proof.Laws Sys2Proof.Conversion Sys2Proof.Rules

section
variable (b : Nat) (s : State)

/-! Flags and records. -/

theorem brStick_bracken : (brStick b s).bracken = { s.bracken with
    regs := tset regReset s.bracken.regs aBrSticky (tget regReset s.bracken.regs aBrSticky ||| wd (2 ^ b)) } :=
  holds_if (P := fun t => t.bracken = _) (fun _ => rfl) fun _ => kept_irq (kept_same .bracken rfl _) _ _ rfl

theorem regsBut_brStick : regsBut (fun _ => False) s (brStick b s) :=
  holds_if (P := fun t => regsBut (fun _ => False) s t) (fun _ _ _ _ => rfl) fun _ _ _ hi => rd_irq _ _ _ (by decide) hi

theorem bit_brStick (hb : b < 32) : bit (brReg (brStick b s) 4) b = true := by
  have e : brReg (brStick b s) 4 = tget regReset s.bracken.regs aBrSticky ||| wd (2 ^ b) := by
    rw [brReg, brStick_bracken]
    exact tget_tset_self ..
  rw [e, bit_or, bit_wd _ hb, Nat.testBit_two_pow_self, Bool.or_true]

theorem bit_brStick_kept (k : Nat) (h : bit (brReg s 4) k = true) : bit (brReg (brStick b s) 4) k = true := by
  have e : brReg (brStick b s) 4 = brReg s 4 ||| wd (2 ^ b) := by
    rw [brReg, brStick_bracken]
    exact tget_tset_self ..
  rw [e, bit_or, h, Bool.true_or]

/-- The flag of a record that overwrites one not read. -/
theorem brRecord_eq (ws : List Word) : ∃ u, (u = s ∨ u = brStick 3 s) ∧ brRecord ws s
    = modBr (fun c => { c with ring := tset (fun _ => {}) c.ring s.bracken.head { words := ws }
                               unread := c.unread ||| 2 ^ s.bracken.head, head := (s.bracken.head + 1) % 120 }) u :=
  ⟨if s.bracken.unread.testBit s.bracken.head then brStick 3 s else s,
    ite_elim (P := fun u => u = s ∨ u = brStick 3 s) (fun _ => .inr rfl) fun _ => .inl rfl, rfl⟩

end

/-- The second count and the charges stay, and no register outside Bracken changes. -/
def Books (s t : State) : Prop :=
  t.bracken.sec = s.bracken.sec ∧ t.bracken.ah = s.bracken.ah ∧ regsBut (fun _ => False) s t

section
variable {s t u : State}

theorem Books.trans (h : Books s t) (h' : Books t u) : Books s u :=
  ⟨h'.1.trans h.1, h'.2.1.trans h.2.1, regsBut_trans h.2.2 h'.2.2⟩

end

section
variable (s : State)

theorem books_modBr {f : Bracken → Bracken} (hs : (f s.bracken).sec = s.bracken.sec) (ha : (f s.bracken).ah = s.bracken.ah) :
    Books s (modBr f s) := ⟨hs, ha, regsBut_refl s _⟩

theorem books_refl : Books s s := ⟨rfl, rfl, regsBut_refl s _⟩

theorem books_brStick (b : Nat) : Books s (brStick b s) := by
  refine ⟨?_, ?_, regsBut_brStick b s⟩ <;> rw [brStick_bracken]

theorem books_brRecord (ws : List Word) : Books s (brRecord ws s) := by
  obtain ⟨u, hu, e⟩ := brRecord_eq s ws
  have h : Books s u := by
    rcases hu with rfl | rfl
    · exact books_refl _
    · exact books_brStick _ 3
  rw [e]
  exact h.trans (books_modBr u rfl rfl)

theorem books_brClose : Books s (brClose s) := by
  unfold brClose
  extract_lets c flags mah s1 s2
  have h1 : Books s s1 := books_brRecord s _
  have h2 : Books s1 s2 := ite_elim (P := fun t => Books s1 t) (fun _ => books_brStick s1 2) fun _ => books_refl s1
  exact (h1.trans h2).trans ((books_modBr s2 (f := fun b => { b with open_ := false }) rfl rfl).trans (books_modBr _ rfl rfl))

theorem brAdd_sec (rms : List Nat) : (brAdd rms s).bracken.sec = s.bracken.sec := by
  rw [brAdd, modBr_bracken]

theorem brAdd_regs (rms : List Nat) : (brAdd rms s).regs = s.regs := by
  rw [brAdd, modBr_regs]

theorem brAdd_interval (rms : List Nat) : (brAdd rms s).bracken.open_ = s.bracken.open_
    ∧ (brAdd rms s).bracken.ivStart = s.bracken.ivStart := by
  rw [brAdd, modBr_bracken]
  exact ⟨rfl, rfl⟩

theorem brAdd_ah (rms : List Nat) {n : Nat} (hn : n < 3) : tget dZero (brAdd rms s).bracken.ah n
    = (tget dZero s.bracken.ah n + (freeDiv 325 ((rms.getD n 0 : Nat) * 2 ^ 24 : Nat) 3600000).toNat) % 2 ^ 96 := by
  have hf (g : Nat → Nat → Nat) (t : Tbl Nat) :
      tget dZero ((List.range 3).foldl (fun t n => tmod dZero t n (g n)) t) n = g n (tget dZero t n) := by
    change tget dZero (tmod dZero (tmod dZero (tmod dZero t 0 (g 0)) 1 (g 1)) 2 (g 2)) n = _
    obtain rfl | rfl | rfl : n = 0 ∨ n = 1 ∨ n = 2 := by lia
    · rw [tget_tmod_ne _ _ _ (by decide), tget_tmod_ne _ _ _ (by decide), tget_tmod_self]
    · rw [tget_tmod_ne _ _ _ (by decide), tget_tmod_self, tget_tmod_ne _ _ _ (by decide)]
    · rw [tget_tmod_self, tget_tmod_ne _ _ _ (by decide), tget_tmod_ne _ _ _ (by decide)]
  exact hf (fun n x => (x + (freeDiv 325 ((rms.getD n 0 : Nat) * 2 ^ 24 : Nat) 3600000).toNat) % 2 ^ 96) _

end

/-! A crystal second. -/

/-- The interval that current opens. -/
noncomputable def intervalStart (flows : Bool) (s : State) : State :=
  if flows && !s.bracken.open_ then
    modBr (fun b => { b with open_ := true, ivStart := b.sec, ivQuiet := 0, ivAh := b.ah, ivEst := b.est
                             ivTamper := false, ivMainOff := false }) s
  else s

/-- The interval after a second: it ends after ten quiet ones, and its totals are kept each minute. -/
noncomputable def intervalStep (flows off : Bool) (s : State) : State :=
  if !s.bracken.open_ then s
  else
    let s3 := modBr (fun b => { b with
      ivQuiet := if flows then 0 else b.ivQuiet + 1
      ivTamper := b.ivTamper || (flows && !bypassClosed s)
      ivMainOff := b.ivMainOff || off }) s
    if 10 ≤ s3.bracken.ivQuiet then brClose s3
    else if (s3.bracken.sec - s3.bracken.ivStart) % 60 = 0 then brTotals s3 else s3

section
variable (flows : Bool) (s : State)

theorem books_intervalStart : Books s (intervalStart flows s) :=
  ite_elim (P := fun t => Books s t) (fun _ => books_modBr s rfl rfl) fun _ => books_refl s

theorem intervalStart_open (h : flows = true) : (intervalStart flows s).bracken.open_ = true
    ∧ (s.bracken.open_ = false → (intervalStart flows s).bracken.ivStart = s.bracken.sec) := by
  unfold intervalStart
  rw [h, Bool.true_and]
  cases ho : s.bracken.open_ with
  | true => exact ⟨ho, nofun⟩
  | false => exact ⟨rfl, fun _ => rfl⟩

theorem books_intervalStep (off : Bool) : Books s (intervalStep flows off s) := by
  unfold intervalStep
  refine ite_elim (P := fun t => Books s t) (fun _ => books_refl s) fun _ => ?_
  extract_lets s3
  have h3 : Books s s3 := books_modBr s rfl rfl
  exact h3.trans (ite_elim (P := fun t => Books s3 t) (fun _ => books_brClose s3) fun _ =>
    ite_elim (P := fun t => Books s3 t) (fun _ => books_modBr s3 rfl rfl) fun _ => books_refl s3)

theorem intervalStep_open (off : Bool) (h : flows = true) (ho : s.bracken.open_ = true) :
    (intervalStep flows off s).bracken.open_ = true ∧ (intervalStep flows off s).bracken.ivStart = s.bracken.ivStart := by
  unfold intervalStep
  rw [ho, if_neg (by decide)]
  extract_lets s3
  have hq : s3.bracken.ivQuiet = 0 := if_pos h
  rw [hq, if_neg (by decide)]
  exact ite_elim (P := fun t : State => t.bracken.open_ = true ∧ t.bracken.ivStart = s.bracken.ivStart)
    (fun _ => ⟨ho, rfl⟩) fun _ => ⟨ho, rfl⟩

end

section
variable (s : State) (c0 c1 c2 : List (BitVec 24))

theorem brRmsAll_length : (brRmsAll s c0 c1 c2).length = 3 :=
  ite_elim (P := fun l : List Nat => l.length = 3) (fun _ => rfl) fun _ => rfl

theorem doBrackenSecond_eq (h : s.bracken.running = true) : ∃ flows, flows
      = (brRmsAll s c0 c1 c2).any (fun r => decide ((brReg s 0x20).toNat * 256000 < r))
    ∧ doBrackenSecond c0 c1 c2 s = intervalStep flows s.power.mainOff (modBr (fun b => { b with sec := (b.sec + 1) % 2 ^ 32 })
        (brAdd (brRmsAll s c0 c1 c2) (intervalStart flows s))) := by
  refine ⟨_, rfl, ?_⟩
  unfold doBrackenSecond
  rw [h, if_neg (by decide)]
  rfl

/-- A crystal second counts and adds, and current opens an interval. -/
theorem brackenSecond_spec (h : s.bracken.running = true) : let t := doBrackenSecond c0 c1 c2 s
    let rms := fun (n : Nat) => (brRmsAll s c0 c1 c2).getD n 0
    (t.bracken.sec = (s.bracken.sec + 1) % 2 ^ 32
      ∧ (∀ n, n < 3 → tget dZero t.bracken.ah n
           = (tget dZero s.bracken.ah n + (freeDiv 325 (rms n * 2 ^ 24 : Nat) 3600000).toNat) % 2 ^ 96)
      ∧ ((∃ n, n < 3 ∧ (brReg s 0x20).toNat * 256000 < rms n) → t.bracken.open_ = true
           ∧ (s.bracken.open_ = false → t.bracken.ivStart = s.bracken.sec)))
    ∧ regsBut (fun _ => False) s t := by
  intro t rms
  obtain ⟨flows, hf, e⟩ := doBrackenSecond_eq s c0 c1 c2 h
  have h1 := books_intervalStart flows s
  have ho := intervalStart_open flows s
  generalize intervalStart flows s = s1 at e h1 ho
  obtain ⟨s2, e2⟩ : ∃ s2, s2 = modBr (fun b => { b with sec := (b.sec + 1) % 2 ^ 32 }) (brAdd (brRmsAll s c0 c1 c2) s1) := ⟨_, rfl⟩
  rw [← e2] at e
  have hs2 : s2.bracken.sec = (s1.bracken.sec + 1) % 2 ^ 32 := by
    rw [e2, ← brAdd_sec s1 (brRmsAll s c0 c1 c2), modBr_bracken]
  have ha2 : s2.bracken.ah = (brAdd (brRmsAll s c0 c1 c2) s1).bracken.ah := by
    rw [e2, modBr_bracken]
  have ho2 : s2.bracken.open_ = s1.bracken.open_ ∧ s2.bracken.ivStart = s1.bracken.ivStart := by
    rw [e2, modBr_bracken]
    exact brAdd_interval s1 (brRmsAll s c0 c1 c2)
  have hr2 : regsBut (fun _ => False) s1 s2 := by
    refine regsBut_of_regs s1 _ ?_
    rw [e2, modBr_regs, brAdd_regs]
  obtain ⟨hs3, ha3, hr3⟩ := books_intervalStep flows s2 s.power.mainOff
  have ht : t = intervalStep flows s.power.mainOff s2 := e
  clear_value t
  rw [ht]
  refine ⟨⟨by rw [hs3, hs2, h1.1], fun n hn => by rw [ha3, ha2, brAdd_ah s1 _ hn, h1.2.1], ?_⟩,
    regsBut_trans (regsBut_trans h1.2.2 hr2) hr3⟩
  rintro ⟨n, hn, hlt⟩
  have hl : n < (brRmsAll s c0 c1 c2).length := by rwa [brRmsAll_length]
  have hflows : flows = true := by
    have hr : rms n = (brRmsAll s c0 c1 c2)[n] := List.getD_eq_getElem _ _ hl
    rw [hr] at hlt
    rw [hf, List.any_eq_true]
    exact ⟨_, List.getElem_mem hl, decide_eq_true hlt⟩
  obtain ⟨o1, o2⟩ := ho hflows
  obtain ⟨p1, p2⟩ := intervalStep_open flows s2 s.power.mainOff hflows (ho2.1.trans o1)
  exact ⟨p1, fun hc => p2.trans (ho2.2.trans (o2 hc))⟩

/-! Records and the supply. -/

/-- A record takes the place at the head of the ring. -/
theorem brRecord_ring (ws : List Word) : let t := brRecord ws s
    t.bracken.head = (s.bracken.head + 1) % 120 ∧ (tget (fun _ => ({} : BrRec)) t.bracken.ring s.bracken.head).words = ws
    ∧ ∀ k, k ≠ s.bracken.head → tget (fun _ => ({} : BrRec)) t.bracken.ring k = tget (fun _ => {}) s.bracken.ring k := by
  obtain ⟨u, hu, e⟩ := brRecord_eq s ws
  have hr : u.bracken.ring = s.bracken.ring := by
    rcases hu with rfl | rfl
    · rfl
    · rw [brStick_bracken]
  dsimp only
  rw [e]
  refine ⟨rfl, congrArg BrRec.words (tget_tset_self ..), fun k hk => (tget_tset_ne _ _ _ hk).trans ?_⟩
  rw [hr]

theorem bit_brRecord (ws : List Word) (k : Nat) (h : bit (brReg s 4) k = true) : bit (brReg (brRecord ws s) 4) k = true := by
  obtain ⟨u, hu, e⟩ := brRecord_eq s ws
  rw [e]
  change bit (brReg u 4) k = true
  rcases hu with rfl | rfl
  · exact h
  · exact bit_brStick_kept 3 s k h

theorem alignmentRecord_spec (hs : s.time.servo = .locked ∨ s.time.servo = .holdover) (hr : s.bracken.running = true)
    (hd : alignDue s.bracken = true) : let t := doAlignmentRecord s
    t.bracken.aligned = true ∧ t.bracken.alignBr = s.bracken.sec ∧ t.bracken.alignS = s.time.sec
    ∧ t.bracken.head = (s.bracken.head + 1) % 120
    ∧ (tget (fun _ => ({} : BrRec)) t.bracken.ring s.bracken.head).words
        = [2, wd s.bracken.sec, wd s.time.sec, wd (s.time.sec / 2 ^ 32 % 65536), 0, 0, 0]
    ∧ (∀ k, k ≠ s.bracken.head → tget (fun _ => ({} : BrRec)) t.bracken.ring k = tget (fun _ => {}) s.bracken.ring k) := by
  obtain ⟨u, hu⟩ : ∃ u, u = brRecord [2, wd s.bracken.sec, wd s.time.sec, wd (s.time.sec / 2 ^ 32 % 65536), 0, 0, 0] s := ⟨_, rfl⟩
  obtain ⟨e, k⟩ : doAlignmentRecord s = irq 114 (modBr (fun b => { b with
      aligned := true, alignBr := b.sec, alignS := s.time.sec }) u) ∧ u.bracken.sec = s.bracken.sec := by
    rw [hu]
    exact ⟨if_pos ⟨hs, hr, hd⟩, (books_brRecord s _).1⟩
  have hb : (doAlignmentRecord s).bracken = (modBr (fun b => { b with
      aligned := true, alignBr := b.sec, alignS := s.time.sec }) u).bracken := by
    rw [e]
    exact kept_irq (kept_same .bracken rfl _) 114 _ rfl
  have hring := brRecord_ring s [2, wd s.bracken.sec, wd s.time.sec, wd (s.time.sec / 2 ^ 32 % 65536), 0, 0, 0]
  rw [← hu] at hring
  dsimp only
  rw [hb]
  exact ⟨rfl, k, rfl, hring⟩

/-- Bracken as its supply finds it again: the totals from MRAM where VBAT was lost, and the record of the stop. -/
theorem vbatRestart_eq (h : s.bracken.running = false) : ∃ s1 s2,
    (s1 = if s.bracken.vbatLost then brStick 0 (brRestore s) else s)
    ∧ (s2 = if s.bracken.vbatLost || s.bracken.oscFailed then
        brRecord [wd (3 + 65536 * (b2n s.bracken.vbatLost + 2 * b2n s.bracken.oscFailed)), wd s1.bracken.sec, 0, 0, 0, 0, 0] s1
      else s1)
    ∧ doVbatRestart s = modBr (fun b => { b with
        running := true, vbatOk := true, oscOk := true, vbatLost := false, oscFailed := false }) s2 := by
  refine ⟨_, _, rfl, rfl, ?_⟩
  unfold doVbatRestart
  rw [h, if_neg (by decide)]

theorem vbatRestart_spec (h : s.bracken.running = false) : let t := doVbatRestart s
    t.bracken.running = true ∧ t.bracken.vbatOk = true ∧ t.bracken.oscOk = true ∧ t.bracken.vbatLost = false
    ∧ t.bracken.oscFailed = false ∧ (s.bracken.vbatLost = true → bit (brReg t 4) 0 = true)
    ∧ t.bracken.head = (if s.bracken.vbatLost || s.bracken.oscFailed then (s.bracken.head + 1) % 120 else s.bracken.head) := by
  obtain ⟨s1, s2, h1, h2, e⟩ := vbatRestart_eq s h
  have hh : s1.bracken.head = s.bracken.head := by
    rw [h1]
    exact ite_elim (P := fun t : State => t.bracken.head = s.bracken.head) (fun _ => by rw [brStick_bracken]; rfl) fun _ => rfl
  dsimp only
  rw [e]
  refine ⟨rfl, rfl, rfl, rfl, rfl, fun hv => ?_, ?_⟩
  · change bit (brReg s2 4) 0 = true
    rw [h2, hv, Bool.true_or, if_pos rfl]
    refine bit_brRecord s1 _ 0 ?_
    rw [h1, if_pos hv]
    exact bit_brStick 0 _ (by decide)
  · change s2.bracken.head = _
    rw [h2]
    split
    · rw [(brRecord_ring s1 _).1, hh]
    · exact hh

theorem crystalStop_spec (h : s.bracken.running = true) : let t := doBrackenCrystalStop s
    t.bracken.running = false ∧ t.bracken.oscOk = false ∧ t.bracken.oscFailed = true ∧ bit (brReg t 4) 1 = true
    ∧ t.bracken.sec = s.bracken.sec ∧ t.bracken.ah = s.bracken.ah := by
  have e : doBrackenCrystalStop s
      = brStick 1 (modBr (fun b => { b with running := false, oscOk := false, oscFailed := true }) s) := if_pos h
  dsimp only
  rw [e]
  refine ⟨?_, ?_, ?_, bit_brStick 1 _ (by decide), ?_, ?_⟩ <;> rw [brStick_bracken] <;> rfl

end

/-- Settles O57, event by event. -/
theorem bypassMeter : Obligations.BypassMeter := by
  refine ⟨fun c0 c1 c2 s h => congrArg Host.Outcome.next (if_pos (by rw [h]; rfl)),
    fun c0 c1 c2 s h => ⟨_, rfl, brackenSecond_spec s c0 c1 c2 h⟩, fun s hs hr hd => ⟨_, rfl, alignmentRecord_spec s hs hr hd⟩,
    fun s h => ⟨_, rfl, vbatRestart_spec s h⟩, fun s h => ⟨_, congrArg Host.Outcome.next (if_pos h), rfl, ?_⟩,
    fun s h => ⟨_, rfl, crystalStop_spec s h⟩⟩
  exact kept_modBr ((kept_unchangedBut [.bracken] s).toKeptDev.toKept.mono (by decide)) _ s (unchangedBut_refl _ s)

end Sys2Proof.Metering
end

section
-- One proof after another: the check compiles the whole text in one process, and memory is short.
set_option Elab.async false
/-! Chapter 11: METER's line cycles, pulses and records (R305 to R321). -/

namespace Sys2Proof.Metering

open Sys2Proof Sys2Proof.Machine Sys2Proof.Laws Sys2Proof.Conversion Sys2Proof.Rules Sys2Proof.Control Sys2Proof.Times

/-! Accumulators. -/

/-- A quantity's accumulator with its wraps. -/
noncomputable def total (m : Meter) (k : Nat) : Nat := tget dZero m.acc k + 2 ^ 96 * tget dZero m.wrap k

/-- An accumulator of A steps carries into one of B, and the two count modulo A B. -/
theorem carry_mod {A B : Nat} (v w : Nat) : (v % A + A * ((w + v / A) % B)) % (A * B) = (v + A * w) % (A * B) := by
  rcases Nat.eq_zero_or_pos A with rfl | hA
  · simp
  · have h : (v + A * w) % (A * B) = v % A + A * ((w + v / A) % B) := by
      rw [Nat.mod_mul, Nat.add_mul_mod_self_left, Nat.add_mul_div_left _ _ hA, Nat.add_comm (v / A)]
    rw [← h, Nat.mod_mod]

theorem pow128 : 2 ^ 128 = 2 ^ 96 * 2 ^ 32 := by norm_num

theorem nowrap_mod {v w : Nat} (h : v < 2 ^ 96) : (v % 2 ^ 96 + 2 ^ 96 * w) % 2 ^ 128 = (v + 2 ^ 96 * w) % 2 ^ 128 := by
  rw [Nat.mod_eq_of_lt h]

theorem bookOne_books (q inc : Nat) (s : State) : let v := tget dZero s.meter.acc q + inc
    (bookOne q inc s).meter.acc = tset dZero s.meter.acc q (v % 2 ^ 96)
    ∧ (bookOne q inc s).meter.wrap
      = if v < 2 ^ 96 then s.meter.wrap else tmod dZero s.meter.wrap q (fun w => (w + v / 2 ^ 96) % 2 ^ 32) := by
  rw [bookOne, modMeter_meter]
  exact ⟨rfl, rfl⟩

/-- An increment goes into its quantity alone. -/
theorem total_bookOne (q inc k : Nat) (s : State) : total (bookOne q inc s).meter k % 2 ^ 128
    = (total s.meter k + if q = k then inc else 0) % 2 ^ 128 := by
  obtain ⟨ha, hw⟩ := bookOne_books q inc s
  unfold total
  rw [ha, hw]
  by_cases e : q = k
  · subst e
    rw [tget_tset_self, if_pos rfl, Nat.add_right_comm]
    generalize tget dZero s.meter.acc q + inc = v
    by_cases h : v < 2 ^ 96
    · rw [if_pos h, nowrap_mod h]
    · rw [if_neg h, tget_tmod_self, pow128]
      exact carry_mod v _
  · have hk : k ≠ q := Ne.symm e
    rw [tget_tset_ne _ _ _ hk, if_neg e, Nat.add_zero]
    refine congrArg (fun w => (tget dZero s.meter.acc k + 2 ^ 96 * w) % 2 ^ 128) ?_
    exact ite_elim (P := fun w => tget dZero w k = tget dZero s.meter.wrap k) (fun _ => rfl) fun _ => tget_tmod_ne _ _ _ hk

theorem total_foldl (l : List (Nat × Nat)) (k : Nat) (s : State) :
    total (l.foldl (fun s p => bookOne p.1 p.2 s) s).meter k % 2 ^ 128
      = (total s.meter k + ((l.filter (fun p => p.1 == k)).map (·.2)).sum) % 2 ^ 128 := by
  induction l generalizing s with
  | nil => rfl
  | cons p l ih =>
    rw [List.foldl_cons, ih, Nat.add_mod, total_bookOne, ← Nat.add_mod, List.filter_cons]
    by_cases h : p.1 = k
    · rw [if_pos h, if_pos (beq_iff_eq.mpr h), List.map_cons, List.sum_cons, Nat.add_assoc]
    · rw [if_neg h, if_neg (fun h' => h (beq_iff_eq.mp h')), Nat.add_zero]

/-- What the increments and pulses of a line cycle leave: the latched values, the count of cycles, and all but METER's flags. -/
def Cycling (s t : State) : Prop :=
  (t.meter.cycles, t.meter.energy, t.meter.latchSeq, t.meter.pfwLow)
      = (s.meter.cycles, s.meter.energy, s.meter.latchSeq, s.meter.pfwLow)
    ∧ regsBut (fun a => a = aMeterSticky) s t ∧ SameTime s t

section
variable {s t u : State}

theorem sameTime_trans (h : SameTime s t) (h' : SameTime t u) : SameTime s u := by
  obtain ⟨x, hx⟩ := h
  obtain ⟨y, hy⟩ := h'
  exact ⟨y, hy.trans (congrArg (fun z : TimeEng => { z with stampHeld := y }) hx :)⟩

theorem Cycling.trans (h : Cycling s t) (h' : Cycling t u) : Cycling s u :=
  ⟨h'.1.trans h.1, regsBut_trans h.2.1 h'.2.1, sameTime_trans h.2.2 h'.2.2⟩

end

section
variable (s : State)

theorem cycling_modMeter {f : Meter → Meter} (h : ((f s.meter).cycles, (f s.meter).energy, (f s.meter).latchSeq, (f s.meter).pfwLow)
    = (s.meter.cycles, s.meter.energy, s.meter.latchSeq, s.meter.pfwLow)) : Cycling s (modMeter f s) :=
  ⟨h, regsBut_refl s _, sameTime_refl s⟩

theorem meterStick_meter (b : Nat) : (meterStick b s).meter = s.meter := kept_meterStick (kept_same .meter rfl s) b s rfl

theorem meterStick_src : ∀ n, some 113 = some n → n < 128 := by rintro _ ⟨rfl⟩; decide

theorem cycling_meterStick (b : Nat) : Cycling s (meterStick b s) :=
  ⟨by rw [meterStick_meter], regsBut_stick s _ _ _ meterStick_src, sameTime_stick s _ _ _⟩

theorem cycling_bookOne (q inc : Nat) : Cycling s (bookOne q inc s) := by
  rw [bookOne]
  exact cycling_modMeter s rfl

theorem cycling_foldl (l : List (Nat × Nat)) : Cycling s (l.foldl (fun s p => bookOne p.1 p.2 s) s) := by
  induction l generalizing s with
  | nil => exact ⟨rfl, regsBut_refl s _, sameTime_refl s⟩
  | cons p l ih => exact (cycling_bookOne s p.1 p.2).trans (ih _)

/-- A pulse output's step leaves the accumulators. -/
theorem pulseStep_spec (k : Nat) : Cycling s (pulseStep k s)
    ∧ (pulseStep k s).meter.acc = s.meter.acc ∧ (pulseStep k s).meter.wrap = s.meter.wrap := by
  unfold pulseStep
  extract_lets cfg unit m acc n due width free start rest s1
  have h1 : Cycling s s1 ∧ s1.meter.acc = s.meter.acc ∧ s1.meter.wrap = s.meter.wrap := by
    refine ⟨cycling_modMeter s rfl, ?_, ?_⟩ <;> rw [modMeter_meter]
  clear_value s1
  refine ite_elim (P := fun t : State => Cycling s t ∧ t.meter.acc = s.meter.acc ∧ t.meter.wrap = s.meter.wrap)
    (fun _ => ?_) fun _ => h1
  exact ⟨h1.1.trans (cycling_meterStick s1 3), by rw [meterStick_meter, h1.2.1], by rw [meterStick_meter, h1.2.2]⟩

theorem pulses_spec (l : List Nat) : Cycling s (forEach l pulseStep s)
    ∧ (forEach l pulseStep s).meter.acc = s.meter.acc ∧ (forEach l pulseStep s).meter.wrap = s.meter.wrap := by
  unfold forEach
  induction l generalizing s with
  | nil => exact ⟨⟨rfl, regsBut_refl s _, sameTime_refl s⟩, rfl, rfl⟩
  | cons k l ih =>
    obtain ⟨h, ha, hw⟩ := pulseStep_spec s k
    obtain ⟨h', ha', hw'⟩ := ih (pulseStep k s)
    exact ⟨h.trans h', ha'.trans ha, hw'.trans hw⟩

/-- A latch takes the accumulators together, at the counter's time. -/
theorem meterLatch_spec : let t := meterLatch s
    t.meter.acc = s.meter.acc ∧ t.meter.wrap = s.meter.wrap
    ∧ (t.meter.cycles = 0 ∧ t.meter.energy = t.meter.acc ∧ t.meter.energyWrap = t.meter.wrap
      ∧ t.meter.latchSeq = (s.meter.latchSeq + 1) % 2 ^ 32 ∧ t.meter.latchSec = s.time.sec
      ∧ t.meter.latchNs = s.time.ns ∧ t.meter.periodicDue = !s.meter.pfwLow)
    ∧ regsBut (fun a => a = aMeterSticky) s t := by
  obtain ⟨f, hf, e⟩ : ∃ f, meterLatch s = irq 112 (modMeter f s) ∧ f s.meter = { s.meter with
      energy := s.meter.acc, energyWrap := s.meter.wrap, latchSeq := (s.meter.latchSeq + 1) % 2 ^ 32
      latchSec := s.time.sec, latchNs := s.time.ns, latchQual := s.meter.runQual + 32 * b2n (untrusted s)
      runQual := 0, cycles := 0, periodicDue := !s.meter.pfwLow } := ⟨_, rfl, rfl⟩
  have hm : (meterLatch s).meter = f s.meter := hf ▸ kept_irq (kept_same .meter rfl (modMeter f s)) 112 _ rfl
  refine ⟨?_, ?_, ?_, fun a _ hi => hf ▸ rd_irq (modMeter f s) 112 a (by decide) hi⟩
  all_goals rw [hm, e]
  exact ⟨rfl, rfl, rfl, rfl, rfl, rfl, rfl⟩

theorem lineCycle_force (l : List (Nat × Nat)) :
    (forEach (List.range 8) pulseStep (l.foldl (fun s p => bookOne p.1 p.2 s) s)).force = s.force := by
  have hb : Holds (samePart .force s) (l.foldl (fun s p => bookOne p.1 p.2 s) s) :=
    holds_foldl _ (fun t (p : Nat × Nat) => kept_bookOne (kept_same .force rfl s) p.1 p.2 t) _ s rfl
  exact holds_forEach _ (fun i t => kept_pulseStep (kept_same .force rfl s) i t) _ _ hb

/-- A line cycle before the latch. -/
theorem lineCycle_before (xs : List MeterSample) (dur mhz : Nat) (hl : tileLive s 19 = true) (hm : s.meter.metering = true) :
    ∃ u, doLineCycleEnd xs dur mhz s = (if fld (fo u aMeterCfg) 0 16 ≤ u.meter.cycles then meterLatch u else u)
    ∧ fo u aMeterCfg = fo s aMeterCfg ∧ u.meter.cycles = s.meter.cycles + 1
    ∧ u.meter.energy = s.meter.energy ∧ u.meter.latchSeq = s.meter.latchSeq ∧ u.meter.pfwLow = s.meter.pfwLow
    ∧ (∀ k, total u.meter k % 2 ^ 128
        = (total s.meter k + (((cycleIncs s xs dur mhz).filter (fun p => p.1 == k)).map (·.2)).sum) % 2 ^ 128)
    ∧ regsBut (fun a => a = aMeterSticky) s u ∧ SameTime s u := by
  obtain ⟨s1, hs1⟩ : ∃ s1, s1 = (cycleIncs s xs dur mhz).foldl (fun s p => bookOne p.1 p.2 s) s := ⟨_, rfl⟩
  obtain ⟨s2, hs2⟩ : ∃ s2, s2 = forEach (List.range 8) pulseStep s1 := ⟨_, rfl⟩
  have h1 : Cycling s s1 := hs1 ▸ cycling_foldl s _
  have h2 := pulses_spec s1 (List.range 8)
  rw [← hs2] at h2
  obtain ⟨h2, ha2, hw2⟩ := h2
  have hc : Cycling s s2 := h1.trans h2
  have hfo : fo s2 aMeterCfg = fo s aMeterCfg := by
    rw [hs2, hs1]
    exact fo_of_force (lineCycle_force s _) _
  have htot : ∀ k, total s2.meter k % 2 ^ 128
      = (total s.meter k + (((cycleIncs s xs dur mhz).filter (fun p => p.1 == k)).map (·.2)).sum) % 2 ^ 128 := fun k => by
    rw [total, ha2, hw2, ← total, hs1]
    exact total_foldl _ k s
  obtain ⟨f, e, hf⟩ : ∃ f : Meter → Meter, doLineCycleEnd xs dur mhz s
        = (if fld (fo (modMeter f s2) aMeterCfg) 0 16 ≤ (modMeter f s2).meter.cycles then meterLatch (modMeter f s2) else modMeter f s2)
      ∧ ∀ x, (f x).cycles = x.cycles + 1 ∧ (f x).energy = x.energy ∧ (f x).latchSeq = x.latchSeq ∧ (f x).pfwLow = x.pfwLow
        ∧ (f x).acc = x.acc ∧ (f x).wrap = x.wrap := by
    unfold doLineCycleEnd
    rw [hl, if_neg (by decide), if_pos hm, ← hs1]
    dsimp only
    rw [← hs2]
    exact ⟨_, rfl, fun x => ⟨rfl, rfl, rfl, rfl, rfl, rfl⟩⟩
  obtain ⟨hcy, hr, hti⟩ := hc
  obtain ⟨e1, e2, e3, e4, e5, e6⟩ := hf s2.meter
  simp only [Prod.mk.injEq] at hcy
  obtain ⟨c1, c2, c3, c4⟩ := hcy
  exact ⟨modMeter f s2, e, hfo, e1.trans (c1 ▸ rfl), e2.trans c2, e3.trans c3, e4.trans c4,
    fun k => by rw [modMeter_meter, total, e5, e6]; exact htot k, hr, hti⟩

/-- A line cycle of a METER that meters. -/
theorem lineCycleEnd_spec (xs : List MeterSample) (dur mhz : Nat) (hl : tileLive s 19 = true) (hm : s.meter.metering = true) :
    let t := doLineCycleEnd xs dur mhz s
    let due := fld (fo s aMeterCfg) 0 16 ≤ s.meter.cycles + 1
    (∀ k, total t.meter k % 2 ^ 128
        = (total s.meter k + (((cycleIncs s xs dur mhz).filter (fun p => p.1 == k)).map (·.2)).sum) % 2 ^ 128)
    ∧ (¬due → t.meter.cycles = s.meter.cycles + 1 ∧ t.meter.energy = s.meter.energy ∧ t.meter.latchSeq = s.meter.latchSeq)
    ∧ (due → t.meter.cycles = 0 ∧ t.meter.energy = t.meter.acc ∧ t.meter.energyWrap = t.meter.wrap
        ∧ t.meter.latchSeq = (s.meter.latchSeq + 1) % 2 ^ 32 ∧ t.meter.latchSec = s.time.sec
        ∧ t.meter.latchNs = s.time.ns ∧ t.meter.periodicDue = !s.meter.pfwLow)
    ∧ regsBut (fun a => a = aMeterSticky) s t := by
  intro t due
  obtain ⟨u, e, hfo, hcyc, hen, hseq, hlow, htot, hr, hT, hti⟩ := lineCycle_before s xs dur mhz hl hm
  have ht : t = if due then meterLatch u else u := by
    rw [hfo, hcyc] at e
    exact e
  clear_value t
  by_cases hd : due
  · rw [if_pos hd] at ht
    obtain ⟨ha, hw, ⟨h1, h2, h3, h4, h5, h6, h7⟩, hr'⟩ := meterLatch_spec u
    subst ht
    exact ⟨fun k => (congrArg₂ (fun x y => (tget dZero x k + 2 ^ 96 * tget dZero y k) % 2 ^ 128) ha hw).trans (htot k),
      fun h => absurd hd h, fun _ => ⟨h1, h2, h3, h4.trans (congrArg (fun x => (x + 1) % 2 ^ 32) hseq),
        h5.trans (congrArg TimeEng.sec hti :), h6.trans (congrArg TimeEng.ns hti :), h7.trans (congrArg (! ·) hlow)⟩,
      regsBut_trans hr hr'⟩
  · rw [if_neg hd] at ht
    subst ht
    exact ⟨htot, fun _ => ⟨hcyc, hen, hseq⟩, fun h => absurd h hd, hr⟩

end

/-! Records. -/

/-- A record that the CRC seals stands in its place. -/
def RecordKept (m : Meter) (kind seq : Nat) (acc : Tbl Nat) : Prop :=
  m.recSeq = seq ∧ (let r := tget (fun _ => ({} : MeterRec)) m.recs (seq % 32)
    r.kind = kind ∧ r.seq = seq ∧ recValid r = true ∧ r.acc = acc)

section
variable (s : State)

theorem recValid_sealed (r : MeterRec) : recValid { r with crc := some (crc32 (recBody r)) } = true := beq_self_eq_true _

theorem recordKept_meterRecord (kind : Nat) : RecordKept (meterRecord kind s).meter kind (s.meter.recSeq + 1)
    (if kind = 1 then s.meter.energy else s.meter.acc) := by
  unfold meterRecord
  extract_lets m q per flags stamp r
  rw [modMeter_meter]
  refine ⟨rfl, ?_⟩
  rw [show tget _ _ _ = _ from tget_tset_self ..]
  refine ⟨rfl, rfl, recValid_sealed r, ?_⟩
  change (if decide (kind = 1) = true then _ else _) = _
  simp only [decide_eq_true_eq]
  rfl

/-- Another place keeps its record. -/
theorem recs_meterRecord_ne (kind : Nat) {k : Nat} (h : k ≠ (s.meter.recSeq + 1) % 32) :
    tget (fun _ => ({} : MeterRec)) (meterRecord kind s).meter.recs k = tget (fun _ => {}) s.meter.recs k := by
  unfold meterRecord
  rw [modMeter_meter]
  exact tget_tset_ne _ _ _ h

theorem next_place_ne (n : Nat) : (n + 1) % 32 ≠ (n + 1 + 1) % 32 := by omega

/-- A FINAL record: the running values, with the record under way abandoned. -/
theorem meterFinal_spec (hl : tileLive s 19 = true) : let t := meterFinal s
    (s.meter.periodicDue = false → RecordKept t.meter 2 (s.meter.recSeq + 1) s.meter.acc)
    ∧ (s.meter.periodicDue = true →
        recValid (tget (fun _ => ({} : MeterRec)) t.meter.recs ((s.meter.recSeq + 1) % 32)) = false
        ∧ RecordKept t.meter 2 (s.meter.recSeq + 2) s.meter.acc) := by
  have e : meterFinal s = meterRecord 2 (abandonRecord s) := if_pos hl
  dsimp only
  rw [e]
  refine ⟨fun h => ?_, fun h => ?_⟩
  · have ha : abandonRecord s = s := if_neg (by rw [h]; decide)
    rw [ha]
    exact recordKept_meterRecord s 2
  · have ha : abandonRecord s = modMeter (fun m => { m with
        periodicDue := false, recSeq := m.recSeq + 1
        recs := tset (fun _ => {}) m.recs ((m.recSeq + 1) % 32) { kind := 1, seq := m.recSeq + 1 } }) s := if_pos h
    rw [ha]
    refine ⟨?_, recordKept_meterRecord _ 2⟩
    rw [recs_meterRecord_ne _ 2 (next_place_ne _), modMeter_meter, show tget _ _ _ = _ from tget_tset_self ..]
    rfl

theorem wake_meter (cause wc : Nat) : (wake cause wc s).meter = s.meter := kept_wake (kept_same .meter rfl s) cause wc s rfl

theorem meterFinal_low (h : s.meter.pfwLow = true) : (meterFinal s).meter.pfwLow = true := by
  refine ite_elim (P := fun t : State => t.meter.pfwLow = true) (fun _ => ?_) fun _ => h
  rw [meterRecord, modMeter_meter]
  exact ite_elim (P := fun t : State => t.meter.pfwLow = true) (fun _ => h) fun _ => h

theorem pfwNFall_spec (hl : tileLive s 19 = true) : let t := doPfwNFall s
    t.meter.pfwLow = true
    ∧ (s.meter.periodicDue = false → RecordKept t.meter 2 (s.meter.recSeq + 1) s.meter.acc)
    ∧ (s.meter.periodicDue = true →
        recValid (tget (fun _ => ({} : MeterRec)) t.meter.recs ((s.meter.recSeq + 1) % 32)) = false
        ∧ RecordKept t.meter 2 (s.meter.recSeq + 2) s.meter.acc) := by
  obtain ⟨u, hu, e⟩ : ∃ u, u = modMeter (fun m => { m with pfwLow := true }) s ∧ doPfwNFall s = wake 4 0 (meterFinal u) := ⟨_, rfl, rfl⟩
  have hm : u.meter = { s.meter with pfwLow := true } := by rw [hu, modMeter_meter]
  have hf := meterFinal_spec u (by rw [hu]; exact hl)
  rw [hm] at hf
  dsimp only
  rw [e, wake_meter]
  exact ⟨meterFinal_low u (by rw [hm]), hf⟩

/-- A pulse that ends takes its own bit alone. -/
theorem pulseEnd_spec (k : Nat) : let t := doPulseEnd k s
    (s.meter.pulse < 256 → ∀ j, t.meter.pulse.testBit j = (s.meter.pulse.testBit j && decide (j ≠ k)))
    ∧ t.meter.acc = s.meter.acc := by
  refine ite_elim (P := fun t : State =>
    (s.meter.pulse < 256 → ∀ j, t.meter.pulse.testBit j = (s.meter.pulse.testBit j && decide (j ≠ k))) ∧ t.meter.acc = s.meter.acc)
    (fun h => ⟨fun hp j => ?_, rfl⟩) fun h => ⟨fun _ j => ?_, rfl⟩
  · rw [modMeter_meter]
    change (s.meter.pulse &&& (0xFF ^^^ 2 ^ k)).testBit j = _
    have h255 : (255 : Nat).testBit j = decide (j < 8) := Nat.testBit_two_pow_sub_one 8 j
    rw [Nat.testBit_and, Nat.testBit_xor, h255, Nat.testBit_two_pow]
    by_cases hj : j < 8
    · rw [decide_eq_true hj, Bool.true_xor, decide_not, decide_eq_decide.mpr (eq_comm (a := k))]
    · have h0 : s.meter.pulse.testBit j = false :=
        Nat.testBit_lt_two_pow (hp.trans_le (Nat.pow_le_pow_right (by decide) (Nat.le_of_not_lt hj) : 2 ^ 8 ≤ _))
      rw [h0, Bool.false_and, Bool.false_and]
  · by_cases hj : j = k
    · rw [hj, Bool.eq_false_iff.mpr h, Bool.false_and]
    · rw [decide_eq_true hj, Bool.and_true]

/-- ENERGY_CLEAR writes its record of what it leaves. -/
theorem energyClear_taken (hd : s.dev ≠ .run) (ht : (tile s 19).st = .activeOnly) : let t := doEnergyClear (wd 0x434C) (hostAccess s)
    t.meter.acc = [] ∧ t.meter.wrap = [] ∧ t.meter.clearCnt = (s.meter.clearCnt + 1) % 2 ^ 32
    ∧ RecordKept t.meter 3 (s.meter.recSeq + 1) [] ∧ t.meter.energy = s.meter.energy
    ∧ unchangedBut [.gorse, .meter, .host] s t := by
  have hn : ¬ ((hostAccess s).dev = .run ∨ (tile (hostAccess s) 19).st ≠ .activeOnly) := by
    rw [hostAccess_dev, tile, hostAccess_damask]
    exact fun h => h.elim hd fun h => h ht
  obtain ⟨f, e, hf⟩ : ∃ f, doEnergyClear (wd 0x434C) (hostAccess s) = meterRecord 3 (modMeter f (hostAccess s))
      ∧ f s.meter = { s.meter with acc := [], wrap := [], clearCnt := (s.meter.clearCnt + 1) % 2 ^ 32 } :=
    ⟨_, (if_neg fun h => h rfl).trans (if_neg hn), rfl⟩
  have hu : (modMeter f (hostAccess s)).meter = { s.meter with acc := [], wrap := [], clearCnt := (s.meter.clearCnt + 1) % 2 ^ 32 } := by
    rw [modMeter_meter, hostAccess_meter, hf]
  have k0 := (kept_unchangedBut [.gorse, .meter, .host] s).toKeptDev.toKept
  have hk := recordKept_meterRecord (modMeter f (hostAccess s)) 3
  rw [hu] at hk
  dsimp only
  rw [e]
  refine ⟨?_, ?_, ?_, hk, ?_, kept_meterRecord (k0.mono (by decide)) 3 _ (kept_modMeter (k0.mono (by decide)) f _
    (kept_hostAccess (k0.mono (by decide)) s (unchangedBut_refl _ s)))⟩
  all_goals rw [meterRecord, modMeter_meter, hu]

theorem energyClear_refused (h : s.dev = .run ∨ (tile s 19).st ≠ .activeOnly) : let t := doEnergyClear (wd 0x434C) (hostAccess s)
    t.meter = s.meter ∧ bit (rd t aMeterSticky) 2 = true ∧ regsBut (fun a => a = aMeterSticky) s t := by
  have e : doEnergyClear (wd 0x434C) (hostAccess s) = meterStick 2 (hostAccess s) :=
    (if_neg fun h => h rfl).trans (if_pos (by rwa [hostAccess_dev, tile, hostAccess_damask]))
  dsimp only
  rw [e, meterStick_meter]
  exact ⟨hostAccess_meter s, bit_stick _ 2 _ meterStick_src (not_intReg_of_between (by decide) (by decide)) (by decide),
    fun a ha hi => (rd_stick_ne _ _ _ meterStick_src hi ha).trans (rd_hostAccess s a)⟩

end

/-- Settles O55, command by command. -/
theorem energyMetering : Obligations.EnergyMetering := by
  have k0 (s : State) : Kept [.meter] (fun t => unchangedBut [.meter] s t) :=
    (kept_unchangedBut [.meter] s).toKeptDev.toKept.mono (by decide)
  refine ⟨fun xs dur mhz s hl hm => ⟨_, rfl, lineCycleEnd_spec s xs dur mhz hl hm⟩, fun xs dur mhz s hl hm hs => ?_,
    fun k s => ⟨_, rfl, ?_⟩, fun p s => ⟨_, rfl, rfl, kept_modMeter (k0 s) _ s (unchangedBut_refl _ s)⟩,
    fun s => ⟨_, rfl, rfl, kept_modMeter (k0 s) _ s (unchangedBut_refl _ s)⟩,
    ⟨fun s h => ⟨_, congrArg Host.Outcome.next (if_pos h), recordKept_meterRecord s 1, rfl,
        kept_modMeter (k0 s) _ _ (kept_meterRecord (k0 s) 1 s (unchangedBut_refl _ s))⟩,
      ⟨fun s hl => ⟨_, rfl, ?_⟩, fun s hl hp => ⟨_, congrArg Host.Outcome.next (if_pos hp), ?_⟩⟩, fun s hd ht => ⟨_, rfl, ?_⟩⟩,
    fun s h => ⟨_, rfl, ?_⟩, fun v s h => ⟨_, congrArg Host.Outcome.next (if_pos h), unchangedBut_hostAccess s⟩⟩
  · refine ⟨_, congrArg Host.Outcome.next ((if_neg (by rw [hl]; decide)).trans ((if_neg (by rw [hm]; decide)).trans (if_pos hs))),
      rfl, rfl, rfl, kept_modMeter (k0 s) _ s (unchangedBut_refl _ s)⟩
  · obtain ⟨h1, h2⟩ := pulseEnd_spec s k
    exact ⟨h1, h2, kept_doPulseEnd (k0 s) k s (unchangedBut_refl _ s)⟩
  · obtain ⟨h1, h2, h3⟩ := pfwNFall_spec s hl
    exact ⟨h1, h2, h3,
      kept_doPfwNFall ((kept_unchangedBut [.meter, .power] s).toKeptDev.toKept.mono (by decide)) s (unchangedBut_refl _ s)⟩
  · obtain ⟨h1, h2⟩ := meterFinal_spec s hl
    exact ⟨h1, h2, kept_meterFinal (k0 s) s (unchangedBut_refl _ s)⟩
  · exact energyClear_taken s hd ht
  · exact energyClear_refused s h

end Sys2Proof.Metering
end
